-- ==== Sys2Proof/Word.lean ====
section
/-!
DEFINITION. Word.lean: the word types, the operand types that an instruction word selects, and the
payload types of the device events that enter from outside. Only types and their field codes stand
here; everything an instruction computes stands under Sys2Proof/Machine.
-/
namespace Sys2Proof

abbrev Byte := BitVec 8
abbrev Word32 := BitVec 32
abbrev Word64 := BitVec 64

/-- A general register g0 to g7 (R148). -/
abbrev Reg := Fin 8
/-- A predicate p0 to p7 (R116). -/
abbrev PReg := Fin 8
/-- A brick, die number 0 to 3 (R2). -/
abbrev Die := Fin 4

/-- The guard field G (R147): bit 3 negates, bits [2:0] select the predicate. -/
structure Guard where
  neg : Bool
  p : PReg
  deriving DecidableEq, Repr

/-- Width modifiers (R186): 64 bits, `.w32`, `.w16`, `.w8`. -/
inductive Width | w64 | w32 | w16 | w8
  deriving DecidableEq, Repr

/-- Carry modes of `add` and `sub` (R186). -/
inductive CarryMode | none | co | cio | sat
  deriving DecidableEq, Repr

/-- Short-vector lane sizes (R199). -/
inductive Lane | l32 | l16 | l8
  deriving DecidableEq, Repr

/-- Rounding modes (R169). -/
inductive Rm | rne | rtz | rup | rdn | rsto
  deriving DecidableEq, Repr

/-- The scalar floating-point formats of the FMT field (R209). -/
inductive FFmt | f32 | f64 | f16 | bf16
  deriving DecidableEq, Repr

/-- Conditions of `cmp` (R192). -/
inductive Cond | eq | ne | lt | ge | le | gt | ltu | geu | leu | gtu
  deriving DecidableEq, Repr

/-- Conditions of `vcmp` (R199). -/
inductive VCond | eq | ne | lt | ge | le | gt
  deriving DecidableEq, Repr

/-- Conditions of `fcmp` (R214). -/
inductive FCond | eq | ne | lt | le | gt | ge | un | or
  deriving DecidableEq, Repr

/-- Operations of `pset` (R197). -/
inductive PsetOp | and | or | xor | andn | orn | nand | nor | xnor
  deriving DecidableEq, Repr

/-- Ordering scopes (R284). -/
inductive Scope | core | clu | die | dev | sys
  deriving DecidableEq, Repr

/-- The SPACE field (R257). -/
inductive Space | g | l | t
  deriving DecidableEq, Repr

/-- The ORD field of the atomics (R264). -/
inductive AOrd | none | acq | rel | ar
  deriving DecidableEq, Repr

/-- Widths of the integer atomics (R264): 64 bits or `.w32`. -/
inductive AWidth | w64 | w32
  deriving DecidableEq, Repr

/-- Widths of `acas` (R264): 64 bits, `.w32` or `.w128`. -/
inductive CasWidth | w64 | w32 | w128
  deriving DecidableEq, Repr

/-- Formats of `afadd` and `axadd` (R264). -/
inductive AFmt | f64 | f32
  deriving DecidableEq, Repr

/-- Steal domains (R306, R322). -/
inductive Steal | core | clu | die | dev
  deriving DecidableEq, Repr

/-- The element formats of R161. `b8 p u x` is the binary8 variant of precision p + 1, unsigned
when u, extended when x. -/
inductive Fmt
  | i8 | z8 | i16 | z16 | i32 | z32 | i64 | z64
  | f64 | f32 | f16 | bf16 | e4m3 | e5m2 | acc
  | b8 (p : Fin 7) (u x : Bool)
  deriving DecidableEq, Repr

/-- The special registers of R347. -/
inductive SReg
  | coreId | clusterId | dieId | ctxva | cycle | capbase | controlRight
  | ctxl1Limit | codeGranules | feLimit | barLimit | noHoldPriority
  | holdLimit0 | holdLimit1 | holdLimit2 | holdLimit3 | slottab0 | slottab1
  deriving DecidableEq, Repr

/-- Who caused an access or a message: the context (by context VA and GENERATION), its domain and
partition, the core it issued from, and the PC and word of the instruction (R132, R333). -/
structure Who where
  ctx : Nat
  gen : BitVec 16
  domain : BitVec 16
  part : BitVec 8
  core : Nat
  pc : BitVec 32
  word : BitVec 32
  deriving DecidableEq, Repr

/-- Where a register write comes from: the host through its memory region (R358), a posted store
of a context (R30), or an incoming Talak PUT (R362). -/
inductive RegSrc
  | host
  | ctx (who : Who)
  | talak (port : Fin 8)
  deriving DecidableEq, Repr

/-- The blocks of a brick's register window, by the records of the capability list (R378), the capability list itself
(R377), and the rest of the window. -/
inductive Block
  | translation | coherence | context | code | scheduling | fault | mortar | hostPort | attestation | hbm | partition
  | capability | unmapped
  deriving DecidableEq, Repr

/-- One write that has arrived at a register block of the register window (R30): the brick whose window received it, the
block, the byte offset in the block, the access width in bytes, the value. -/
structure RegAccess where
  die : Die
  block : Block
  offset : Nat
  width : Nat
  value : BitVec 64
  src : RegSrc
  deriving DecidableEq, Repr

/-- How a PCIe completion ends (R359). -/
inductive PcieResult
  | data (v : BitVec 2048)
  | abort
  | poisoned
  deriving DecidableEq, Repr

/-- What a host read names: a device physical address of the HDM range, or a register by its byte in the region at index 0 (R358). -/
inductive HostRead
  | hdm (pa : Nat)
  | region (offset size : Nat)
  deriving DecidableEq, Repr

/-- The operation of an incoming Talak ATOMIC (R361, R274). -/
inductive TalakAtomicOp | add | swap | cas
  deriving DecidableEq, Repr

/-- The firmware image in the serial flash (R373, R374): the bytes the digest covers, the vendor
key, the signature, the security version, and what the firmware does once it runs: the register
writes it makes before it sets READY, and the four free maps it writes (R310). -/
structure FirmwareImage where
  body : List (BitVec 8)
  key : List (BitVec 8)
  signature : List (BitVec 8)
  version : BitVec 32
  writes : List RegAccess
  deriving DecidableEq, Repr

/-- The arrays that ECC protects, with the DETAIL code of R338. -/
inductive EccArray | hbm | l2 | dataL1 | tsp | clm | context | mortar
  deriving DecidableEq, Repr

/-- What an ECC event met (R341): a corrected error, an uncorrectable error in a data unit at a
memory key, or an uncorrectable error in a context line as it is read from HBM. -/
inductive EccSite
  | corrected (die : Die) (array : EccArray)
  | data (die : Die) (array : EccArray) (addr : Nat)
  | contextLine (ctx : Nat)
  deriving DecidableEq, Repr

/-- What firmware withholds to keep power and temperature in limits (R379). -/
inductive Withhold | poolCycles | firings | jobStarts
  deriving DecidableEq, Repr

end Sys2Proof
end

