-- ==== Sys2Proof/Syntax.lean ====
section
/-!
DEFINITION. Syntax.lean: the ONE inductive of instructions and device steps, one constructor for each row
of the opcode table. An instruction of an overlay carries its guard and its operand fields (R146 to R149);
the suffix RL marks the literal form, RK the constant form, RI the immediate form. A device step (the rows
without an encoding) carries the number of the queued item, core or cluster it acts on, or the payload
that arrives from outside.
-/
namespace Sys2Proof

inductive Instr
  -- steps of the device
  | registerWrite (w : RegAccess)
  | launchQueueTailWrite (w : RegAccess)
  | launchRecordDiscard (q : Nat)
  | chunkRequest (die : Die)
  | chunkGrant (n : Nat)
  | readyEntryAging (die : Die) (n : Nat)
  | dispatchOffer (die : Die)
  | contextClaim (n : Nat)
  | claimLost (n : Nat)
  | contextFill (n : Nat)
  | contextEviction (core entry : Nat)
  | contextWritebackPerformed (core entry : Nat)
  | contextWritebackRetry (ctx : Nat)
  | claimPageFaultReoffer (die : Die) (n : Nat)
  | stealRequest (die : Die)
  | stealServe (n : Nat)
  | dequeSiblingSteal (core : Nat)
  | gangReserve (die : Die)
  | issueCycle (core : Nat)
  | contextMessageApply (n : Nat)
  | joinMessage (n : Nat)
  | wakeMessage (n : Nat)
  | nackMessage (n : Nat)
  | killAtHome (n : Nat)
  | resumeAtHome (n : Nat)
  | sleepWake (ctx : Nat)
  | pageFaultTimedWake (ctx : Nat)
  | faultRecordAppend (n : Nat)
  | handlerWakeRetry (n : Nat)
  | errorLogAppend (n : Nat)
  | elogLostClear (w : RegAccess)
  | plbRefill (n : Nat)
  | plbiCoreInvalidate (n core : Nat)
  | translationLookup (n : Nat)
  | pfqMessageAccept (die : Die) (n : Nat)
  | pfqHeadWrite (w : RegAccess)
  | tlbiBrickInvalidate (n : Nat) (die : Die)
  | migrationRound (n : Nat)
  | migrationFreeze (n : Nat)
  | migrationFreezeAbandon (n : Nat)
  | partRectWrite (w : RegAccess)
  | clmTspBankAccess (n : Nat)
  | feWaitTimeout (cluster idx : Nat)
  | feNoentRetry (ctx : Nat)
  | barWaitTimeout (cluster idx : Nat)
  | storeBufferAccept (core : Nat)
  | fenceProbe (n : Nat)
  | probeEcho (n : Nat)
  | readRequest (n : Nat)
  | subscribeRequest (n : Nat)
  | precisionChange (n : Nat)
  | storeRequest (n : Nat)
  | homeAtomic (n : Nat)
  | writeBack (n : Nat)
  | dropNotice (n : Nat)
  | snoopShare (n : Nat)
  | snoopInvalidate (n : Nat)
  | update (n : Nat)
  | homeEntryLeaseExpiry (n : Nat)
  | heldWriteLeaseExpiry (n : Nat)
  | combineEntryClose (n : Nat)
  | hostCxlMemRead (at_ : HostRead)
  | hostCxlMemWrite (pa : Nat) (bytes : List Byte)
  | hostSnoop (pa : Nat) (excl : Bool)
  | pcieCompletion (n : Nat) (r : PcieResult)
  | pcieCompletionTimeout (n : Nat)
  | talakGet (port : Fin 8) (off len : Nat)
  | talakGetLease (port : Fin 8) (off : Nat)
  | talakRenew (port : Fin 8) (off : Nat) (ver : BitVec 32)
  | talakPut (port : Fin 8) (off : Nat) (bytes : List (Option Byte))
  | talakAtomic (port : Fin 8) (off : Nat) (op : TalakAtomicOp) (w : AWidth) (x e : BitVec 64)
  | talakAck (n : Nat)
  | talakNack (n code : Nat)
  | overlayLoadComplete (cluster n : Nat)
  | overlayLoadFail (cluster n : Nat)
  | jobSubmission (n : Nat)
  | jobStart (cluster : Nat)
  | copyLineWrite (cluster slot : Nat)
  | tileRefreshStart (cluster : Nat)
  | tileRefreshComplete (cluster n : Nat)
  | tileRefreshFail (cluster n : Nat)
  | tileZeroingComplete (cluster n : Nat)
  | tileOpArrival (n : Nat)
  | tileOpExecute (cluster : Nat)
  | tdescDiscardNotice (n : Nat)
  | geyserAdmission (n : Nat)
  | geyserHoldExpire (cluster stack : Nat)
  | geyserRetryReissue (n : Nat)
  | engineSelect (cluster : Nat)
  | stackFire (cluster : Nat)
  | engineNormOp (cluster : Nat)
  | ctCommit (w : RegAccess)
  | circuitTuningComplete
  | circuitTuneTimeout (e : Nat)
  | brickQuiesce (w : RegAccess)
  | brickQuiesceComplete
  | brickLinkTrained
  | attGo (w : RegAccess)
  | attestationComplete
  | coldBoot
  | recoveryImageWrite (image : FirmwareImage)
  | ucieRetrainFail (die : Die) (m : Nat)
  | eccError (site : EccSite)
  | thermalThrottle (what : Withhold) (die : Die) (on : Bool)
  | talakReply (n : Nat) (data : BitVec 2048)
  | talakFlitCrcRetry (n : Nat)
  | ucieLinkRetraining (die : Die) (m : Nat)
  | backInvalidateResponse (n : Nat) (data : Option (BitVec 512))
  | cxlCacheGrant (n : Nat) (data : BitVec 512) (excl : Bool)
  -- instructions of an overlay (R150 to R152)
  | add (g : Guard) (d a b : Reg) (m : CarryMode) (z : Bool) (w : Width)
  | addRL (g : Guard) (d a : Reg) (m : CarryMode) (z : Bool) (w : Width) (lit : BitVec 32)
  | addRK (g : Guard) (d a : Reg) (w : Width) (k : BitVec 8)
  | addRI (g : Guard) (d a : Reg) (imm : BitVec 13)
  | sub (g : Guard) (d a b : Reg) (m : CarryMode) (z : Bool) (w : Width)
  | subRL (g : Guard) (d a : Reg) (m : CarryMode) (z : Bool) (w : Width) (lit : BitVec 32)
  | subRK (g : Guard) (d a : Reg) (w : Width) (k : BitVec 8)
  | subRI (g : Guard) (d a : Reg) (imm : BitVec 13)
  | mul (g : Guard) (d a b : Reg) (z : Bool) (w : Width)
  | mulRL (g : Guard) (d a : Reg) (z : Bool) (w : Width) (lit : BitVec 32)
  | mulRK (g : Guard) (d a : Reg) (w : Width) (k : BitVec 8)
  | mulRI (g : Guard) (d a : Reg) (imm : BitVec 13)
  | mulh (g : Guard) (d a b : Reg) (z : Bool) (w : Width)
  | mulhRL (g : Guard) (d a : Reg) (z : Bool) (w : Width) (lit : BitVec 32)
  | mulhRK (g : Guard) (d a : Reg) (w : Width) (k : BitVec 8)
  | mulhRI (g : Guard) (d a : Reg) (imm : BitVec 13)
  | mulhu (g : Guard) (d a b : Reg) (z : Bool) (w : Width)
  | mulhuRL (g : Guard) (d a : Reg) (z : Bool) (w : Width) (lit : BitVec 32)
  | mulhuRK (g : Guard) (d a : Reg) (w : Width) (k : BitVec 8)
  | mulhuRI (g : Guard) (d a : Reg) (imm : BitVec 13)
  | div (g : Guard) (d a b : Reg) (z : Bool) (w : Width)
  | divRL (g : Guard) (d a : Reg) (z : Bool) (w : Width) (lit : BitVec 32)
  | divRK (g : Guard) (d a : Reg) (w : Width) (k : BitVec 8)
  | divRI (g : Guard) (d a : Reg) (imm : BitVec 13)
  | divu (g : Guard) (d a b : Reg) (z : Bool) (w : Width)
  | divuRL (g : Guard) (d a : Reg) (z : Bool) (w : Width) (lit : BitVec 32)
  | divuRK (g : Guard) (d a : Reg) (w : Width) (k : BitVec 8)
  | divuRI (g : Guard) (d a : Reg) (imm : BitVec 13)
  | rem (g : Guard) (d a b : Reg) (z : Bool) (w : Width)
  | remRL (g : Guard) (d a : Reg) (z : Bool) (w : Width) (lit : BitVec 32)
  | remRK (g : Guard) (d a : Reg) (w : Width) (k : BitVec 8)
  | remRI (g : Guard) (d a : Reg) (imm : BitVec 13)
  | remu (g : Guard) (d a b : Reg) (z : Bool) (w : Width)
  | remuRL (g : Guard) (d a : Reg) (z : Bool) (w : Width) (lit : BitVec 32)
  | remuRK (g : Guard) (d a : Reg) (w : Width) (k : BitVec 8)
  | remuRI (g : Guard) (d a : Reg) (imm : BitVec 13)
  | and (g : Guard) (d a b : Reg) (z : Bool) (w : Width)
  | andRL (g : Guard) (d a : Reg) (z : Bool) (w : Width) (lit : BitVec 32)
  | andRK (g : Guard) (d a : Reg) (w : Width) (k : BitVec 8)
  | andRI (g : Guard) (d a : Reg) (imm : BitVec 13)
  | or (g : Guard) (d a b : Reg) (z : Bool) (w : Width)
  | orRL (g : Guard) (d a : Reg) (z : Bool) (w : Width) (lit : BitVec 32)
  | orRK (g : Guard) (d a : Reg) (w : Width) (k : BitVec 8)
  | orRI (g : Guard) (d a : Reg) (imm : BitVec 13)
  | xor (g : Guard) (d a b : Reg) (z : Bool) (w : Width)
  | xorRL (g : Guard) (d a : Reg) (z : Bool) (w : Width) (lit : BitVec 32)
  | xorRK (g : Guard) (d a : Reg) (w : Width) (k : BitVec 8)
  | xorRI (g : Guard) (d a : Reg) (imm : BitVec 13)
  | andn (g : Guard) (d a b : Reg) (z : Bool) (w : Width)
  | andnRL (g : Guard) (d a : Reg) (z : Bool) (w : Width) (lit : BitVec 32)
  | andnRK (g : Guard) (d a : Reg) (w : Width) (k : BitVec 8)
  | andnRI (g : Guard) (d a : Reg) (imm : BitVec 13)
  | orn (g : Guard) (d a b : Reg) (z : Bool) (w : Width)
  | ornRL (g : Guard) (d a : Reg) (z : Bool) (w : Width) (lit : BitVec 32)
  | ornRK (g : Guard) (d a : Reg) (w : Width) (k : BitVec 8)
  | ornRI (g : Guard) (d a : Reg) (imm : BitVec 13)
  | shl (g : Guard) (d a b : Reg) (z : Bool) (w : Width)
  | shlRL (g : Guard) (d a : Reg) (z : Bool) (w : Width) (lit : BitVec 32)
  | shlRK (g : Guard) (d a : Reg) (w : Width) (k : BitVec 8)
  | shlRI (g : Guard) (d a : Reg) (imm : BitVec 13)
  | shr (g : Guard) (d a b : Reg) (z : Bool) (w : Width)
  | shrRL (g : Guard) (d a : Reg) (z : Bool) (w : Width) (lit : BitVec 32)
  | shrRK (g : Guard) (d a : Reg) (w : Width) (k : BitVec 8)
  | shrRI (g : Guard) (d a : Reg) (imm : BitVec 13)
  | sar (g : Guard) (d a b : Reg) (z : Bool) (w : Width)
  | sarRL (g : Guard) (d a : Reg) (z : Bool) (w : Width) (lit : BitVec 32)
  | sarRK (g : Guard) (d a : Reg) (w : Width) (k : BitVec 8)
  | sarRI (g : Guard) (d a : Reg) (imm : BitVec 13)
  | rol (g : Guard) (d a b : Reg) (z : Bool) (w : Width)
  | rolRL (g : Guard) (d a : Reg) (z : Bool) (w : Width) (lit : BitVec 32)
  | rolRK (g : Guard) (d a : Reg) (w : Width) (k : BitVec 8)
  | rolRI (g : Guard) (d a : Reg) (imm : BitVec 13)
  | ror (g : Guard) (d a b : Reg) (z : Bool) (w : Width)
  | rorRL (g : Guard) (d a : Reg) (z : Bool) (w : Width) (lit : BitVec 32)
  | rorRK (g : Guard) (d a : Reg) (w : Width) (k : BitVec 8)
  | rorRI (g : Guard) (d a : Reg) (imm : BitVec 13)
  | min (g : Guard) (d a b : Reg) (z : Bool) (w : Width)
  | minRL (g : Guard) (d a : Reg) (z : Bool) (w : Width) (lit : BitVec 32)
  | minRK (g : Guard) (d a : Reg) (w : Width) (k : BitVec 8)
  | minRI (g : Guard) (d a : Reg) (imm : BitVec 13)
  | max (g : Guard) (d a b : Reg) (z : Bool) (w : Width)
  | maxRL (g : Guard) (d a : Reg) (z : Bool) (w : Width) (lit : BitVec 32)
  | maxRK (g : Guard) (d a : Reg) (w : Width) (k : BitVec 8)
  | maxRI (g : Guard) (d a : Reg) (imm : BitVec 13)
  | minu (g : Guard) (d a b : Reg) (z : Bool) (w : Width)
  | minuRL (g : Guard) (d a : Reg) (z : Bool) (w : Width) (lit : BitVec 32)
  | minuRK (g : Guard) (d a : Reg) (w : Width) (k : BitVec 8)
  | minuRI (g : Guard) (d a : Reg) (imm : BitVec 13)
  | maxu (g : Guard) (d a b : Reg) (z : Bool) (w : Width)
  | maxuRL (g : Guard) (d a : Reg) (z : Bool) (w : Width) (lit : BitVec 32)
  | maxuRK (g : Guard) (d a : Reg) (w : Width) (k : BitVec 8)
  | maxuRI (g : Guard) (d a : Reg) (imm : BitVec 13)
  | abs (g : Guard) (d a : Reg) (s z : Bool) (w : Width)
  | clz (g : Guard) (d a : Reg) (w : Width)
  | ctz (g : Guard) (d a : Reg) (w : Width)
  | popc (g : Guard) (d a : Reg) (w : Width)
  | bswap (g : Guard) (d a : Reg) (z : Bool) (w : Width)
  | brev (g : Guard) (d a : Reg) (z : Bool) (w : Width)
  | sext (g : Guard) (d a : Reg) (w : Width)
  | zext (g : Guard) (d a : Reg) (w : Width)
  | ext (g : Guard) (d a b : Reg)
  | extRL (g : Guard) (d a : Reg) (lit : BitVec 32)
  | extRK (g : Guard) (d a : Reg) (k : BitVec 8)
  | extRI (g : Guard) (d a : Reg) (imm : BitVec 13)
  | ins (g : Guard) (d a b : Reg)
  | insRL (g : Guard) (d a : Reg) (lit : BitVec 32)
  | insRK (g : Guard) (d a : Reg) (k : BitVec 8)
  | insRI (g : Guard) (d a : Reg) (imm : BitVec 13)
  | cmp (g : Guard) (p : PReg) (a b : Reg) (z : Bool) (w : Width) (n : Cond)
  | cmpRL (g : Guard) (p : PReg) (a : Reg) (z : Bool) (w : Width) (n : Cond) (lit : BitVec 32)
  | cmpRK (g : Guard) (p : PReg) (a : Reg) (n : Cond) (k : BitVec 8)
  | cmpRI (g : Guard) (p : PReg) (a : Reg) (imm : BitVec 13)
  | tst (g : Guard) (p : PReg) (a b : Reg) (z n : Bool)
  | tstRL (g : Guard) (p : PReg) (a : Reg) (z n : Bool) (lit : BitVec 32)
  | tstRK (g : Guard) (p : PReg) (a : Reg) (z n : Bool) (k : BitVec 8)
  | tstRI (g : Guard) (p : PReg) (a : Reg) (imm : BitVec 13)
  | sel (g : Guard) (d a b : Reg) (q : PReg) (n : Bool)
  | selRL (g : Guard) (d a : Reg) (q : PReg) (n : Bool) (lit : BitVec 32)
  | mov (g : Guard) (d b : Reg) (z : Bool)
  | movRL (g : Guard) (d : Reg) (z : Bool) (lit : BitVec 32)
  | movRK (g : Guard) (d : Reg) (z : Bool) (k : BitVec 8)
  | movRI (g : Guard) (d : Reg) (imm : BitVec 13)
  | movi (g : Guard) (d : Reg) (imm : BitVec 13)
  | movh (g : Guard) (d : Reg) (imm : BitVec 13)
  | pset (g : Guard) (p pa pb : PReg) (o : PsetOp)
  | rdp (g : Guard) (d : Reg)
  | wrp (g : Guard) (a b : Reg)
  | wrpRL (g : Guard) (a : Reg) (lit : BitVec 32)
  | vadd (g : Guard) (d a b : Reg) (s z : Bool) (l : Lane)
  | vaddRL (g : Guard) (d a : Reg) (s z : Bool) (l : Lane) (lit : BitVec 32)
  | vaddRK (g : Guard) (d a : Reg) (l : Lane) (k : BitVec 8)
  | vsub (g : Guard) (d a b : Reg) (s z : Bool) (l : Lane)
  | vsubRL (g : Guard) (d a : Reg) (s z : Bool) (l : Lane) (lit : BitVec 32)
  | vsubRK (g : Guard) (d a : Reg) (l : Lane) (k : BitVec 8)
  | vmul (g : Guard) (d a b : Reg) (s z : Bool) (l : Lane)
  | vmulRL (g : Guard) (d a : Reg) (s z : Bool) (l : Lane) (lit : BitVec 32)
  | vmulRK (g : Guard) (d a : Reg) (l : Lane) (k : BitVec 8)
  | vmin (g : Guard) (d a b : Reg) (z : Bool) (l : Lane)
  | vminRL (g : Guard) (d a : Reg) (z : Bool) (l : Lane) (lit : BitVec 32)
  | vminRK (g : Guard) (d a : Reg) (l : Lane) (k : BitVec 8)
  | vmax (g : Guard) (d a b : Reg) (z : Bool) (l : Lane)
  | vmaxRL (g : Guard) (d a : Reg) (z : Bool) (l : Lane) (lit : BitVec 32)
  | vmaxRK (g : Guard) (d a : Reg) (l : Lane) (k : BitVec 8)
  | vavg (g : Guard) (d a b : Reg) (z : Bool) (l : Lane)
  | vavgRL (g : Guard) (d a : Reg) (z : Bool) (l : Lane) (lit : BitVec 32)
  | vavgRK (g : Guard) (d a : Reg) (l : Lane) (k : BitVec 8)
  | vabsd (g : Guard) (d a b : Reg) (z : Bool) (l : Lane)
  | vabsdRL (g : Guard) (d a : Reg) (z : Bool) (l : Lane) (lit : BitVec 32)
  | vabsdRK (g : Guard) (d a : Reg) (l : Lane) (k : BitVec 8)
  | vdot (g : Guard) (d a b c : Reg) (z : Bool) (l : Lane)
  | vdotRL (g : Guard) (d a b : Reg) (z : Bool) (l : Lane) (lit : BitVec 32)
  | vdotRK (g : Guard) (d a b : Reg) (l : Lane) (k : BitVec 8)
  | vsum (g : Guard) (d a : Reg) (z : Bool) (l : Lane)
  | vsplat (g : Guard) (d a : Reg) (l : Lane)
  | vshf (g : Guard) (d a b : Reg) (l : Lane)
  | vshfRL (g : Guard) (d a : Reg) (l : Lane) (lit : BitVec 32)
  | vpack (g : Guard) (d a b : Reg) (s z : Bool) (l : Lane)
  | vpackRL (g : Guard) (d a : Reg) (s z : Bool) (l : Lane) (lit : BitVec 32)
  | vcmp (g : Guard) (d a b : Reg) (n : VCond) (z : Bool) (l : Lane)
  | vcmpRL (g : Guard) (d a : Reg) (n : VCond) (z : Bool) (l : Lane) (lit : BitVec 32)
  | vcmpRK (g : Guard) (d a : Reg) (l : Lane) (k : BitVec 8)
  | vsel (g : Guard) (d a b c : Reg)
  | vselRL (g : Guard) (d a b : Reg) (lit : BitVec 32)
  | vselRK (g : Guard) (d a b : Reg) (k : BitVec 8)
  | rand (g : Guard) (d a b : Reg) (z : Bool)
  | randRL (g : Guard) (d a : Reg) (z : Bool) (lit : BitVec 32)
  | randRK (g : Guard) (d a : Reg) (z : Bool) (k : BitVec 8)
  | randRI (g : Guard) (d a : Reg) (imm : BitVec 13)
  | randf (g : Guard) (d a b : Reg) (z : Bool)
  | randfRL (g : Guard) (d a : Reg) (z : Bool) (lit : BitVec 32)
  | randfRK (g : Guard) (d a : Reg) (z : Bool) (k : BitVec 8)
  | randfRI (g : Guard) (d a : Reg) (imm : BitVec 13)
  | fadd (g : Guard) (d a b : Reg) (r : Rm) (f : FFmt)
  | faddRL (g : Guard) (d a : Reg) (r : Rm) (f : FFmt) (lit : BitVec 32)
  | faddRK (g : Guard) (d a : Reg) (f : FFmt) (k : BitVec 8)
  | fsub (g : Guard) (d a b : Reg) (r : Rm) (f : FFmt)
  | fsubRL (g : Guard) (d a : Reg) (r : Rm) (f : FFmt) (lit : BitVec 32)
  | fsubRK (g : Guard) (d a : Reg) (f : FFmt) (k : BitVec 8)
  | fmul (g : Guard) (d a b : Reg) (r : Rm) (f : FFmt)
  | fmulRL (g : Guard) (d a : Reg) (r : Rm) (f : FFmt) (lit : BitVec 32)
  | fmulRK (g : Guard) (d a : Reg) (f : FFmt) (k : BitVec 8)
  | fdiv (g : Guard) (d a b : Reg) (r : Rm) (f : FFmt)
  | fdivRL (g : Guard) (d a : Reg) (r : Rm) (f : FFmt) (lit : BitVec 32)
  | fdivRK (g : Guard) (d a : Reg) (f : FFmt) (k : BitVec 8)
  | fma (g : Guard) (d a b c : Reg) (r : Rm) (f : FFmt)
  | fmaRL (g : Guard) (d a b : Reg) (r : Rm) (f : FFmt) (lit : BitVec 32)
  | fmaRK (g : Guard) (d a b : Reg) (f : FFmt) (k : BitVec 8)
  | fsqrt (g : Guard) (d a : Reg) (r : Rm) (f : FFmt)
  | fmin (g : Guard) (d a b : Reg) (f : FFmt)
  | fminRL (g : Guard) (d a : Reg) (f : FFmt) (lit : BitVec 32)
  | fminRK (g : Guard) (d a : Reg) (f : FFmt) (k : BitVec 8)
  | fmax (g : Guard) (d a b : Reg) (f : FFmt)
  | fmaxRL (g : Guard) (d a : Reg) (f : FFmt) (lit : BitVec 32)
  | fmaxRK (g : Guard) (d a : Reg) (f : FFmt) (k : BitVec 8)
  | fabs (g : Guard) (d a : Reg) (f : FFmt)
  | fneg (g : Guard) (d a : Reg) (f : FFmt)
  | fcmp (g : Guard) (p : PReg) (a b : Reg) (n : FCond) (f : FFmt)
  | fcmpRL (g : Guard) (p : PReg) (a : Reg) (n : FCond) (f : FFmt) (lit : BitVec 32)
  | fcmpRK (g : Guard) (p : PReg) (a : Reg) (f : FFmt) (k : BitVec 8)
  | fclass (g : Guard) (d a : Reg) (f : FFmt)
  | fcvt (g : Guard) (d a b c : Reg)
  | fcvtRL (g : Guard) (d a b : Reg) (lit : BitVec 32)
  | fcvtRK (g : Guard) (d a b : Reg) (k : BitVec 8)
  | fround (g : Guard) (d a : Reg) (r : Rm) (f : FFmt)
  | vfma (g : Guard) (d a b c : Reg) (r : Rm) (f : FFmt)
  | vfmaRL (g : Guard) (d a b : Reg) (r : Rm) (f : FFmt) (lit : BitVec 32)
  | vfmaRK (g : Guard) (d a b : Reg) (f : FFmt) (k : BitVec 8)
  | xcvt (g : Guard) (d a : Reg)
  | tdesc (g : Guard) (d a b : Reg) (pf : PReg)
  | tdescRL (g : Guard) (d a : Reg) (pf : PReg) (lit : BitVec 32)
  | tdescRK (g : Guard) (d a : Reg) (pf : PReg) (k : BitVec 8)
  | tdescRI (g : Guard) (d a : Reg) (imm : BitVec 13)
  | tfree (g : Guard) (a : Reg)
  | tinfo (g : Guard) (d a b : Reg)
  | tinfoRI (g : Guard) (d a : Reg) (imm : BitVec 13)
  | tadd (g : Guard) (d a b c : Reg) (r : Rm) (o : Bool)
  | tsub (g : Guard) (d a b c : Reg) (r : Rm) (o : Bool)
  | tmul (g : Guard) (d a b c : Reg) (r : Rm) (o : Bool)
  | tmax (g : Guard) (d a b c : Reg) (r : Rm) (o : Bool)
  | tmin (g : Guard) (d a b c : Reg) (r : Rm) (o : Bool)
  | tfma (g : Guard) (d a b c : Reg) (r : Rm) (o : Bool)
  | tscale (g : Guard) (d a b c : Reg) (r : Rm) (o : Bool)
  | tscaleRL (g : Guard) (d a b : Reg) (r : Rm) (o : Bool) (lit : BitVec 32)
  | tscaleRK (g : Guard) (d a b : Reg) (r : Rm) (o : Bool) (k : BitVec 8)
  | tcvt (g : Guard) (d a b : Reg) (r : Rm) (o : Bool)
  | tredmax (g : Guard) (d a : Reg) (x y : Bool) (r : Rm)
  | tredsum (g : Guard) (d a : Reg) (x : Bool) (r : Rm)
  | ttrans (g : Guard) (d a : Reg) (r : Rm) (o : Bool)
  | tfill (g : Guard) (d b : Reg) (n : Bool) (r : Rm) (o : Bool)
  | tfillRL (g : Guard) (d : Reg) (n : Bool) (r : Rm) (o : Bool) (lit : BitVec 32)
  | tfillRK (g : Guard) (d : Reg) (r : Rm) (o : Bool) (k : BitVec 8)
  | tget (g : Guard) (d a b : Reg)
  | tgetRL (g : Guard) (d a : Reg) (lit : BitVec 32)
  | tgetRK (g : Guard) (d a : Reg) (k : BitVec 8)
  | tgetRI (g : Guard) (d a : Reg) (imm : BitVec 13)
  | tset (g : Guard) (d a b : Reg)
  | tsetRL (g : Guard) (d a : Reg) (lit : BitVec 32)
  | tsetRK (g : Guard) (d a : Reg) (k : BitVec 8)
  | tsetRI (g : Guard) (d a : Reg) (imm : BitVec 13)
  | mxm (g : Guard) (d a b c : Reg) (t n : Bool)
  | mxmRL (g : Guard) (d a b : Reg) (t n : Bool) (lit : BitVec 32)
  | mxmRK (g : Guard) (d a b : Reg) (t n : Bool) (k : BitVec 8)
  | mxmz (g : Guard) (d a b c : Reg) (t n : Bool)
  | mxmzRL (g : Guard) (d a b : Reg) (t n : Bool) (lit : BitVec 32)
  | mxmzRK (g : Guard) (d a b : Reg) (t n : Bool) (k : BitVec 8)
  | mxflush (g : Guard) (a : Reg) (l : Bool)
  | mxnorm (g : Guard) (d a b : Reg)
  | mxnormRL (g : Guard) (d a : Reg) (lit : BitVec 32)
  | mxexp (g : Guard) (d a : Reg) (l : Bool)
  | ld (g : Guard) (d a b : Reg) (o : Option Scope) (y : Space) (z : Bool) (w : Width)
  | ldRL (g : Guard) (d a : Reg) (o : Option Scope) (y : Space) (z : Bool) (w : Width) (lit : BitVec 32)
  | ldRK (g : Guard) (d a : Reg) (w : Width) (k : BitVec 8)
  | ldRI (g : Guard) (d a : Reg) (imm : BitVec 13)
  | st (g : Guard) (d a b : Reg) (o : Option Scope) (y : Space) (w : Width)
  | stRL (g : Guard) (d a : Reg) (o : Option Scope) (y : Space) (w : Width) (lit : BitVec 32)
  | stRK (g : Guard) (d a : Reg) (w : Width) (k : BitVec 8)
  | stRI (g : Guard) (d a : Reg) (imm : BitVec 13)
  | ld2 (g : Guard) (d a b : Reg) (o : Option Scope) (y : Space)
  | ld2RL (g : Guard) (d a : Reg) (o : Option Scope) (y : Space) (lit : BitVec 32)
  | ld2RK (g : Guard) (d a : Reg) (k : BitVec 8)
  | ld2RI (g : Guard) (d a : Reg) (imm : BitVec 13)
  | st2 (g : Guard) (d a b : Reg) (o : Option Scope) (y : Space)
  | st2RL (g : Guard) (d a : Reg) (o : Option Scope) (y : Space) (lit : BitVec 32)
  | st2RK (g : Guard) (d a : Reg) (k : BitVec 8)
  | st2RI (g : Guard) (d a : Reg) (imm : BitVec 13)
  | ldq (g : Guard) (d a b : Reg) (o : Option Scope) (u : Bool) (f : Fmt)
  | ldqRL (g : Guard) (d a : Reg) (o : Option Scope) (u : Bool) (f : Fmt) (lit : BitVec 32)
  | ldb (g : Guard) (d a b c : Reg) (y : Space) (z : Bool) (w : Width)
  | ldbRL (g : Guard) (d a b : Reg) (y : Space) (z : Bool) (w : Width) (lit : BitVec 32)
  | ldbRK (g : Guard) (d a b : Reg) (w : Width) (k : BitVec 8)
  | ldfe (g : Guard) (d a b : Reg) (z : Bool) (y : Space)
  | ldfeRL (g : Guard) (d a : Reg) (z : Bool) (y : Space) (lit : BitVec 32)
  | ldfeRK (g : Guard) (d a : Reg) (y : Space) (k : BitVec 8)
  | ldfeRI (g : Guard) (d a : Reg) (imm : BitVec 13)
  | stfe (g : Guard) (d a b : Reg) (y : Space)
  | stfeRL (g : Guard) (d a : Reg) (y : Space) (lit : BitVec 32)
  | stfeRK (g : Guard) (d a : Reg) (y : Space) (k : BitVec 8)
  | stfeRI (g : Guard) (d a : Reg) (imm : BitVec 13)
  | feset (g : Guard) (a b : Reg) (u : Bool) (y : Space)
  | fesetRL (g : Guard) (a : Reg) (u : Bool) (y : Space) (lit : BitVec 32)
  | fesetRK (g : Guard) (a : Reg) (y : Space) (k : BitVec 8)
  | fesetRI (g : Guard) (a : Reg) (imm : BitVec 13)
  | pref (g : Guard) (a b : Reg) (x : Bool)
  | prefRL (g : Guard) (a : Reg) (x : Bool) (lit : BitVec 32)
  | prefRK (g : Guard) (a : Reg) (x : Bool) (k : BitVec 8)
  | prefRI (g : Guard) (a : Reg) (imm : BitVec 13)
  | cwb (g : Guard) (a b : Reg)
  | cwbRL (g : Guard) (a : Reg) (lit : BitVec 32)
  | cwbRK (g : Guard) (a : Reg) (k : BitVec 8)
  | cwbRI (g : Guard) (a : Reg) (imm : BitVec 13)
  | cinv (g : Guard) (a b : Reg)
  | cinvRL (g : Guard) (a : Reg) (lit : BitVec 32)
  | cinvRK (g : Guard) (a : Reg) (k : BitVec 8)
  | cinvRI (g : Guard) (a : Reg) (imm : BitVec 13)
  | aadd (g : Guard) (d a b : Reg) (o : AOrd) (w : AWidth)
  | aaddRL (g : Guard) (d a : Reg) (o : AOrd) (w : AWidth) (lit : BitVec 32)
  | aand (g : Guard) (d a b : Reg) (o : AOrd) (w : AWidth)
  | aandRL (g : Guard) (d a : Reg) (o : AOrd) (w : AWidth) (lit : BitVec 32)
  | aor (g : Guard) (d a b : Reg) (o : AOrd) (w : AWidth)
  | aorRL (g : Guard) (d a : Reg) (o : AOrd) (w : AWidth) (lit : BitVec 32)
  | axor (g : Guard) (d a b : Reg) (o : AOrd) (w : AWidth)
  | axorRL (g : Guard) (d a : Reg) (o : AOrd) (w : AWidth) (lit : BitVec 32)
  | amin (g : Guard) (d a b : Reg) (o : AOrd) (w : AWidth)
  | aminRL (g : Guard) (d a : Reg) (o : AOrd) (w : AWidth) (lit : BitVec 32)
  | amax (g : Guard) (d a b : Reg) (o : AOrd) (w : AWidth)
  | amaxRL (g : Guard) (d a : Reg) (o : AOrd) (w : AWidth) (lit : BitVec 32)
  | aminu (g : Guard) (d a b : Reg) (o : AOrd) (w : AWidth)
  | aminuRL (g : Guard) (d a : Reg) (o : AOrd) (w : AWidth) (lit : BitVec 32)
  | amaxu (g : Guard) (d a b : Reg) (o : AOrd) (w : AWidth)
  | amaxuRL (g : Guard) (d a : Reg) (o : AOrd) (w : AWidth) (lit : BitVec 32)
  | aswp (g : Guard) (d a b : Reg) (o : AOrd) (w : AWidth)
  | aswpRL (g : Guard) (d a : Reg) (o : AOrd) (w : AWidth) (lit : BitVec 32)
  | acas (g : Guard) (d a b c : Reg) (o : AOrd) (w : CasWidth)
  | acasRL (g : Guard) (d a b : Reg) (o : AOrd) (w : CasWidth) (lit : BitVec 32)
  | afadd (g : Guard) (d a b : Reg) (o : AOrd) (f : AFmt)
  | afaddRL (g : Guard) (d a : Reg) (o : AOrd) (f : AFmt) (lit : BitVec 32)
  | axadd (g : Guard) (d a b : Reg) (o : AOrd) (f : AFmt)
  | axaddRL (g : Guard) (d a : Reg) (o : AOrd) (f : AFmt) (lit : BitVec 32)
  | fence (g : Guard) (s : Scope)
  | bara (g : Guard) (d a b : Reg)
  | baraRL (g : Guard) (d a : Reg) (lit : BitVec 32)
  | barc (g : Guard) (d a b : Reg)
  | barcRL (g : Guard) (d a : Reg) (lit : BitVec 32)
  | swait (g : Guard) (d a b : Reg)
  | swaitRL (g : Guard) (d a : Reg) (lit : BitVec 32)
  | swaitRK (g : Guard) (d a : Reg) (k : BitVec 8)
  | swaitRI (g : Guard) (d a : Reg) (imm : BitVec 13)
  | sarm (g : Guard) (d a b c : Reg) (y : Space) (f : Bool) (pf : PReg)
  | sarmRL (g : Guard) (d a b : Reg) (y : Space) (f : Bool) (pf : PReg) (lit : BitVec 32)
  | cpy (g : Guard) (d a b c : Reg) (pf : PReg)
  | cpyRL (g : Guard) (d a b : Reg) (pf : PReg) (lit : BitVec 32)
  | cpy2 (g : Guard) (d a b c : Reg) (pf : PReg)
  | cpy2RL (g : Guard) (d a b : Reg) (pf : PReg) (lit : BitVec 32)
  | cpyg (g : Guard) (d a b c : Reg) (pf : PReg)
  | tload (g : Guard) (d a b c : Reg) (s : Bool) (pf : PReg)
  | tloadRL (g : Guard) (d a b : Reg) (s : Bool) (pf : PReg) (lit : BitVec 32)
  | tstore (g : Guard) (d a b c : Reg) (pf : PReg)
  | tstoreRL (g : Guard) (d a b : Reg) (pf : PReg) (lit : BitVec 32)
  | jpoll (g : Guard) (d a : Reg) (pf : PReg)
  | jwait (g : Guard) (d a : Reg)
  | jcancel (g : Guard) (d a : Reg)
  | b (g : Guard) (disp : BitVec 19)
  | call (g : Guard) (disp : BitVec 19)
  | dbnz (g : Guard) (r : Reg) (disp : BitVec 16)
  | jmp (g : Guard) (b : Reg)
  | jmpRL (g : Guard) (lit : BitVec 32)
  | callr (g : Guard) (b : Reg)
  | callrRL (g : Guard) (lit : BitVec 32)
  | ret (g : Guard) (k : Bool)
  | spawn (g : Guard) (d a b c : Reg) (s : Steal) (pf : PReg)
  | spawnRL (g : Guard) (d a b : Reg) (s : Steal) (pf : PReg) (lit : BitVec 32)
  | launch (g : Guard) (d a b : Reg) (pf : PReg)
  | launchRL (g : Guard) (d a : Reg) (pf : PReg) (lit : BitVec 32)
  | qpush (g : Guard) (d a b : Reg) (pf : PReg)
  | qpushRL (g : Guard) (d a : Reg) (pf : PReg) (lit : BitVec 32)
  | qpop (g : Guard) (d a : Reg) (pf : PReg)
  | done (g : Guard)
  | waitc (g : Guard)
  | yield (g : Guard)
  | halt (g : Guard) (a : Reg) (r : Bool)
  | sleep (g : Guard) (b : Reg)
  | sleepRL (g : Guard) (lit : BitVec 32)
  | prio (g : Guard) (d b : Reg)
  | prioRL (g : Guard) (d : Reg) (lit : BitVec 32)
  | rsr (g : Guard) (d : Reg) (n : SReg)
  | wsr (g : Guard) (b : Reg) (n : SReg)
  | wsrRL (g : Guard) (n : SReg) (lit : BitVec 32)
  | trap (g : Guard) (b : Reg)
  | trapRL (g : Guard) (lit : BitVec 32)
  | wake (g : Guard) (a : Reg)
  | kill (g : Guard) (d a : Reg)
  | resume (g : Guard) (d a : Reg)
  | slotw (g : Guard) (a b : Reg)
  | slotwRL (g : Guard) (a : Reg) (lit : BitVec 32)
  | plbi (g : Guard) (a b : Reg)
  | plbiRL (g : Guard) (a : Reg) (lit : BitVec 32)
  | tlbi (g : Guard) (b : Reg)
  | tlbiRL (g : Guard) (lit : BitVec 32)
  | pmig (g : Guard) (d a b : Reg) (pf : PReg)
  | pmigRL (g : Guard) (d a : Reg) (pf : PReg) (lit : BitVec 32)
  | ovl (g : Guard) (a : Reg) (n : Bool)
  | ovlq (g : Guard) (d b : Reg)
  | ovlqRL (g : Guard) (d : Reg) (lit : BitVec 32)
  | fmai (d a : Reg) (imm : BitVec 20)
  deriving DecidableEq, Repr

end Sys2Proof
end

