-- ==== Sys2Proof/WellFormed.lean ====
section
/-!
DEFINITION. WellFormed.lean: which instruction terms stand for an encoding. A term is ill-formed where the
spec makes its word an illegal encoding (R153): the guard 1000 (R147), an odd register where a field is marked
even, a modifier value that an entry does not assign, a value that its format cannot carry.
-/
namespace Sys2Proof

/-- The guard 1000 would never hold and is no encoding (R147). -/
def Guard.wf (g : Guard) : Bool := !(g.neg && g.p == 0)

/-- The format code of R161. -/
def Fmt.code : Fmt → Nat
  | .i8 => 0x00 | .z8 => 0x01 | .i16 => 0x02 | .z16 => 0x03
  | .i32 => 0x04 | .z32 => 0x05 | .i64 => 0x06 | .z64 => 0x07
  | .f64 => 0x08 | .f32 => 0x09 | .f16 => 0x0A | .bf16 => 0x0B
  | .e4m3 => 0x0C | .e5m2 => 0x0D | .acc => 0x0E
  | .b8 p u x => 0x20 + 4 * p.val + (if u then 2 else 0) + (if x then 1 else 0)

/-- The format that a code names; none for a reserved code (R161). -/
def Fmt.ofCode? (n : Nat) : Option Fmt :=
  match n with
  | 0x00 => some .i8 | 0x01 => some .z8 | 0x02 => some .i16 | 0x03 => some .z16
  | 0x04 => some .i32 | 0x05 => some .z32 | 0x06 => some .i64 | 0x07 => some .z64
  | 0x08 => some .f64 | 0x09 => some .f32 | 0x0A => some .f16 | 0x0B => some .bf16
  | 0x0C => some .e4m3 | 0x0D => some .e5m2 | 0x0E => some .acc
  | n => if 0x20 ≤ n ∧ n ≤ 0x3B then
      some (.b8 (Fin.ofNat 7 ((n - 0x20) / 4)) (n / 2 % 2 == 1) (n % 2 == 1)) else none

/-- The floating-point formats other than `acc`: the codes that `ldq` admits (R267). -/
def Fmt.isFloat (f : Fmt) : Bool :=
  match f with
  | .i8 | .z8 | .i16 | .z16 | .i32 | .z32 | .i64 | .z64 | .acc => false
  | .f64 | .f32 | .f16 | .bf16 | .e4m3 | .e5m2 | .b8 _ _ _ => true

/-- A conversion specification is valid (R217): no reserved field set, RM at most 4, and two formats that are
neither reserved nor `acc`. -/
def fcvtSpecValid (v : BitVec 32) : Bool :=
  let n := v.toNat
  n / 2 ^ 20 == 0 && n / 2 ^ 14 % 4 == 0 && n / 2 ^ 6 % 4 == 0 && n / 2 ^ 16 % 8 < 5 &&
  (match Fmt.ofCode? (n / 2 ^ 8 % 64) with | some .acc => false | some _ => true | none => false) &&
  (match Fmt.ofCode? (n % 64) with | some .acc => false | some _ => true | none => false)

/-- `wsr` takes the special registers that R347 does not call read-only. -/
def SReg.writable : SReg → Bool
  | .ctxl1Limit | .codeGranules | .feLimit | .barLimit | .noHoldPriority
  | .holdLimit0 | .holdLimit1 | .holdLimit2 | .holdLimit3 => true
  | .coreId | .clusterId | .dieId | .ctxva | .cycle | .capbase | .controlRight
  | .slottab0 | .slottab1 => false

def Rm.code : Rm → Nat | .rne => 0 | .rtz => 1 | .rup => 2 | .rdn => 3 | .rsto => 4
def Space.code : Space → Nat | .g => 0 | .l => 1 | .t => 2
def Cond.code : Cond → Nat
  | .eq => 0 | .ne => 1 | .lt => 2 | .ge => 3 | .le => 4 | .gt => 5 | .ltu => 6 | .geu => 7 | .leu => 8 | .gtu => 9

/-- The instruction is the term of some encoding. Every device step is well-formed; it has no encoding. -/
def wellFormed : Instr → Bool
  | .add g _ _ _ _ _ _ => g.wf
  | .addRL g _ _ _ _ _ _ => g.wf
  | .addRK g _ _ _ _ => g.wf
  | .addRI g _ _ _ => g.wf
  | .sub g _ _ _ _ _ _ => g.wf
  | .subRL g _ _ _ _ _ _ => g.wf
  | .subRK g _ _ _ _ => g.wf
  | .subRI g _ _ _ => g.wf
  | .mul g _ _ _ _ _ => g.wf
  | .mulRL g _ _ _ _ _ => g.wf
  | .mulRK g _ _ _ _ => g.wf
  | .mulRI g _ _ _ => g.wf
  | .mulh g _ _ _ _ _ => g.wf
  | .mulhRL g _ _ _ _ _ => g.wf
  | .mulhRK g _ _ _ _ => g.wf
  | .mulhRI g _ _ _ => g.wf
  | .mulhu g _ _ _ _ _ => g.wf
  | .mulhuRL g _ _ _ _ _ => g.wf
  | .mulhuRK g _ _ _ _ => g.wf
  | .mulhuRI g _ _ _ => g.wf
  | .div g _ _ _ _ _ => g.wf
  | .divRL g _ _ _ _ _ => g.wf
  | .divRK g _ _ _ _ => g.wf
  | .divRI g _ _ _ => g.wf
  | .divu g _ _ _ _ _ => g.wf
  | .divuRL g _ _ _ _ _ => g.wf
  | .divuRK g _ _ _ _ => g.wf
  | .divuRI g _ _ _ => g.wf
  | .rem g _ _ _ _ _ => g.wf
  | .remRL g _ _ _ _ _ => g.wf
  | .remRK g _ _ _ _ => g.wf
  | .remRI g _ _ _ => g.wf
  | .remu g _ _ _ _ _ => g.wf
  | .remuRL g _ _ _ _ _ => g.wf
  | .remuRK g _ _ _ _ => g.wf
  | .remuRI g _ _ _ => g.wf
  | .and g _ _ _ _ _ => g.wf
  | .andRL g _ _ _ _ _ => g.wf
  | .andRK g _ _ _ _ => g.wf
  | .andRI g _ _ _ => g.wf
  | .or g _ _ _ _ _ => g.wf
  | .orRL g _ _ _ _ _ => g.wf
  | .orRK g _ _ _ _ => g.wf
  | .orRI g _ _ _ => g.wf
  | .xor g _ _ _ _ _ => g.wf
  | .xorRL g _ _ _ _ _ => g.wf
  | .xorRK g _ _ _ _ => g.wf
  | .xorRI g _ _ _ => g.wf
  | .andn g _ _ _ _ _ => g.wf
  | .andnRL g _ _ _ _ _ => g.wf
  | .andnRK g _ _ _ _ => g.wf
  | .andnRI g _ _ _ => g.wf
  | .orn g _ _ _ _ _ => g.wf
  | .ornRL g _ _ _ _ _ => g.wf
  | .ornRK g _ _ _ _ => g.wf
  | .ornRI g _ _ _ => g.wf
  | .shl g _ _ _ _ _ => g.wf
  | .shlRL g _ _ _ _ _ => g.wf
  | .shlRK g _ _ _ _ => g.wf
  | .shlRI g _ _ _ => g.wf
  | .shr g _ _ _ _ _ => g.wf
  | .shrRL g _ _ _ _ _ => g.wf
  | .shrRK g _ _ _ _ => g.wf
  | .shrRI g _ _ _ => g.wf
  | .sar g _ _ _ _ _ => g.wf
  | .sarRL g _ _ _ _ _ => g.wf
  | .sarRK g _ _ _ _ => g.wf
  | .sarRI g _ _ _ => g.wf
  | .rol g _ _ _ _ _ => g.wf
  | .rolRL g _ _ _ _ _ => g.wf
  | .rolRK g _ _ _ _ => g.wf
  | .rolRI g _ _ _ => g.wf
  | .ror g _ _ _ _ _ => g.wf
  | .rorRL g _ _ _ _ _ => g.wf
  | .rorRK g _ _ _ _ => g.wf
  | .rorRI g _ _ _ => g.wf
  | .min g _ _ _ _ _ => g.wf
  | .minRL g _ _ _ _ _ => g.wf
  | .minRK g _ _ _ _ => g.wf
  | .minRI g _ _ _ => g.wf
  | .max g _ _ _ _ _ => g.wf
  | .maxRL g _ _ _ _ _ => g.wf
  | .maxRK g _ _ _ _ => g.wf
  | .maxRI g _ _ _ => g.wf
  | .minu g _ _ _ _ _ => g.wf
  | .minuRL g _ _ _ _ _ => g.wf
  | .minuRK g _ _ _ _ => g.wf
  | .minuRI g _ _ _ => g.wf
  | .maxu g _ _ _ _ _ => g.wf
  | .maxuRL g _ _ _ _ _ => g.wf
  | .maxuRK g _ _ _ _ => g.wf
  | .maxuRI g _ _ _ => g.wf
  | .abs g _ _ _ _ _ => g.wf
  | .clz g _ _ _ => g.wf
  | .ctz g _ _ _ => g.wf
  | .popc g _ _ _ => g.wf
  | .bswap g _ _ _ w => g.wf && w != .w8
  | .brev g _ _ _ _ => g.wf
  | .sext g _ _ w => g.wf && w != .w64
  | .zext g _ _ w => g.wf && w != .w64
  | .ext g _ _ _ => g.wf
  | .extRL g _ _ _ => g.wf
  | .extRK g _ _ _ => g.wf
  | .extRI g _ _ _ => g.wf
  | .ins g _ _ _ => g.wf
  | .insRL g _ _ _ => g.wf
  | .insRK g _ _ _ => g.wf
  | .insRI g _ _ _ => g.wf
  | .cmp g _ _ _ _ _ _ => g.wf
  | .cmpRL g _ _ _ _ _ _ => g.wf
  | .cmpRK g _ _ n _ => g.wf && Cond.code n < 4
  | .cmpRI g _ _ _ => g.wf
  | .tst g _ _ _ _ _ => g.wf
  | .tstRL g _ _ _ _ _ => g.wf
  | .tstRK g _ _ _ _ _ => g.wf
  | .tstRI g _ _ _ => g.wf
  | .sel g _ _ _ _ _ => g.wf
  | .selRL g _ _ _ _ _ => g.wf
  | .mov g _ _ _ => g.wf
  | .movRL g _ _ _ => g.wf
  | .movRK g _ _ _ => g.wf
  | .movRI g _ _ => g.wf
  | .movi g _ _ => g.wf
  | .movh g _ _ => g.wf
  | .pset g _ _ _ _ => g.wf
  | .rdp g _ => g.wf
  | .wrp g _ _ => g.wf
  | .wrpRL g _ _ => g.wf
  | .vadd g _ _ _ _ _ _ => g.wf
  | .vaddRL g _ _ _ _ _ _ => g.wf
  | .vaddRK g _ _ _ _ => g.wf
  | .vsub g _ _ _ _ _ _ => g.wf
  | .vsubRL g _ _ _ _ _ _ => g.wf
  | .vsubRK g _ _ _ _ => g.wf
  | .vmul g _ _ _ _ _ _ => g.wf
  | .vmulRL g _ _ _ _ _ _ => g.wf
  | .vmulRK g _ _ _ _ => g.wf
  | .vmin g _ _ _ _ _ => g.wf
  | .vminRL g _ _ _ _ _ => g.wf
  | .vminRK g _ _ _ _ => g.wf
  | .vmax g _ _ _ _ _ => g.wf
  | .vmaxRL g _ _ _ _ _ => g.wf
  | .vmaxRK g _ _ _ _ => g.wf
  | .vavg g _ _ _ _ _ => g.wf
  | .vavgRL g _ _ _ _ _ => g.wf
  | .vavgRK g _ _ _ _ => g.wf
  | .vabsd g _ _ _ _ _ => g.wf
  | .vabsdRL g _ _ _ _ _ => g.wf
  | .vabsdRK g _ _ _ _ => g.wf
  | .vdot g _ _ _ _ _ _ => g.wf
  | .vdotRL g _ _ _ _ _ _ => g.wf
  | .vdotRK g _ _ _ _ _ => g.wf
  | .vsum g _ _ _ _ => g.wf
  | .vsplat g _ _ _ => g.wf
  | .vshf g _ _ _ _ => g.wf
  | .vshfRL g _ _ _ _ => g.wf
  | .vpack g _ _ _ _ _ l => g.wf && l != .l8
  | .vpackRL g _ _ _ _ l _ => g.wf && l != .l8
  | .vcmp g _ _ _ _ _ _ => g.wf
  | .vcmpRL g _ _ _ _ _ _ => g.wf
  | .vcmpRK g _ _ _ _ => g.wf
  | .vsel g _ _ _ _ => g.wf
  | .vselRL g _ _ _ _ => g.wf
  | .vselRK g _ _ _ _ => g.wf
  | .rand g _ _ _ _ => g.wf
  | .randRL g _ _ _ _ => g.wf
  | .randRK g _ _ _ _ => g.wf
  | .randRI g _ _ _ => g.wf
  | .randf g _ _ _ _ => g.wf
  | .randfRL g _ _ _ _ => g.wf
  | .randfRK g _ _ _ _ => g.wf
  | .randfRI g _ _ _ => g.wf
  | .fadd g _ _ _ r _ => g.wf && r != .rsto
  | .faddRL g _ _ r _ _ => g.wf && r != .rsto
  | .faddRK g _ _ _ _ => g.wf
  | .fsub g _ _ _ r _ => g.wf && r != .rsto
  | .fsubRL g _ _ r _ _ => g.wf && r != .rsto
  | .fsubRK g _ _ _ _ => g.wf
  | .fmul g _ _ _ r _ => g.wf && r != .rsto
  | .fmulRL g _ _ r _ _ => g.wf && r != .rsto
  | .fmulRK g _ _ _ _ => g.wf
  | .fdiv g _ _ _ r _ => g.wf && r != .rsto
  | .fdivRL g _ _ r _ _ => g.wf && r != .rsto
  | .fdivRK g _ _ _ _ => g.wf
  | .fma g _ _ _ _ r _ => g.wf && r != .rsto
  | .fmaRL g _ _ _ r _ _ => g.wf && r != .rsto
  | .fmaRK g _ _ _ _ _ => g.wf
  | .fsqrt g _ _ r _ => g.wf && r != .rsto
  | .fmin g _ _ _ _ => g.wf
  | .fminRL g _ _ _ _ => g.wf
  | .fminRK g _ _ _ _ => g.wf
  | .fmax g _ _ _ _ => g.wf
  | .fmaxRL g _ _ _ _ => g.wf
  | .fmaxRK g _ _ _ _ => g.wf
  | .fabs g _ _ _ => g.wf
  | .fneg g _ _ _ => g.wf
  | .fcmp g _ _ _ _ _ => g.wf
  | .fcmpRL g _ _ _ _ _ => g.wf
  | .fcmpRK g _ _ _ _ => g.wf
  | .fclass g _ _ _ => g.wf
  | .fcvt g _ _ _ _ => g.wf
  | .fcvtRL g _ _ _ lit => g.wf && fcvtSpecValid lit
  | .fcvtRK g _ _ _ _ => g.wf
  | .fround g _ _ r _ => g.wf && r != .rsto
  | .vfma g _ _ _ _ r f => g.wf && f != .f64 && r != .rsto
  | .vfmaRL g _ _ _ r f _ => g.wf && f != .f64 && r != .rsto
  | .vfmaRK g _ _ _ f _ => g.wf && f != .f64
  | .xcvt g _ a => g.wf && a.val % 2 == 0
  | .tdesc g _ _ _ _ => g.wf
  | .tdescRL g _ _ _ _ => g.wf
  | .tdescRK g _ _ pf _ => g.wf && pf.val < 4
  | .tdescRI g _ _ _ => g.wf
  | .tfree g _ => g.wf
  | .tinfo g _ _ _ => g.wf
  | .tinfoRI g _ _ _ => g.wf
  | .tadd g _ _ _ c r _ => g.wf && (r == .rsto || c == 0)
  | .tsub g _ _ _ c r _ => g.wf && (r == .rsto || c == 0)
  | .tmul g _ _ _ c r _ => g.wf && (r == .rsto || c == 0)
  | .tmax g _ _ _ c r _ => g.wf && (r == .rsto || c == 0)
  | .tmin g _ _ _ c r _ => g.wf && (r == .rsto || c == 0)
  | .tfma g _ _ _ _ r _ => g.wf && r != .rsto
  | .tscale g _ _ b _ r _ => g.wf && (r == .rsto || b == 0)
  | .tscaleRL g _ _ b r _ _ => g.wf && (r == .rsto || b == 0)
  | .tscaleRK g _ _ b r _ _ => g.wf && b == 0 && Rm.code r < 2
  | .tcvt g _ _ b r _ => g.wf && (r == .rsto || b == 0)
  | .tredmax g _ _ _ _ r => g.wf && r != .rsto
  | .tredsum g _ _ _ r => g.wf && r != .rsto
  | .ttrans g _ _ r _ => g.wf && r != .rsto
  | .tfill g _ _ _ r _ => g.wf && r != .rsto
  | .tfillRL g _ _ r _ _ => g.wf && r != .rsto
  | .tfillRK g _ r _ _ => g.wf && r != .rsto && Rm.code r < 2
  | .tget g _ _ _ => g.wf
  | .tgetRL g _ _ _ => g.wf
  | .tgetRK g _ _ _ => g.wf
  | .tgetRI g _ _ _ => g.wf
  | .tset g _ _ _ => g.wf
  | .tsetRL g _ _ _ => g.wf
  | .tsetRK g _ _ _ => g.wf
  | .tsetRI g _ _ _ => g.wf
  | .mxm g _ _ _ _ _ _ => g.wf
  | .mxmRL g _ _ _ _ _ _ => g.wf
  | .mxmRK g _ _ _ _ _ _ => g.wf
  | .mxmz g _ _ _ _ _ _ => g.wf
  | .mxmzRL g _ _ _ _ _ _ => g.wf
  | .mxmzRK g _ _ _ _ _ _ => g.wf
  | .mxflush g _ _ => g.wf
  | .mxnorm g _ _ _ => g.wf
  | .mxnormRL g _ _ _ => g.wf
  | .mxexp g _ _ _ => g.wf
  | .ld g _ _ _ _ _ z w => g.wf && (!z || w != .w64)
  | .ldRL g _ _ _ _ z w _ => g.wf && (!z || w != .w64)
  | .ldRK g _ _ _ _ => g.wf
  | .ldRI g _ _ _ => g.wf
  | .st g _ _ _ _ _ _ => g.wf
  | .stRL g _ _ _ _ _ _ => g.wf
  | .stRK g _ _ _ _ => g.wf
  | .stRI g _ _ _ => g.wf
  | .ld2 g d _ _ _ _ => g.wf && d.val % 2 == 0
  | .ld2RL g d _ _ _ _ => g.wf && d.val % 2 == 0
  | .ld2RK g d _ _ => g.wf && d.val % 2 == 0
  | .ld2RI g d _ _ => g.wf && d.val % 2 == 0
  | .st2 g d _ _ _ _ => g.wf && d.val % 2 == 0
  | .st2RL g d _ _ _ _ => g.wf && d.val % 2 == 0
  | .st2RK g d _ _ => g.wf && d.val % 2 == 0
  | .st2RI g d _ _ => g.wf && d.val % 2 == 0
  | .ldq g _ _ _ _ _ f => g.wf && f.isFloat
  | .ldqRL g _ _ _ _ f _ => g.wf && f.isFloat
  | .ldb g _ _ _ _ _ z w => g.wf && (!z || w != .w64)
  | .ldbRL g _ _ _ _ z w _ => g.wf && (!z || w != .w64)
  | .ldbRK g _ _ _ _ _ => g.wf
  | .ldfe g _ _ _ _ _ => g.wf
  | .ldfeRL g _ _ _ _ _ => g.wf
  | .ldfeRK g _ _ _ _ => g.wf
  | .ldfeRI g _ _ _ => g.wf
  | .stfe g _ _ _ _ => g.wf
  | .stfeRL g _ _ _ _ => g.wf
  | .stfeRK g _ _ _ _ => g.wf
  | .stfeRI g _ _ _ => g.wf
  | .feset g _ _ _ _ => g.wf
  | .fesetRL g _ _ _ _ => g.wf
  | .fesetRK g _ _ _ => g.wf
  | .fesetRI g _ _ => g.wf
  | .pref g _ _ _ => g.wf
  | .prefRL g _ _ _ => g.wf
  | .prefRK g _ _ _ => g.wf
  | .prefRI g _ _ => g.wf
  | .cwb g _ _ => g.wf
  | .cwbRL g _ _ => g.wf
  | .cwbRK g _ _ => g.wf
  | .cwbRI g _ _ => g.wf
  | .cinv g _ _ => g.wf
  | .cinvRL g _ _ => g.wf
  | .cinvRK g _ _ => g.wf
  | .cinvRI g _ _ => g.wf
  | .aadd g _ _ _ _ _ => g.wf
  | .aaddRL g _ _ _ _ _ => g.wf
  | .aand g _ _ _ _ _ => g.wf
  | .aandRL g _ _ _ _ _ => g.wf
  | .aor g _ _ _ _ _ => g.wf
  | .aorRL g _ _ _ _ _ => g.wf
  | .axor g _ _ _ _ _ => g.wf
  | .axorRL g _ _ _ _ _ => g.wf
  | .amin g _ _ _ _ _ => g.wf
  | .aminRL g _ _ _ _ _ => g.wf
  | .amax g _ _ _ _ _ => g.wf
  | .amaxRL g _ _ _ _ _ => g.wf
  | .aminu g _ _ _ _ _ => g.wf
  | .aminuRL g _ _ _ _ _ => g.wf
  | .amaxu g _ _ _ _ _ => g.wf
  | .amaxuRL g _ _ _ _ _ => g.wf
  | .aswp g _ _ _ _ _ => g.wf
  | .aswpRL g _ _ _ _ _ => g.wf
  | .acas g d _ b c _ w => g.wf && (w != .w128 || (d.val % 2 == 0 && b.val % 2 == 0 && c.val % 2 == 0))
  | .acasRL g _ _ _ _ w _ => g.wf && w != .w128
  | .afadd g _ _ _ _ _ => g.wf
  | .afaddRL g _ _ _ _ _ => g.wf
  | .axadd g d _ _ _ _ => g.wf && d.val % 2 == 0
  | .axaddRL g d _ _ _ _ => g.wf && d.val % 2 == 0
  | .fence g _ => g.wf
  | .bara g _ _ _ => g.wf
  | .baraRL g _ _ _ => g.wf
  | .barc g _ _ _ => g.wf
  | .barcRL g _ _ _ => g.wf
  | .swait g _ _ _ => g.wf
  | .swaitRL g _ _ _ => g.wf
  | .swaitRK g _ _ _ => g.wf
  | .swaitRI g _ _ _ => g.wf
  | .sarm g _ _ b c _ f _ => g.wf && (!f || (b == 0 && c == 0))
  | .sarmRL g _ _ b _ f _ _ => g.wf && (!f || b == 0)
  | .cpy g _ _ _ _ _ => g.wf
  | .cpyRL g _ _ _ _ _ => g.wf
  | .cpy2 g _ _ _ _ _ => g.wf
  | .cpy2RL g _ _ _ _ _ => g.wf
  | .cpyg g _ _ _ c _ => g.wf && c.val % 2 == 0
  | .tload g _ _ b c s _ => g.wf && (!s || (b == 0 && c == 0))
  | .tloadRL g _ _ b s _ _ => g.wf && (!s || b == 0)
  | .tstore g _ _ _ _ _ => g.wf
  | .tstoreRL g _ _ _ _ _ => g.wf
  | .jpoll g _ _ _ => g.wf
  | .jwait g _ _ => g.wf
  | .jcancel g _ _ => g.wf
  | .b g _ => g.wf
  | .call g _ => g.wf
  | .dbnz g _ _ => g.wf
  | .jmp g _ => g.wf
  | .jmpRL g _ => g.wf
  | .callr g _ => g.wf
  | .callrRL g _ => g.wf
  | .ret g _ => g.wf
  | .spawn g _ _ _ _ _ _ => g.wf
  | .spawnRL g _ _ _ _ _ _ => g.wf
  | .launch g _ _ _ _ => g.wf
  | .launchRL g _ _ _ _ => g.wf
  | .qpush g _ _ _ _ => g.wf
  | .qpushRL g _ _ _ _ => g.wf
  | .qpop g _ _ _ => g.wf
  | .done g => g.wf
  | .waitc g => g.wf
  | .yield g => g.wf
  | .halt g a r => g.wf && (r || a == 0)
  | .sleep g _ => g.wf
  | .sleepRL g _ => g.wf
  | .prio g _ _ => g.wf
  | .prioRL g _ _ => g.wf
  | .rsr g _ _ => g.wf
  | .wsr g _ n => g.wf && n.writable
  | .wsrRL g n _ => g.wf && n.writable
  | .trap g _ => g.wf
  | .trapRL g _ => g.wf
  | .wake g _ => g.wf
  | .kill g _ _ => g.wf
  | .resume g _ _ => g.wf
  | .slotw g _ _ => g.wf
  | .slotwRL g _ _ => g.wf
  | .plbi g _ _ => g.wf
  | .plbiRL g _ _ => g.wf
  | .tlbi g _ => g.wf
  | .tlbiRL g _ => g.wf
  | .pmig g _ _ _ _ => g.wf
  | .pmigRL g _ _ _ _ => g.wf
  | .ovl g _ _ => g.wf
  | .ovlq g _ _ => g.wf
  | .ovlqRL g _ _ => g.wf
  | .fmai _ _ _ => true
  | .registerWrite _ => true
  | .launchQueueTailWrite _ => true
  | .launchRecordDiscard _ => true
  | .chunkRequest _ => true
  | .chunkGrant _ => true
  | .readyEntryAging _ _ => true
  | .dispatchOffer _ => true
  | .contextClaim _ => true
  | .claimLost _ => true
  | .contextFill _ => true
  | .contextEviction _ _ => true
  | .contextWritebackPerformed _ _ => true
  | .contextWritebackRetry _ => true
  | .claimPageFaultReoffer _ _ => true
  | .stealRequest _ => true
  | .stealServe _ => true
  | .dequeSiblingSteal _ => true
  | .gangReserve _ => true
  | .issueCycle _ => true
  | .contextMessageApply _ => true
  | .joinMessage _ => true
  | .wakeMessage _ => true
  | .nackMessage _ => true
  | .killAtHome _ => true
  | .resumeAtHome _ => true
  | .sleepWake _ => true
  | .pageFaultTimedWake _ => true
  | .faultRecordAppend _ => true
  | .handlerWakeRetry _ => true
  | .errorLogAppend _ => true
  | .elogLostClear _ => true
  | .plbRefill _ => true
  | .plbiCoreInvalidate _ _ => true
  | .translationLookup _ => true
  | .pfqMessageAccept _ _ => true
  | .pfqHeadWrite _ => true
  | .tlbiBrickInvalidate _ _ => true
  | .migrationRound _ => true
  | .migrationFreeze _ => true
  | .migrationFreezeAbandon _ => true
  | .partRectWrite _ => true
  | .clmTspBankAccess _ => true
  | .feWaitTimeout _ _ => true
  | .feNoentRetry _ => true
  | .barWaitTimeout _ _ => true
  | .storeBufferAccept _ => true
  | .fenceProbe _ => true
  | .probeEcho _ => true
  | .readRequest _ => true
  | .subscribeRequest _ => true
  | .precisionChange _ => true
  | .storeRequest _ => true
  | .homeAtomic _ => true
  | .writeBack _ => true
  | .dropNotice _ => true
  | .snoopShare _ => true
  | .snoopInvalidate _ => true
  | .update _ => true
  | .homeEntryLeaseExpiry _ => true
  | .heldWriteLeaseExpiry _ => true
  | .combineEntryClose _ => true
  | .hostCxlMemRead _ => true
  | .hostCxlMemWrite _ _ => true
  | .hostSnoop _ _ => true
  | .pcieCompletion _ _ => true
  | .pcieCompletionTimeout _ => true
  | .talakGet _ _ _ => true
  | .talakGetLease _ _ => true
  | .talakRenew _ _ _ => true
  | .talakPut _ _ _ => true
  | .talakAtomic _ _ _ _ _ _ => true
  | .talakAck _ => true
  | .talakNack _ _ => true
  | .overlayLoadComplete _ _ => true
  | .overlayLoadFail _ _ => true
  | .jobSubmission _ => true
  | .jobStart _ => true
  | .copyLineWrite _ _ => true
  | .tileRefreshStart _ => true
  | .tileRefreshComplete _ _ => true
  | .tileRefreshFail _ _ => true
  | .tileZeroingComplete _ _ => true
  | .tileOpArrival _ => true
  | .tileOpExecute _ => true
  | .tdescDiscardNotice _ => true
  | .geyserAdmission _ => true
  | .geyserHoldExpire _ _ => true
  | .geyserRetryReissue _ => true
  | .engineSelect _ => true
  | .stackFire _ => true
  | .engineNormOp _ => true
  | .ctCommit _ => true
  | .circuitTuningComplete => true
  | .circuitTuneTimeout _ => true
  | .brickQuiesce _ => true
  | .brickQuiesceComplete => true
  | .brickLinkTrained => true
  | .attGo _ => true
  | .attestationComplete => true
  | .coldBoot => true
  | .recoveryImageWrite _ => true
  | .ucieRetrainFail _ _ => true
  | .eccError _ => true
  | .thermalThrottle _ _ _ => true
  | .talakReply _ _ => true
  | .talakFlitCrcRetry _ => true
  | .ucieLinkRetraining _ _ => true
  | .backInvalidateResponse _ _ => true
  | .cxlCacheGrant _ _ _ => true

/-- The rows without an encoding: steps that the device takes by itself or for an agent outside it. -/
def isDeviceStep : Instr → Bool
  | .add _ _ _ _ _ _ _ => false
  | .addRL _ _ _ _ _ _ _ => false
  | .addRK _ _ _ _ _ => false
  | .addRI _ _ _ _ => false
  | .sub _ _ _ _ _ _ _ => false
  | .subRL _ _ _ _ _ _ _ => false
  | .subRK _ _ _ _ _ => false
  | .subRI _ _ _ _ => false
  | .mul _ _ _ _ _ _ => false
  | .mulRL _ _ _ _ _ _ => false
  | .mulRK _ _ _ _ _ => false
  | .mulRI _ _ _ _ => false
  | .mulh _ _ _ _ _ _ => false
  | .mulhRL _ _ _ _ _ _ => false
  | .mulhRK _ _ _ _ _ => false
  | .mulhRI _ _ _ _ => false
  | .mulhu _ _ _ _ _ _ => false
  | .mulhuRL _ _ _ _ _ _ => false
  | .mulhuRK _ _ _ _ _ => false
  | .mulhuRI _ _ _ _ => false
  | .div _ _ _ _ _ _ => false
  | .divRL _ _ _ _ _ _ => false
  | .divRK _ _ _ _ _ => false
  | .divRI _ _ _ _ => false
  | .divu _ _ _ _ _ _ => false
  | .divuRL _ _ _ _ _ _ => false
  | .divuRK _ _ _ _ _ => false
  | .divuRI _ _ _ _ => false
  | .rem _ _ _ _ _ _ => false
  | .remRL _ _ _ _ _ _ => false
  | .remRK _ _ _ _ _ => false
  | .remRI _ _ _ _ => false
  | .remu _ _ _ _ _ _ => false
  | .remuRL _ _ _ _ _ _ => false
  | .remuRK _ _ _ _ _ => false
  | .remuRI _ _ _ _ => false
  | .and _ _ _ _ _ _ => false
  | .andRL _ _ _ _ _ _ => false
  | .andRK _ _ _ _ _ => false
  | .andRI _ _ _ _ => false
  | .or _ _ _ _ _ _ => false
  | .orRL _ _ _ _ _ _ => false
  | .orRK _ _ _ _ _ => false
  | .orRI _ _ _ _ => false
  | .xor _ _ _ _ _ _ => false
  | .xorRL _ _ _ _ _ _ => false
  | .xorRK _ _ _ _ _ => false
  | .xorRI _ _ _ _ => false
  | .andn _ _ _ _ _ _ => false
  | .andnRL _ _ _ _ _ _ => false
  | .andnRK _ _ _ _ _ => false
  | .andnRI _ _ _ _ => false
  | .orn _ _ _ _ _ _ => false
  | .ornRL _ _ _ _ _ _ => false
  | .ornRK _ _ _ _ _ => false
  | .ornRI _ _ _ _ => false
  | .shl _ _ _ _ _ _ => false
  | .shlRL _ _ _ _ _ _ => false
  | .shlRK _ _ _ _ _ => false
  | .shlRI _ _ _ _ => false
  | .shr _ _ _ _ _ _ => false
  | .shrRL _ _ _ _ _ _ => false
  | .shrRK _ _ _ _ _ => false
  | .shrRI _ _ _ _ => false
  | .sar _ _ _ _ _ _ => false
  | .sarRL _ _ _ _ _ _ => false
  | .sarRK _ _ _ _ _ => false
  | .sarRI _ _ _ _ => false
  | .rol _ _ _ _ _ _ => false
  | .rolRL _ _ _ _ _ _ => false
  | .rolRK _ _ _ _ _ => false
  | .rolRI _ _ _ _ => false
  | .ror _ _ _ _ _ _ => false
  | .rorRL _ _ _ _ _ _ => false
  | .rorRK _ _ _ _ _ => false
  | .rorRI _ _ _ _ => false
  | .min _ _ _ _ _ _ => false
  | .minRL _ _ _ _ _ _ => false
  | .minRK _ _ _ _ _ => false
  | .minRI _ _ _ _ => false
  | .max _ _ _ _ _ _ => false
  | .maxRL _ _ _ _ _ _ => false
  | .maxRK _ _ _ _ _ => false
  | .maxRI _ _ _ _ => false
  | .minu _ _ _ _ _ _ => false
  | .minuRL _ _ _ _ _ _ => false
  | .minuRK _ _ _ _ _ => false
  | .minuRI _ _ _ _ => false
  | .maxu _ _ _ _ _ _ => false
  | .maxuRL _ _ _ _ _ _ => false
  | .maxuRK _ _ _ _ _ => false
  | .maxuRI _ _ _ _ => false
  | .abs _ _ _ _ _ _ => false
  | .clz _ _ _ _ => false
  | .ctz _ _ _ _ => false
  | .popc _ _ _ _ => false
  | .bswap _ _ _ _ _ => false
  | .brev _ _ _ _ _ => false
  | .sext _ _ _ _ => false
  | .zext _ _ _ _ => false
  | .ext _ _ _ _ => false
  | .extRL _ _ _ _ => false
  | .extRK _ _ _ _ => false
  | .extRI _ _ _ _ => false
  | .ins _ _ _ _ => false
  | .insRL _ _ _ _ => false
  | .insRK _ _ _ _ => false
  | .insRI _ _ _ _ => false
  | .cmp _ _ _ _ _ _ _ => false
  | .cmpRL _ _ _ _ _ _ _ => false
  | .cmpRK _ _ _ _ _ => false
  | .cmpRI _ _ _ _ => false
  | .tst _ _ _ _ _ _ => false
  | .tstRL _ _ _ _ _ _ => false
  | .tstRK _ _ _ _ _ _ => false
  | .tstRI _ _ _ _ => false
  | .sel _ _ _ _ _ _ => false
  | .selRL _ _ _ _ _ _ => false
  | .mov _ _ _ _ => false
  | .movRL _ _ _ _ => false
  | .movRK _ _ _ _ => false
  | .movRI _ _ _ => false
  | .movi _ _ _ => false
  | .movh _ _ _ => false
  | .pset _ _ _ _ _ => false
  | .rdp _ _ => false
  | .wrp _ _ _ => false
  | .wrpRL _ _ _ => false
  | .vadd _ _ _ _ _ _ _ => false
  | .vaddRL _ _ _ _ _ _ _ => false
  | .vaddRK _ _ _ _ _ => false
  | .vsub _ _ _ _ _ _ _ => false
  | .vsubRL _ _ _ _ _ _ _ => false
  | .vsubRK _ _ _ _ _ => false
  | .vmul _ _ _ _ _ _ _ => false
  | .vmulRL _ _ _ _ _ _ _ => false
  | .vmulRK _ _ _ _ _ => false
  | .vmin _ _ _ _ _ _ => false
  | .vminRL _ _ _ _ _ _ => false
  | .vminRK _ _ _ _ _ => false
  | .vmax _ _ _ _ _ _ => false
  | .vmaxRL _ _ _ _ _ _ => false
  | .vmaxRK _ _ _ _ _ => false
  | .vavg _ _ _ _ _ _ => false
  | .vavgRL _ _ _ _ _ _ => false
  | .vavgRK _ _ _ _ _ => false
  | .vabsd _ _ _ _ _ _ => false
  | .vabsdRL _ _ _ _ _ _ => false
  | .vabsdRK _ _ _ _ _ => false
  | .vdot _ _ _ _ _ _ _ => false
  | .vdotRL _ _ _ _ _ _ _ => false
  | .vdotRK _ _ _ _ _ _ => false
  | .vsum _ _ _ _ _ => false
  | .vsplat _ _ _ _ => false
  | .vshf _ _ _ _ _ => false
  | .vshfRL _ _ _ _ _ => false
  | .vpack _ _ _ _ _ _ _ => false
  | .vpackRL _ _ _ _ _ _ _ => false
  | .vcmp _ _ _ _ _ _ _ => false
  | .vcmpRL _ _ _ _ _ _ _ => false
  | .vcmpRK _ _ _ _ _ => false
  | .vsel _ _ _ _ _ => false
  | .vselRL _ _ _ _ _ => false
  | .vselRK _ _ _ _ _ => false
  | .rand _ _ _ _ _ => false
  | .randRL _ _ _ _ _ => false
  | .randRK _ _ _ _ _ => false
  | .randRI _ _ _ _ => false
  | .randf _ _ _ _ _ => false
  | .randfRL _ _ _ _ _ => false
  | .randfRK _ _ _ _ _ => false
  | .randfRI _ _ _ _ => false
  | .fadd _ _ _ _ _ _ => false
  | .faddRL _ _ _ _ _ _ => false
  | .faddRK _ _ _ _ _ => false
  | .fsub _ _ _ _ _ _ => false
  | .fsubRL _ _ _ _ _ _ => false
  | .fsubRK _ _ _ _ _ => false
  | .fmul _ _ _ _ _ _ => false
  | .fmulRL _ _ _ _ _ _ => false
  | .fmulRK _ _ _ _ _ => false
  | .fdiv _ _ _ _ _ _ => false
  | .fdivRL _ _ _ _ _ _ => false
  | .fdivRK _ _ _ _ _ => false
  | .fma _ _ _ _ _ _ _ => false
  | .fmaRL _ _ _ _ _ _ _ => false
  | .fmaRK _ _ _ _ _ _ => false
  | .fsqrt _ _ _ _ _ => false
  | .fmin _ _ _ _ _ => false
  | .fminRL _ _ _ _ _ => false
  | .fminRK _ _ _ _ _ => false
  | .fmax _ _ _ _ _ => false
  | .fmaxRL _ _ _ _ _ => false
  | .fmaxRK _ _ _ _ _ => false
  | .fabs _ _ _ _ => false
  | .fneg _ _ _ _ => false
  | .fcmp _ _ _ _ _ _ => false
  | .fcmpRL _ _ _ _ _ _ => false
  | .fcmpRK _ _ _ _ _ => false
  | .fclass _ _ _ _ => false
  | .fcvt _ _ _ _ _ => false
  | .fcvtRL _ _ _ _ _ => false
  | .fcvtRK _ _ _ _ _ => false
  | .fround _ _ _ _ _ => false
  | .vfma _ _ _ _ _ _ _ => false
  | .vfmaRL _ _ _ _ _ _ _ => false
  | .vfmaRK _ _ _ _ _ _ => false
  | .xcvt _ _ _ => false
  | .tdesc _ _ _ _ _ => false
  | .tdescRL _ _ _ _ _ => false
  | .tdescRK _ _ _ _ _ => false
  | .tdescRI _ _ _ _ => false
  | .tfree _ _ => false
  | .tinfo _ _ _ _ => false
  | .tinfoRI _ _ _ _ => false
  | .tadd _ _ _ _ _ _ _ => false
  | .tsub _ _ _ _ _ _ _ => false
  | .tmul _ _ _ _ _ _ _ => false
  | .tmax _ _ _ _ _ _ _ => false
  | .tmin _ _ _ _ _ _ _ => false
  | .tfma _ _ _ _ _ _ _ => false
  | .tscale _ _ _ _ _ _ _ => false
  | .tscaleRL _ _ _ _ _ _ _ => false
  | .tscaleRK _ _ _ _ _ _ _ => false
  | .tcvt _ _ _ _ _ _ => false
  | .tredmax _ _ _ _ _ _ => false
  | .tredsum _ _ _ _ _ => false
  | .ttrans _ _ _ _ _ => false
  | .tfill _ _ _ _ _ _ => false
  | .tfillRL _ _ _ _ _ _ => false
  | .tfillRK _ _ _ _ _ => false
  | .tget _ _ _ _ => false
  | .tgetRL _ _ _ _ => false
  | .tgetRK _ _ _ _ => false
  | .tgetRI _ _ _ _ => false
  | .tset _ _ _ _ => false
  | .tsetRL _ _ _ _ => false
  | .tsetRK _ _ _ _ => false
  | .tsetRI _ _ _ _ => false
  | .mxm _ _ _ _ _ _ _ => false
  | .mxmRL _ _ _ _ _ _ _ => false
  | .mxmRK _ _ _ _ _ _ _ => false
  | .mxmz _ _ _ _ _ _ _ => false
  | .mxmzRL _ _ _ _ _ _ _ => false
  | .mxmzRK _ _ _ _ _ _ _ => false
  | .mxflush _ _ _ => false
  | .mxnorm _ _ _ _ => false
  | .mxnormRL _ _ _ _ => false
  | .mxexp _ _ _ _ => false
  | .ld _ _ _ _ _ _ _ _ => false
  | .ldRL _ _ _ _ _ _ _ _ => false
  | .ldRK _ _ _ _ _ => false
  | .ldRI _ _ _ _ => false
  | .st _ _ _ _ _ _ _ => false
  | .stRL _ _ _ _ _ _ _ => false
  | .stRK _ _ _ _ _ => false
  | .stRI _ _ _ _ => false
  | .ld2 _ _ _ _ _ _ => false
  | .ld2RL _ _ _ _ _ _ => false
  | .ld2RK _ _ _ _ => false
  | .ld2RI _ _ _ _ => false
  | .st2 _ _ _ _ _ _ => false
  | .st2RL _ _ _ _ _ _ => false
  | .st2RK _ _ _ _ => false
  | .st2RI _ _ _ _ => false
  | .ldq _ _ _ _ _ _ _ => false
  | .ldqRL _ _ _ _ _ _ _ => false
  | .ldb _ _ _ _ _ _ _ _ => false
  | .ldbRL _ _ _ _ _ _ _ _ => false
  | .ldbRK _ _ _ _ _ _ => false
  | .ldfe _ _ _ _ _ _ => false
  | .ldfeRL _ _ _ _ _ _ => false
  | .ldfeRK _ _ _ _ _ => false
  | .ldfeRI _ _ _ _ => false
  | .stfe _ _ _ _ _ => false
  | .stfeRL _ _ _ _ _ => false
  | .stfeRK _ _ _ _ _ => false
  | .stfeRI _ _ _ _ => false
  | .feset _ _ _ _ _ => false
  | .fesetRL _ _ _ _ _ => false
  | .fesetRK _ _ _ _ => false
  | .fesetRI _ _ _ => false
  | .pref _ _ _ _ => false
  | .prefRL _ _ _ _ => false
  | .prefRK _ _ _ _ => false
  | .prefRI _ _ _ => false
  | .cwb _ _ _ => false
  | .cwbRL _ _ _ => false
  | .cwbRK _ _ _ => false
  | .cwbRI _ _ _ => false
  | .cinv _ _ _ => false
  | .cinvRL _ _ _ => false
  | .cinvRK _ _ _ => false
  | .cinvRI _ _ _ => false
  | .aadd _ _ _ _ _ _ => false
  | .aaddRL _ _ _ _ _ _ => false
  | .aand _ _ _ _ _ _ => false
  | .aandRL _ _ _ _ _ _ => false
  | .aor _ _ _ _ _ _ => false
  | .aorRL _ _ _ _ _ _ => false
  | .axor _ _ _ _ _ _ => false
  | .axorRL _ _ _ _ _ _ => false
  | .amin _ _ _ _ _ _ => false
  | .aminRL _ _ _ _ _ _ => false
  | .amax _ _ _ _ _ _ => false
  | .amaxRL _ _ _ _ _ _ => false
  | .aminu _ _ _ _ _ _ => false
  | .aminuRL _ _ _ _ _ _ => false
  | .amaxu _ _ _ _ _ _ => false
  | .amaxuRL _ _ _ _ _ _ => false
  | .aswp _ _ _ _ _ _ => false
  | .aswpRL _ _ _ _ _ _ => false
  | .acas _ _ _ _ _ _ _ => false
  | .acasRL _ _ _ _ _ _ _ => false
  | .afadd _ _ _ _ _ _ => false
  | .afaddRL _ _ _ _ _ _ => false
  | .axadd _ _ _ _ _ _ => false
  | .axaddRL _ _ _ _ _ _ => false
  | .fence _ _ => false
  | .bara _ _ _ _ => false
  | .baraRL _ _ _ _ => false
  | .barc _ _ _ _ => false
  | .barcRL _ _ _ _ => false
  | .swait _ _ _ _ => false
  | .swaitRL _ _ _ _ => false
  | .swaitRK _ _ _ _ => false
  | .swaitRI _ _ _ _ => false
  | .sarm _ _ _ _ _ _ _ _ => false
  | .sarmRL _ _ _ _ _ _ _ _ => false
  | .cpy _ _ _ _ _ _ => false
  | .cpyRL _ _ _ _ _ _ => false
  | .cpy2 _ _ _ _ _ _ => false
  | .cpy2RL _ _ _ _ _ _ => false
  | .cpyg _ _ _ _ _ _ => false
  | .tload _ _ _ _ _ _ _ => false
  | .tloadRL _ _ _ _ _ _ _ => false
  | .tstore _ _ _ _ _ _ => false
  | .tstoreRL _ _ _ _ _ _ => false
  | .jpoll _ _ _ _ => false
  | .jwait _ _ _ => false
  | .jcancel _ _ _ => false
  | .b _ _ => false
  | .call _ _ => false
  | .dbnz _ _ _ => false
  | .jmp _ _ => false
  | .jmpRL _ _ => false
  | .callr _ _ => false
  | .callrRL _ _ => false
  | .ret _ _ => false
  | .spawn _ _ _ _ _ _ _ => false
  | .spawnRL _ _ _ _ _ _ _ => false
  | .launch _ _ _ _ _ => false
  | .launchRL _ _ _ _ _ => false
  | .qpush _ _ _ _ _ => false
  | .qpushRL _ _ _ _ _ => false
  | .qpop _ _ _ _ => false
  | .done _ => false
  | .waitc _ => false
  | .yield _ => false
  | .halt _ _ _ => false
  | .sleep _ _ => false
  | .sleepRL _ _ => false
  | .prio _ _ _ => false
  | .prioRL _ _ _ => false
  | .rsr _ _ _ => false
  | .wsr _ _ _ => false
  | .wsrRL _ _ _ => false
  | .trap _ _ => false
  | .trapRL _ _ => false
  | .wake _ _ => false
  | .kill _ _ _ => false
  | .resume _ _ _ => false
  | .slotw _ _ _ => false
  | .slotwRL _ _ _ => false
  | .plbi _ _ _ => false
  | .plbiRL _ _ _ => false
  | .tlbi _ _ => false
  | .tlbiRL _ _ => false
  | .pmig _ _ _ _ _ => false
  | .pmigRL _ _ _ _ _ => false
  | .ovl _ _ _ => false
  | .ovlq _ _ _ => false
  | .ovlqRL _ _ _ => false
  | .fmai _ _ _ => false
  | .registerWrite _ => true
  | .launchQueueTailWrite _ => true
  | .launchRecordDiscard _ => true
  | .chunkRequest _ => true
  | .chunkGrant _ => true
  | .readyEntryAging _ _ => true
  | .dispatchOffer _ => true
  | .contextClaim _ => true
  | .claimLost _ => true
  | .contextFill _ => true
  | .contextEviction _ _ => true
  | .contextWritebackPerformed _ _ => true
  | .contextWritebackRetry _ => true
  | .claimPageFaultReoffer _ _ => true
  | .stealRequest _ => true
  | .stealServe _ => true
  | .dequeSiblingSteal _ => true
  | .gangReserve _ => true
  | .issueCycle _ => true
  | .contextMessageApply _ => true
  | .joinMessage _ => true
  | .wakeMessage _ => true
  | .nackMessage _ => true
  | .killAtHome _ => true
  | .resumeAtHome _ => true
  | .sleepWake _ => true
  | .pageFaultTimedWake _ => true
  | .faultRecordAppend _ => true
  | .handlerWakeRetry _ => true
  | .errorLogAppend _ => true
  | .elogLostClear _ => true
  | .plbRefill _ => true
  | .plbiCoreInvalidate _ _ => true
  | .translationLookup _ => true
  | .pfqMessageAccept _ _ => true
  | .pfqHeadWrite _ => true
  | .tlbiBrickInvalidate _ _ => true
  | .migrationRound _ => true
  | .migrationFreeze _ => true
  | .migrationFreezeAbandon _ => true
  | .partRectWrite _ => true
  | .clmTspBankAccess _ => true
  | .feWaitTimeout _ _ => true
  | .feNoentRetry _ => true
  | .barWaitTimeout _ _ => true
  | .storeBufferAccept _ => true
  | .fenceProbe _ => true
  | .probeEcho _ => true
  | .readRequest _ => true
  | .subscribeRequest _ => true
  | .precisionChange _ => true
  | .storeRequest _ => true
  | .homeAtomic _ => true
  | .writeBack _ => true
  | .dropNotice _ => true
  | .snoopShare _ => true
  | .snoopInvalidate _ => true
  | .update _ => true
  | .homeEntryLeaseExpiry _ => true
  | .heldWriteLeaseExpiry _ => true
  | .combineEntryClose _ => true
  | .hostCxlMemRead _ => true
  | .hostCxlMemWrite _ _ => true
  | .hostSnoop _ _ => true
  | .pcieCompletion _ _ => true
  | .pcieCompletionTimeout _ => true
  | .talakGet _ _ _ => true
  | .talakGetLease _ _ => true
  | .talakRenew _ _ _ => true
  | .talakPut _ _ _ => true
  | .talakAtomic _ _ _ _ _ _ => true
  | .talakAck _ => true
  | .talakNack _ _ => true
  | .overlayLoadComplete _ _ => true
  | .overlayLoadFail _ _ => true
  | .jobSubmission _ => true
  | .jobStart _ => true
  | .copyLineWrite _ _ => true
  | .tileRefreshStart _ => true
  | .tileRefreshComplete _ _ => true
  | .tileRefreshFail _ _ => true
  | .tileZeroingComplete _ _ => true
  | .tileOpArrival _ => true
  | .tileOpExecute _ => true
  | .tdescDiscardNotice _ => true
  | .geyserAdmission _ => true
  | .geyserHoldExpire _ _ => true
  | .geyserRetryReissue _ => true
  | .engineSelect _ => true
  | .stackFire _ => true
  | .engineNormOp _ => true
  | .ctCommit _ => true
  | .circuitTuningComplete => true
  | .circuitTuneTimeout _ => true
  | .brickQuiesce _ => true
  | .brickQuiesceComplete => true
  | .brickLinkTrained => true
  | .attGo _ => true
  | .attestationComplete => true
  | .coldBoot => true
  | .recoveryImageWrite _ => true
  | .ucieRetrainFail _ _ => true
  | .eccError _ => true
  | .thermalThrottle _ _ _ => true
  | .talakReply _ _ => true
  | .talakFlitCrcRetry _ => true
  | .ucieLinkRetraining _ _ => true
  | .backInvalidateResponse _ _ => true
  | .cxlCacheGrant _ _ _ => true

end Sys2Proof
end

