-- ==== Sys2Proof/Decode.lean ====
section
/-!
DEFINITION. Decode.lean: reading an instruction word and its literal (R146 to R153), total on any bytes and
rejecting by name; after it the encoder, written from the same encoding tables. A word is first cut into the
fields of R146 (`Fields`), then read by its major opcode; what WellFormed refuses is refused last.
-/
namespace Sys2Proof

/-- Why a word is an illegal encoding (R153): no major (case 2), a format that the major does not admit or a selector
with no instruction (case 3), the guard 1000 (case 4), a field that must be zero (case 5), a value that no entry
assigns (case 6), an operand that its entry excludes (an odd register marked even, a key register without `.rsto`),
or too few bytes. -/
inductive DecodeError
  | noMajor | noFormat | noSelector | guardNever | mustBeZero | unassigned | operands | truncated
  deriving DecidableEq, Repr

/-- The fields of a word under R146. The constant index k of the RK row is c followed by mod[6:2]; imm13 is b, c and
mod; a BR displacement is d, a, b, c and mod. -/
structure Fields where
  major : Nat
  fmt : Nat
  g : Nat
  d : Nat
  a : Nat
  b : Nat
  c : Nat
  mod : Nat
  deriving DecidableEq, Repr

/-- Cut a word into its fields (R146). -/
def unpack (w : Nat) : Fields :=
  ⟨w / 2 ^ 25 % 128, w / 2 ^ 23 % 4, w / 2 ^ 19 % 16, w / 2 ^ 16 % 8, w / 2 ^ 13 % 8, w / 2 ^ 10 % 8,
    w / 2 ^ 7 % 8, w % 128⟩

/-- Join the fields into a word (R146). -/
def pack (f : Fields) : Nat :=
  f.major * 2 ^ 25 + f.fmt * 2 ^ 23 + f.g * 2 ^ 19 + f.d * 2 ^ 16 + f.a * 2 ^ 13 + f.b * 2 ^ 10 + f.c * 2 ^ 7 + f.mod

def Reg.ofCode (n : Nat) : Reg := Fin.ofNat 8 n
def Bool.ofCode (n : Nat) : Bool := n % 2 == 1
def Bool.toCode (b : Bool) : Nat := if b then 1 else 0

/-- The guard field (R147). -/
def Guard.ofCode (n : Nat) : Guard := ⟨n / 8 % 2 == 1, Fin.ofNat 8 n⟩
def Guard.code (g : Guard) : Nat := (if g.neg then 8 else 0) + g.p.val

def Width.ofCode : Nat → Width | 0 => .w64 | 1 => .w32 | 2 => .w16 | _ => .w8
def Width.code : Width → Nat | .w64 => 0 | .w32 => 1 | .w16 => 2 | .w8 => 3
def CarryMode.ofCode : Nat → CarryMode | 0 => .none | 1 => .co | 2 => .cio | _ => .sat
def CarryMode.code : CarryMode → Nat | .none => 0 | .co => 1 | .cio => 2 | .sat => 3
def Lane.ofCode : Nat → Lane | 0 => .l32 | 1 => .l16 | _ => .l8
def Lane.code : Lane → Nat | .l32 => 0 | .l16 => 1 | .l8 => 2
def Rm.ofCode : Nat → Rm | 0 => .rne | 1 => .rtz | 2 => .rup | 3 => .rdn | _ => .rsto
def FFmt.ofCode : Nat → FFmt | 0 => .f32 | 1 => .f64 | 2 => .f16 | _ => .bf16
def FFmt.code : FFmt → Nat | .f32 => 0 | .f64 => 1 | .f16 => 2 | .bf16 => 3
def Cond.ofCode : Nat → Cond
  | 0 => .eq | 1 => .ne | 2 => .lt | 3 => .ge | 4 => .le | 5 => .gt | 6 => .ltu | 7 => .geu | 8 => .leu | _ => .gtu
def VCond.ofCode : Nat → VCond | 0 => .eq | 1 => .ne | 2 => .lt | 3 => .ge | 4 => .le | _ => .gt
def VCond.code : VCond → Nat | .eq => 0 | .ne => 1 | .lt => 2 | .ge => 3 | .le => 4 | .gt => 5
def FCond.ofCode : Nat → FCond
  | 0 => .eq | 1 => .ne | 2 => .lt | 3 => .le | 4 => .gt | 5 => .ge | 6 => .un | _ => .or
def FCond.code : FCond → Nat
  | .eq => 0 | .ne => 1 | .lt => 2 | .le => 3 | .gt => 4 | .ge => 5 | .un => 6 | .or => 7
def PsetOp.ofCode : Nat → PsetOp
  | 0 => .and | 1 => .or | 2 => .xor | 3 => .andn | 4 => .orn | 5 => .nand | 6 => .nor | _ => .xnor
def PsetOp.code : PsetOp → Nat
  | .and => 0 | .or => 1 | .xor => 2 | .andn => 3 | .orn => 4 | .nand => 5 | .nor => 6 | .xnor => 7
/-- The scope field of loads and stores (R262). -/
def Scope.ofAccessCode : Nat → Option Scope
  | 0 => none | 1 => some .core | 2 => some .clu | 3 => some .die | 4 => some .dev | _ => some .sys
def Scope.accessCode : Option Scope → Nat
  | none => 0 | some .core => 1 | some .clu => 2 | some .die => 3 | some .dev => 4 | some .sys => 5
/-- The scope field of `fence` (R263). -/
def Scope.ofFenceCode : Nat → Scope | 0 => .sys | 1 => .core | 2 => .clu | 3 => .die | _ => .dev
def Scope.fenceCode : Scope → Nat | .sys => 0 | .core => 1 | .clu => 2 | .die => 3 | .dev => 4
def Space.ofCode : Nat → Space | 0 => .g | 1 => .l | _ => .t
def AOrd.ofCode : Nat → AOrd | 0 => .none | 1 => .acq | 2 => .rel | _ => .ar
def AOrd.code : AOrd → Nat | .none => 0 | .acq => 1 | .rel => 2 | .ar => 3
def AWidth.ofCode : Nat → AWidth | 0 => .w64 | _ => .w32
def AWidth.code : AWidth → Nat | .w64 => 0 | .w32 => 1
def CasWidth.ofCode : Nat → CasWidth | 0 => .w64 | 1 => .w32 | _ => .w128
def CasWidth.code : CasWidth → Nat | .w64 => 0 | .w32 => 1 | .w128 => 2
def AFmt.ofCode : Nat → AFmt | 0 => .f64 | _ => .f32
def AFmt.code : AFmt → Nat | .f64 => 0 | .f32 => 1
def Steal.ofCode : Nat → Steal | 0 => .core | 1 => .clu | 2 => .die | _ => .dev
def Steal.code : Steal → Nat | .core => 0 | .clu => 1 | .die => 2 | .dev => 3
/-- The format of a code that is assigned. -/
def Fmt.ofCodeD (n : Nat) : Fmt := (Fmt.ofCode? n).getD .f32
/-- The special register of a number (R347); none where the table has no row. -/
def SReg.ofCode? : Nat → Option SReg
  | 0 => some .coreId | 1 => some .clusterId | 2 => some .dieId | 3 => some .ctxva | 4 => some .cycle
  | 5 => some .capbase | 6 => some .controlRight | 8 => some .ctxl1Limit | 9 => some .codeGranules
  | 10 => some .feLimit | 11 => some .barLimit | 12 => some .noHoldPriority
  | 16 => some .holdLimit0 | 17 => some .holdLimit1 | 18 => some .holdLimit2 | 19 => some .holdLimit3
  | 20 => some .slottab0 | 21 => some .slottab1 | _ => none
def SReg.ofCodeD (n : Nat) : SReg := (SReg.ofCode? n).getD .coreId
def SReg.code : SReg → Nat
  | .coreId => 0 | .clusterId => 1 | .dieId => 2 | .ctxva => 3 | .cycle => 4 | .capbase => 5 | .controlRight => 6
  | .ctxl1Limit => 8 | .codeGranules => 9 | .feLimit => 10 | .barLimit => 11 | .noHoldPriority => 12
  | .holdLimit0 => 16 | .holdLimit1 => 17 | .holdLimit2 => 18 | .holdLimit3 => 19 | .slottab0 => 20 | .slottab1 => 21


-- Lean's runtime has no object with a constructor number above 244, so what builds an Instr is evaluated by the
-- kernel alone.
noncomputable section

/-- Major 0x01: add. -/
def decode01 (f : Fields) (lit : BitVec 32) : Except DecodeError Instr :=
  match f.fmt with
  | 0 =>
    if ¬(f.c = 0 ∧ f.mod / 32 = 0) then .error .mustBeZero else .ok (.add (Guard.ofCode f.g) (Reg.ofCode (f.d)) (Reg.ofCode (f.a)) (Reg.ofCode (f.b)) (CarryMode.ofCode (f.mod / 8 % 4)) (Bool.ofCode (f.mod / 4 % 2)) (Width.ofCode (f.mod % 4)))
  | 1 =>
    if ¬(f.b = 0 ∧ f.c = 0 ∧ f.mod / 32 = 0) then .error .mustBeZero else .ok (.addRL (Guard.ofCode f.g) (Reg.ofCode (f.d)) (Reg.ofCode (f.a)) (CarryMode.ofCode (f.mod / 8 % 4)) (Bool.ofCode (f.mod / 4 % 2)) (Width.ofCode (f.mod % 4)) lit)
  | 2 =>
    if ¬(f.b = 0) then .error .mustBeZero else .ok (.addRK (Guard.ofCode f.g) (Reg.ofCode (f.d)) (Reg.ofCode (f.a)) (Width.ofCode (f.mod % 4)) (BitVec.ofNat 8 (f.c * 32 + f.mod / 4)))
  | 3 =>
    .ok (.addRI (Guard.ofCode f.g) (Reg.ofCode (f.d)) (Reg.ofCode (f.a)) (BitVec.ofNat 13 (f.b * 1024 + f.c * 128 + f.mod)))
  | _ => .error .noFormat

/-- Major 0x02: sub. -/
def decode02 (f : Fields) (lit : BitVec 32) : Except DecodeError Instr :=
  match f.fmt with
  | 0 =>
    if ¬(f.c = 0 ∧ f.mod / 32 = 0) then .error .mustBeZero else .ok (.sub (Guard.ofCode f.g) (Reg.ofCode (f.d)) (Reg.ofCode (f.a)) (Reg.ofCode (f.b)) (CarryMode.ofCode (f.mod / 8 % 4)) (Bool.ofCode (f.mod / 4 % 2)) (Width.ofCode (f.mod % 4)))
  | 1 =>
    if ¬(f.b = 0 ∧ f.c = 0 ∧ f.mod / 32 = 0) then .error .mustBeZero else .ok (.subRL (Guard.ofCode f.g) (Reg.ofCode (f.d)) (Reg.ofCode (f.a)) (CarryMode.ofCode (f.mod / 8 % 4)) (Bool.ofCode (f.mod / 4 % 2)) (Width.ofCode (f.mod % 4)) lit)
  | 2 =>
    if ¬(f.b = 0) then .error .mustBeZero else .ok (.subRK (Guard.ofCode f.g) (Reg.ofCode (f.d)) (Reg.ofCode (f.a)) (Width.ofCode (f.mod % 4)) (BitVec.ofNat 8 (f.c * 32 + f.mod / 4)))
  | 3 =>
    .ok (.subRI (Guard.ofCode f.g) (Reg.ofCode (f.d)) (Reg.ofCode (f.a)) (BitVec.ofNat 13 (f.b * 1024 + f.c * 128 + f.mod)))
  | _ => .error .noFormat

/-- Major 0x03: mul. -/
def decode03 (f : Fields) (lit : BitVec 32) : Except DecodeError Instr :=
  match f.fmt with
  | 0 =>
    if ¬(f.c = 0 ∧ f.mod / 8 = 0) then .error .mustBeZero else .ok (.mul (Guard.ofCode f.g) (Reg.ofCode (f.d)) (Reg.ofCode (f.a)) (Reg.ofCode (f.b)) (Bool.ofCode (f.mod / 4 % 2)) (Width.ofCode (f.mod % 4)))
  | 1 =>
    if ¬(f.b = 0 ∧ f.c = 0 ∧ f.mod / 8 = 0) then .error .mustBeZero else .ok (.mulRL (Guard.ofCode f.g) (Reg.ofCode (f.d)) (Reg.ofCode (f.a)) (Bool.ofCode (f.mod / 4 % 2)) (Width.ofCode (f.mod % 4)) lit)
  | 2 =>
    if ¬(f.b = 0) then .error .mustBeZero else .ok (.mulRK (Guard.ofCode f.g) (Reg.ofCode (f.d)) (Reg.ofCode (f.a)) (Width.ofCode (f.mod % 4)) (BitVec.ofNat 8 (f.c * 32 + f.mod / 4)))
  | 3 =>
    .ok (.mulRI (Guard.ofCode f.g) (Reg.ofCode (f.d)) (Reg.ofCode (f.a)) (BitVec.ofNat 13 (f.b * 1024 + f.c * 128 + f.mod)))
  | _ => .error .noFormat

/-- Major 0x04: mulh. -/
def decode04 (f : Fields) (lit : BitVec 32) : Except DecodeError Instr :=
  match f.fmt with
  | 0 =>
    if ¬(f.c = 0 ∧ f.mod / 8 = 0) then .error .mustBeZero else .ok (.mulh (Guard.ofCode f.g) (Reg.ofCode (f.d)) (Reg.ofCode (f.a)) (Reg.ofCode (f.b)) (Bool.ofCode (f.mod / 4 % 2)) (Width.ofCode (f.mod % 4)))
  | 1 =>
    if ¬(f.b = 0 ∧ f.c = 0 ∧ f.mod / 8 = 0) then .error .mustBeZero else .ok (.mulhRL (Guard.ofCode f.g) (Reg.ofCode (f.d)) (Reg.ofCode (f.a)) (Bool.ofCode (f.mod / 4 % 2)) (Width.ofCode (f.mod % 4)) lit)
  | 2 =>
    if ¬(f.b = 0) then .error .mustBeZero else .ok (.mulhRK (Guard.ofCode f.g) (Reg.ofCode (f.d)) (Reg.ofCode (f.a)) (Width.ofCode (f.mod % 4)) (BitVec.ofNat 8 (f.c * 32 + f.mod / 4)))
  | 3 =>
    .ok (.mulhRI (Guard.ofCode f.g) (Reg.ofCode (f.d)) (Reg.ofCode (f.a)) (BitVec.ofNat 13 (f.b * 1024 + f.c * 128 + f.mod)))
  | _ => .error .noFormat

/-- Major 0x05: mulhu. -/
def decode05 (f : Fields) (lit : BitVec 32) : Except DecodeError Instr :=
  match f.fmt with
  | 0 =>
    if ¬(f.c = 0 ∧ f.mod / 8 = 0) then .error .mustBeZero else .ok (.mulhu (Guard.ofCode f.g) (Reg.ofCode (f.d)) (Reg.ofCode (f.a)) (Reg.ofCode (f.b)) (Bool.ofCode (f.mod / 4 % 2)) (Width.ofCode (f.mod % 4)))
  | 1 =>
    if ¬(f.b = 0 ∧ f.c = 0 ∧ f.mod / 8 = 0) then .error .mustBeZero else .ok (.mulhuRL (Guard.ofCode f.g) (Reg.ofCode (f.d)) (Reg.ofCode (f.a)) (Bool.ofCode (f.mod / 4 % 2)) (Width.ofCode (f.mod % 4)) lit)
  | 2 =>
    if ¬(f.b = 0) then .error .mustBeZero else .ok (.mulhuRK (Guard.ofCode f.g) (Reg.ofCode (f.d)) (Reg.ofCode (f.a)) (Width.ofCode (f.mod % 4)) (BitVec.ofNat 8 (f.c * 32 + f.mod / 4)))
  | 3 =>
    .ok (.mulhuRI (Guard.ofCode f.g) (Reg.ofCode (f.d)) (Reg.ofCode (f.a)) (BitVec.ofNat 13 (f.b * 1024 + f.c * 128 + f.mod)))
  | _ => .error .noFormat

/-- Major 0x06: div. -/
def decode06 (f : Fields) (lit : BitVec 32) : Except DecodeError Instr :=
  match f.fmt with
  | 0 =>
    if ¬(f.c = 0 ∧ f.mod / 8 = 0) then .error .mustBeZero else .ok (.div (Guard.ofCode f.g) (Reg.ofCode (f.d)) (Reg.ofCode (f.a)) (Reg.ofCode (f.b)) (Bool.ofCode (f.mod / 4 % 2)) (Width.ofCode (f.mod % 4)))
  | 1 =>
    if ¬(f.b = 0 ∧ f.c = 0 ∧ f.mod / 8 = 0) then .error .mustBeZero else .ok (.divRL (Guard.ofCode f.g) (Reg.ofCode (f.d)) (Reg.ofCode (f.a)) (Bool.ofCode (f.mod / 4 % 2)) (Width.ofCode (f.mod % 4)) lit)
  | 2 =>
    if ¬(f.b = 0) then .error .mustBeZero else .ok (.divRK (Guard.ofCode f.g) (Reg.ofCode (f.d)) (Reg.ofCode (f.a)) (Width.ofCode (f.mod % 4)) (BitVec.ofNat 8 (f.c * 32 + f.mod / 4)))
  | 3 =>
    .ok (.divRI (Guard.ofCode f.g) (Reg.ofCode (f.d)) (Reg.ofCode (f.a)) (BitVec.ofNat 13 (f.b * 1024 + f.c * 128 + f.mod)))
  | _ => .error .noFormat

/-- Major 0x07: divu. -/
def decode07 (f : Fields) (lit : BitVec 32) : Except DecodeError Instr :=
  match f.fmt with
  | 0 =>
    if ¬(f.c = 0 ∧ f.mod / 8 = 0) then .error .mustBeZero else .ok (.divu (Guard.ofCode f.g) (Reg.ofCode (f.d)) (Reg.ofCode (f.a)) (Reg.ofCode (f.b)) (Bool.ofCode (f.mod / 4 % 2)) (Width.ofCode (f.mod % 4)))
  | 1 =>
    if ¬(f.b = 0 ∧ f.c = 0 ∧ f.mod / 8 = 0) then .error .mustBeZero else .ok (.divuRL (Guard.ofCode f.g) (Reg.ofCode (f.d)) (Reg.ofCode (f.a)) (Bool.ofCode (f.mod / 4 % 2)) (Width.ofCode (f.mod % 4)) lit)
  | 2 =>
    if ¬(f.b = 0) then .error .mustBeZero else .ok (.divuRK (Guard.ofCode f.g) (Reg.ofCode (f.d)) (Reg.ofCode (f.a)) (Width.ofCode (f.mod % 4)) (BitVec.ofNat 8 (f.c * 32 + f.mod / 4)))
  | 3 =>
    .ok (.divuRI (Guard.ofCode f.g) (Reg.ofCode (f.d)) (Reg.ofCode (f.a)) (BitVec.ofNat 13 (f.b * 1024 + f.c * 128 + f.mod)))
  | _ => .error .noFormat

/-- Major 0x08: rem. -/
def decode08 (f : Fields) (lit : BitVec 32) : Except DecodeError Instr :=
  match f.fmt with
  | 0 =>
    if ¬(f.c = 0 ∧ f.mod / 8 = 0) then .error .mustBeZero else .ok (.rem (Guard.ofCode f.g) (Reg.ofCode (f.d)) (Reg.ofCode (f.a)) (Reg.ofCode (f.b)) (Bool.ofCode (f.mod / 4 % 2)) (Width.ofCode (f.mod % 4)))
  | 1 =>
    if ¬(f.b = 0 ∧ f.c = 0 ∧ f.mod / 8 = 0) then .error .mustBeZero else .ok (.remRL (Guard.ofCode f.g) (Reg.ofCode (f.d)) (Reg.ofCode (f.a)) (Bool.ofCode (f.mod / 4 % 2)) (Width.ofCode (f.mod % 4)) lit)
  | 2 =>
    if ¬(f.b = 0) then .error .mustBeZero else .ok (.remRK (Guard.ofCode f.g) (Reg.ofCode (f.d)) (Reg.ofCode (f.a)) (Width.ofCode (f.mod % 4)) (BitVec.ofNat 8 (f.c * 32 + f.mod / 4)))
  | 3 =>
    .ok (.remRI (Guard.ofCode f.g) (Reg.ofCode (f.d)) (Reg.ofCode (f.a)) (BitVec.ofNat 13 (f.b * 1024 + f.c * 128 + f.mod)))
  | _ => .error .noFormat

/-- Major 0x09: remu. -/
def decode09 (f : Fields) (lit : BitVec 32) : Except DecodeError Instr :=
  match f.fmt with
  | 0 =>
    if ¬(f.c = 0 ∧ f.mod / 8 = 0) then .error .mustBeZero else .ok (.remu (Guard.ofCode f.g) (Reg.ofCode (f.d)) (Reg.ofCode (f.a)) (Reg.ofCode (f.b)) (Bool.ofCode (f.mod / 4 % 2)) (Width.ofCode (f.mod % 4)))
  | 1 =>
    if ¬(f.b = 0 ∧ f.c = 0 ∧ f.mod / 8 = 0) then .error .mustBeZero else .ok (.remuRL (Guard.ofCode f.g) (Reg.ofCode (f.d)) (Reg.ofCode (f.a)) (Bool.ofCode (f.mod / 4 % 2)) (Width.ofCode (f.mod % 4)) lit)
  | 2 =>
    if ¬(f.b = 0) then .error .mustBeZero else .ok (.remuRK (Guard.ofCode f.g) (Reg.ofCode (f.d)) (Reg.ofCode (f.a)) (Width.ofCode (f.mod % 4)) (BitVec.ofNat 8 (f.c * 32 + f.mod / 4)))
  | 3 =>
    .ok (.remuRI (Guard.ofCode f.g) (Reg.ofCode (f.d)) (Reg.ofCode (f.a)) (BitVec.ofNat 13 (f.b * 1024 + f.c * 128 + f.mod)))
  | _ => .error .noFormat

/-- Major 0x0A: and. -/
def decode0A (f : Fields) (lit : BitVec 32) : Except DecodeError Instr :=
  match f.fmt with
  | 0 =>
    if ¬(f.c = 0 ∧ f.mod / 8 = 0) then .error .mustBeZero else .ok (.and (Guard.ofCode f.g) (Reg.ofCode (f.d)) (Reg.ofCode (f.a)) (Reg.ofCode (f.b)) (Bool.ofCode (f.mod / 4 % 2)) (Width.ofCode (f.mod % 4)))
  | 1 =>
    if ¬(f.b = 0 ∧ f.c = 0 ∧ f.mod / 8 = 0) then .error .mustBeZero else .ok (.andRL (Guard.ofCode f.g) (Reg.ofCode (f.d)) (Reg.ofCode (f.a)) (Bool.ofCode (f.mod / 4 % 2)) (Width.ofCode (f.mod % 4)) lit)
  | 2 =>
    if ¬(f.b = 0) then .error .mustBeZero else .ok (.andRK (Guard.ofCode f.g) (Reg.ofCode (f.d)) (Reg.ofCode (f.a)) (Width.ofCode (f.mod % 4)) (BitVec.ofNat 8 (f.c * 32 + f.mod / 4)))
  | 3 =>
    .ok (.andRI (Guard.ofCode f.g) (Reg.ofCode (f.d)) (Reg.ofCode (f.a)) (BitVec.ofNat 13 (f.b * 1024 + f.c * 128 + f.mod)))
  | _ => .error .noFormat

/-- Major 0x0B: or. -/
def decode0B (f : Fields) (lit : BitVec 32) : Except DecodeError Instr :=
  match f.fmt with
  | 0 =>
    if ¬(f.c = 0 ∧ f.mod / 8 = 0) then .error .mustBeZero else .ok (.or (Guard.ofCode f.g) (Reg.ofCode (f.d)) (Reg.ofCode (f.a)) (Reg.ofCode (f.b)) (Bool.ofCode (f.mod / 4 % 2)) (Width.ofCode (f.mod % 4)))
  | 1 =>
    if ¬(f.b = 0 ∧ f.c = 0 ∧ f.mod / 8 = 0) then .error .mustBeZero else .ok (.orRL (Guard.ofCode f.g) (Reg.ofCode (f.d)) (Reg.ofCode (f.a)) (Bool.ofCode (f.mod / 4 % 2)) (Width.ofCode (f.mod % 4)) lit)
  | 2 =>
    if ¬(f.b = 0) then .error .mustBeZero else .ok (.orRK (Guard.ofCode f.g) (Reg.ofCode (f.d)) (Reg.ofCode (f.a)) (Width.ofCode (f.mod % 4)) (BitVec.ofNat 8 (f.c * 32 + f.mod / 4)))
  | 3 =>
    .ok (.orRI (Guard.ofCode f.g) (Reg.ofCode (f.d)) (Reg.ofCode (f.a)) (BitVec.ofNat 13 (f.b * 1024 + f.c * 128 + f.mod)))
  | _ => .error .noFormat

/-- Major 0x0C: xor. -/
def decode0C (f : Fields) (lit : BitVec 32) : Except DecodeError Instr :=
  match f.fmt with
  | 0 =>
    if ¬(f.c = 0 ∧ f.mod / 8 = 0) then .error .mustBeZero else .ok (.xor (Guard.ofCode f.g) (Reg.ofCode (f.d)) (Reg.ofCode (f.a)) (Reg.ofCode (f.b)) (Bool.ofCode (f.mod / 4 % 2)) (Width.ofCode (f.mod % 4)))
  | 1 =>
    if ¬(f.b = 0 ∧ f.c = 0 ∧ f.mod / 8 = 0) then .error .mustBeZero else .ok (.xorRL (Guard.ofCode f.g) (Reg.ofCode (f.d)) (Reg.ofCode (f.a)) (Bool.ofCode (f.mod / 4 % 2)) (Width.ofCode (f.mod % 4)) lit)
  | 2 =>
    if ¬(f.b = 0) then .error .mustBeZero else .ok (.xorRK (Guard.ofCode f.g) (Reg.ofCode (f.d)) (Reg.ofCode (f.a)) (Width.ofCode (f.mod % 4)) (BitVec.ofNat 8 (f.c * 32 + f.mod / 4)))
  | 3 =>
    .ok (.xorRI (Guard.ofCode f.g) (Reg.ofCode (f.d)) (Reg.ofCode (f.a)) (BitVec.ofNat 13 (f.b * 1024 + f.c * 128 + f.mod)))
  | _ => .error .noFormat

/-- Major 0x0D: andn. -/
def decode0D (f : Fields) (lit : BitVec 32) : Except DecodeError Instr :=
  match f.fmt with
  | 0 =>
    if ¬(f.c = 0 ∧ f.mod / 8 = 0) then .error .mustBeZero else .ok (.andn (Guard.ofCode f.g) (Reg.ofCode (f.d)) (Reg.ofCode (f.a)) (Reg.ofCode (f.b)) (Bool.ofCode (f.mod / 4 % 2)) (Width.ofCode (f.mod % 4)))
  | 1 =>
    if ¬(f.b = 0 ∧ f.c = 0 ∧ f.mod / 8 = 0) then .error .mustBeZero else .ok (.andnRL (Guard.ofCode f.g) (Reg.ofCode (f.d)) (Reg.ofCode (f.a)) (Bool.ofCode (f.mod / 4 % 2)) (Width.ofCode (f.mod % 4)) lit)
  | 2 =>
    if ¬(f.b = 0) then .error .mustBeZero else .ok (.andnRK (Guard.ofCode f.g) (Reg.ofCode (f.d)) (Reg.ofCode (f.a)) (Width.ofCode (f.mod % 4)) (BitVec.ofNat 8 (f.c * 32 + f.mod / 4)))
  | 3 =>
    .ok (.andnRI (Guard.ofCode f.g) (Reg.ofCode (f.d)) (Reg.ofCode (f.a)) (BitVec.ofNat 13 (f.b * 1024 + f.c * 128 + f.mod)))
  | _ => .error .noFormat

/-- Major 0x0E: orn. -/
def decode0E (f : Fields) (lit : BitVec 32) : Except DecodeError Instr :=
  match f.fmt with
  | 0 =>
    if ¬(f.c = 0 ∧ f.mod / 8 = 0) then .error .mustBeZero else .ok (.orn (Guard.ofCode f.g) (Reg.ofCode (f.d)) (Reg.ofCode (f.a)) (Reg.ofCode (f.b)) (Bool.ofCode (f.mod / 4 % 2)) (Width.ofCode (f.mod % 4)))
  | 1 =>
    if ¬(f.b = 0 ∧ f.c = 0 ∧ f.mod / 8 = 0) then .error .mustBeZero else .ok (.ornRL (Guard.ofCode f.g) (Reg.ofCode (f.d)) (Reg.ofCode (f.a)) (Bool.ofCode (f.mod / 4 % 2)) (Width.ofCode (f.mod % 4)) lit)
  | 2 =>
    if ¬(f.b = 0) then .error .mustBeZero else .ok (.ornRK (Guard.ofCode f.g) (Reg.ofCode (f.d)) (Reg.ofCode (f.a)) (Width.ofCode (f.mod % 4)) (BitVec.ofNat 8 (f.c * 32 + f.mod / 4)))
  | 3 =>
    .ok (.ornRI (Guard.ofCode f.g) (Reg.ofCode (f.d)) (Reg.ofCode (f.a)) (BitVec.ofNat 13 (f.b * 1024 + f.c * 128 + f.mod)))
  | _ => .error .noFormat

/-- Major 0x0F: shl. -/
def decode0F (f : Fields) (lit : BitVec 32) : Except DecodeError Instr :=
  match f.fmt with
  | 0 =>
    if ¬(f.c = 0 ∧ f.mod / 8 = 0) then .error .mustBeZero else .ok (.shl (Guard.ofCode f.g) (Reg.ofCode (f.d)) (Reg.ofCode (f.a)) (Reg.ofCode (f.b)) (Bool.ofCode (f.mod / 4 % 2)) (Width.ofCode (f.mod % 4)))
  | 1 =>
    if ¬(f.b = 0 ∧ f.c = 0 ∧ f.mod / 8 = 0) then .error .mustBeZero else .ok (.shlRL (Guard.ofCode f.g) (Reg.ofCode (f.d)) (Reg.ofCode (f.a)) (Bool.ofCode (f.mod / 4 % 2)) (Width.ofCode (f.mod % 4)) lit)
  | 2 =>
    if ¬(f.b = 0) then .error .mustBeZero else .ok (.shlRK (Guard.ofCode f.g) (Reg.ofCode (f.d)) (Reg.ofCode (f.a)) (Width.ofCode (f.mod % 4)) (BitVec.ofNat 8 (f.c * 32 + f.mod / 4)))
  | 3 =>
    .ok (.shlRI (Guard.ofCode f.g) (Reg.ofCode (f.d)) (Reg.ofCode (f.a)) (BitVec.ofNat 13 (f.b * 1024 + f.c * 128 + f.mod)))
  | _ => .error .noFormat

/-- Major 0x10: shr. -/
def decode10 (f : Fields) (lit : BitVec 32) : Except DecodeError Instr :=
  match f.fmt with
  | 0 =>
    if ¬(f.c = 0 ∧ f.mod / 8 = 0) then .error .mustBeZero else .ok (.shr (Guard.ofCode f.g) (Reg.ofCode (f.d)) (Reg.ofCode (f.a)) (Reg.ofCode (f.b)) (Bool.ofCode (f.mod / 4 % 2)) (Width.ofCode (f.mod % 4)))
  | 1 =>
    if ¬(f.b = 0 ∧ f.c = 0 ∧ f.mod / 8 = 0) then .error .mustBeZero else .ok (.shrRL (Guard.ofCode f.g) (Reg.ofCode (f.d)) (Reg.ofCode (f.a)) (Bool.ofCode (f.mod / 4 % 2)) (Width.ofCode (f.mod % 4)) lit)
  | 2 =>
    if ¬(f.b = 0) then .error .mustBeZero else .ok (.shrRK (Guard.ofCode f.g) (Reg.ofCode (f.d)) (Reg.ofCode (f.a)) (Width.ofCode (f.mod % 4)) (BitVec.ofNat 8 (f.c * 32 + f.mod / 4)))
  | 3 =>
    .ok (.shrRI (Guard.ofCode f.g) (Reg.ofCode (f.d)) (Reg.ofCode (f.a)) (BitVec.ofNat 13 (f.b * 1024 + f.c * 128 + f.mod)))
  | _ => .error .noFormat

/-- Major 0x11: sar. -/
def decode11 (f : Fields) (lit : BitVec 32) : Except DecodeError Instr :=
  match f.fmt with
  | 0 =>
    if ¬(f.c = 0 ∧ f.mod / 8 = 0) then .error .mustBeZero else .ok (.sar (Guard.ofCode f.g) (Reg.ofCode (f.d)) (Reg.ofCode (f.a)) (Reg.ofCode (f.b)) (Bool.ofCode (f.mod / 4 % 2)) (Width.ofCode (f.mod % 4)))
  | 1 =>
    if ¬(f.b = 0 ∧ f.c = 0 ∧ f.mod / 8 = 0) then .error .mustBeZero else .ok (.sarRL (Guard.ofCode f.g) (Reg.ofCode (f.d)) (Reg.ofCode (f.a)) (Bool.ofCode (f.mod / 4 % 2)) (Width.ofCode (f.mod % 4)) lit)
  | 2 =>
    if ¬(f.b = 0) then .error .mustBeZero else .ok (.sarRK (Guard.ofCode f.g) (Reg.ofCode (f.d)) (Reg.ofCode (f.a)) (Width.ofCode (f.mod % 4)) (BitVec.ofNat 8 (f.c * 32 + f.mod / 4)))
  | 3 =>
    .ok (.sarRI (Guard.ofCode f.g) (Reg.ofCode (f.d)) (Reg.ofCode (f.a)) (BitVec.ofNat 13 (f.b * 1024 + f.c * 128 + f.mod)))
  | _ => .error .noFormat

/-- Major 0x12: rol. -/
def decode12 (f : Fields) (lit : BitVec 32) : Except DecodeError Instr :=
  match f.fmt with
  | 0 =>
    if ¬(f.c = 0 ∧ f.mod / 8 = 0) then .error .mustBeZero else .ok (.rol (Guard.ofCode f.g) (Reg.ofCode (f.d)) (Reg.ofCode (f.a)) (Reg.ofCode (f.b)) (Bool.ofCode (f.mod / 4 % 2)) (Width.ofCode (f.mod % 4)))
  | 1 =>
    if ¬(f.b = 0 ∧ f.c = 0 ∧ f.mod / 8 = 0) then .error .mustBeZero else .ok (.rolRL (Guard.ofCode f.g) (Reg.ofCode (f.d)) (Reg.ofCode (f.a)) (Bool.ofCode (f.mod / 4 % 2)) (Width.ofCode (f.mod % 4)) lit)
  | 2 =>
    if ¬(f.b = 0) then .error .mustBeZero else .ok (.rolRK (Guard.ofCode f.g) (Reg.ofCode (f.d)) (Reg.ofCode (f.a)) (Width.ofCode (f.mod % 4)) (BitVec.ofNat 8 (f.c * 32 + f.mod / 4)))
  | 3 =>
    .ok (.rolRI (Guard.ofCode f.g) (Reg.ofCode (f.d)) (Reg.ofCode (f.a)) (BitVec.ofNat 13 (f.b * 1024 + f.c * 128 + f.mod)))
  | _ => .error .noFormat

/-- Major 0x13: ror. -/
def decode13 (f : Fields) (lit : BitVec 32) : Except DecodeError Instr :=
  match f.fmt with
  | 0 =>
    if ¬(f.c = 0 ∧ f.mod / 8 = 0) then .error .mustBeZero else .ok (.ror (Guard.ofCode f.g) (Reg.ofCode (f.d)) (Reg.ofCode (f.a)) (Reg.ofCode (f.b)) (Bool.ofCode (f.mod / 4 % 2)) (Width.ofCode (f.mod % 4)))
  | 1 =>
    if ¬(f.b = 0 ∧ f.c = 0 ∧ f.mod / 8 = 0) then .error .mustBeZero else .ok (.rorRL (Guard.ofCode f.g) (Reg.ofCode (f.d)) (Reg.ofCode (f.a)) (Bool.ofCode (f.mod / 4 % 2)) (Width.ofCode (f.mod % 4)) lit)
  | 2 =>
    if ¬(f.b = 0) then .error .mustBeZero else .ok (.rorRK (Guard.ofCode f.g) (Reg.ofCode (f.d)) (Reg.ofCode (f.a)) (Width.ofCode (f.mod % 4)) (BitVec.ofNat 8 (f.c * 32 + f.mod / 4)))
  | 3 =>
    .ok (.rorRI (Guard.ofCode f.g) (Reg.ofCode (f.d)) (Reg.ofCode (f.a)) (BitVec.ofNat 13 (f.b * 1024 + f.c * 128 + f.mod)))
  | _ => .error .noFormat

/-- Major 0x14: min. -/
def decode14 (f : Fields) (lit : BitVec 32) : Except DecodeError Instr :=
  match f.fmt with
  | 0 =>
    if ¬(f.c = 0 ∧ f.mod / 8 = 0) then .error .mustBeZero else .ok (.min (Guard.ofCode f.g) (Reg.ofCode (f.d)) (Reg.ofCode (f.a)) (Reg.ofCode (f.b)) (Bool.ofCode (f.mod / 4 % 2)) (Width.ofCode (f.mod % 4)))
  | 1 =>
    if ¬(f.b = 0 ∧ f.c = 0 ∧ f.mod / 8 = 0) then .error .mustBeZero else .ok (.minRL (Guard.ofCode f.g) (Reg.ofCode (f.d)) (Reg.ofCode (f.a)) (Bool.ofCode (f.mod / 4 % 2)) (Width.ofCode (f.mod % 4)) lit)
  | 2 =>
    if ¬(f.b = 0) then .error .mustBeZero else .ok (.minRK (Guard.ofCode f.g) (Reg.ofCode (f.d)) (Reg.ofCode (f.a)) (Width.ofCode (f.mod % 4)) (BitVec.ofNat 8 (f.c * 32 + f.mod / 4)))
  | 3 =>
    .ok (.minRI (Guard.ofCode f.g) (Reg.ofCode (f.d)) (Reg.ofCode (f.a)) (BitVec.ofNat 13 (f.b * 1024 + f.c * 128 + f.mod)))
  | _ => .error .noFormat

/-- Major 0x15: max. -/
def decode15 (f : Fields) (lit : BitVec 32) : Except DecodeError Instr :=
  match f.fmt with
  | 0 =>
    if ¬(f.c = 0 ∧ f.mod / 8 = 0) then .error .mustBeZero else .ok (.max (Guard.ofCode f.g) (Reg.ofCode (f.d)) (Reg.ofCode (f.a)) (Reg.ofCode (f.b)) (Bool.ofCode (f.mod / 4 % 2)) (Width.ofCode (f.mod % 4)))
  | 1 =>
    if ¬(f.b = 0 ∧ f.c = 0 ∧ f.mod / 8 = 0) then .error .mustBeZero else .ok (.maxRL (Guard.ofCode f.g) (Reg.ofCode (f.d)) (Reg.ofCode (f.a)) (Bool.ofCode (f.mod / 4 % 2)) (Width.ofCode (f.mod % 4)) lit)
  | 2 =>
    if ¬(f.b = 0) then .error .mustBeZero else .ok (.maxRK (Guard.ofCode f.g) (Reg.ofCode (f.d)) (Reg.ofCode (f.a)) (Width.ofCode (f.mod % 4)) (BitVec.ofNat 8 (f.c * 32 + f.mod / 4)))
  | 3 =>
    .ok (.maxRI (Guard.ofCode f.g) (Reg.ofCode (f.d)) (Reg.ofCode (f.a)) (BitVec.ofNat 13 (f.b * 1024 + f.c * 128 + f.mod)))
  | _ => .error .noFormat

/-- Major 0x16: minu. -/
def decode16 (f : Fields) (lit : BitVec 32) : Except DecodeError Instr :=
  match f.fmt with
  | 0 =>
    if ¬(f.c = 0 ∧ f.mod / 8 = 0) then .error .mustBeZero else .ok (.minu (Guard.ofCode f.g) (Reg.ofCode (f.d)) (Reg.ofCode (f.a)) (Reg.ofCode (f.b)) (Bool.ofCode (f.mod / 4 % 2)) (Width.ofCode (f.mod % 4)))
  | 1 =>
    if ¬(f.b = 0 ∧ f.c = 0 ∧ f.mod / 8 = 0) then .error .mustBeZero else .ok (.minuRL (Guard.ofCode f.g) (Reg.ofCode (f.d)) (Reg.ofCode (f.a)) (Bool.ofCode (f.mod / 4 % 2)) (Width.ofCode (f.mod % 4)) lit)
  | 2 =>
    if ¬(f.b = 0) then .error .mustBeZero else .ok (.minuRK (Guard.ofCode f.g) (Reg.ofCode (f.d)) (Reg.ofCode (f.a)) (Width.ofCode (f.mod % 4)) (BitVec.ofNat 8 (f.c * 32 + f.mod / 4)))
  | 3 =>
    .ok (.minuRI (Guard.ofCode f.g) (Reg.ofCode (f.d)) (Reg.ofCode (f.a)) (BitVec.ofNat 13 (f.b * 1024 + f.c * 128 + f.mod)))
  | _ => .error .noFormat

/-- Major 0x17: maxu. -/
def decode17 (f : Fields) (lit : BitVec 32) : Except DecodeError Instr :=
  match f.fmt with
  | 0 =>
    if ¬(f.c = 0 ∧ f.mod / 8 = 0) then .error .mustBeZero else .ok (.maxu (Guard.ofCode f.g) (Reg.ofCode (f.d)) (Reg.ofCode (f.a)) (Reg.ofCode (f.b)) (Bool.ofCode (f.mod / 4 % 2)) (Width.ofCode (f.mod % 4)))
  | 1 =>
    if ¬(f.b = 0 ∧ f.c = 0 ∧ f.mod / 8 = 0) then .error .mustBeZero else .ok (.maxuRL (Guard.ofCode f.g) (Reg.ofCode (f.d)) (Reg.ofCode (f.a)) (Bool.ofCode (f.mod / 4 % 2)) (Width.ofCode (f.mod % 4)) lit)
  | 2 =>
    if ¬(f.b = 0) then .error .mustBeZero else .ok (.maxuRK (Guard.ofCode f.g) (Reg.ofCode (f.d)) (Reg.ofCode (f.a)) (Width.ofCode (f.mod % 4)) (BitVec.ofNat 8 (f.c * 32 + f.mod / 4)))
  | 3 =>
    .ok (.maxuRI (Guard.ofCode f.g) (Reg.ofCode (f.d)) (Reg.ofCode (f.a)) (BitVec.ofNat 13 (f.b * 1024 + f.c * 128 + f.mod)))
  | _ => .error .noFormat

/-- Major 0x18: abs, clz, ctz, popc, bswap, brev, sext, zext. -/
def decode18 (f : Fields) (_lit : BitVec 32) : Except DecodeError Instr :=
  match f.fmt with
  | 0 =>
    match f.b with
    | 0 =>
      if ¬(f.c = 0 ∧ f.mod / 16 = 0) then .error .mustBeZero else .ok (.abs (Guard.ofCode f.g) (Reg.ofCode (f.d)) (Reg.ofCode (f.a)) (Bool.ofCode (f.mod / 8 % 2)) (Bool.ofCode (f.mod / 4 % 2)) (Width.ofCode (f.mod % 4)))
    | 1 =>
      if ¬(f.c = 0 ∧ f.mod / 4 = 0) then .error .mustBeZero else .ok (.clz (Guard.ofCode f.g) (Reg.ofCode (f.d)) (Reg.ofCode (f.a)) (Width.ofCode (f.mod % 4)))
    | 2 =>
      if ¬(f.c = 0 ∧ f.mod / 4 = 0) then .error .mustBeZero else .ok (.ctz (Guard.ofCode f.g) (Reg.ofCode (f.d)) (Reg.ofCode (f.a)) (Width.ofCode (f.mod % 4)))
    | 3 =>
      if ¬(f.c = 0 ∧ f.mod / 4 = 0) then .error .mustBeZero else .ok (.popc (Guard.ofCode f.g) (Reg.ofCode (f.d)) (Reg.ofCode (f.a)) (Width.ofCode (f.mod % 4)))
    | 4 =>
      if ¬(f.c = 0 ∧ f.mod / 8 = 0) then .error .mustBeZero else .ok (.bswap (Guard.ofCode f.g) (Reg.ofCode (f.d)) (Reg.ofCode (f.a)) (Bool.ofCode (f.mod / 4 % 2)) (Width.ofCode (f.mod % 4)))
    | 5 =>
      if ¬(f.c = 0 ∧ f.mod / 8 = 0) then .error .mustBeZero else .ok (.brev (Guard.ofCode f.g) (Reg.ofCode (f.d)) (Reg.ofCode (f.a)) (Bool.ofCode (f.mod / 4 % 2)) (Width.ofCode (f.mod % 4)))
    | 6 =>
      if ¬(f.c = 0 ∧ f.mod / 4 = 0) then .error .mustBeZero else .ok (.sext (Guard.ofCode f.g) (Reg.ofCode (f.d)) (Reg.ofCode (f.a)) (Width.ofCode (f.mod % 4)))
    | 7 =>
      if ¬(f.c = 0 ∧ f.mod / 4 = 0) then .error .mustBeZero else .ok (.zext (Guard.ofCode f.g) (Reg.ofCode (f.d)) (Reg.ofCode (f.a)) (Width.ofCode (f.mod % 4)))
    | _ => .error .noSelector
  | _ => .error .noFormat

/-- Major 0x19: ext. -/
def decode19 (f : Fields) (lit : BitVec 32) : Except DecodeError Instr :=
  match f.fmt with
  | 0 =>
    if ¬(f.c = 0 ∧ f.mod = 0) then .error .mustBeZero else .ok (.ext (Guard.ofCode f.g) (Reg.ofCode (f.d)) (Reg.ofCode (f.a)) (Reg.ofCode (f.b)))
  | 1 =>
    if ¬(f.b = 0 ∧ f.c = 0 ∧ f.mod = 0) then .error .mustBeZero else .ok (.extRL (Guard.ofCode f.g) (Reg.ofCode (f.d)) (Reg.ofCode (f.a)) lit)
  | 2 =>
    if ¬(f.b = 0 ∧ f.mod % 4 = 0) then .error .mustBeZero else .ok (.extRK (Guard.ofCode f.g) (Reg.ofCode (f.d)) (Reg.ofCode (f.a)) (BitVec.ofNat 8 (f.c * 32 + f.mod / 4)))
  | 3 =>
    .ok (.extRI (Guard.ofCode f.g) (Reg.ofCode (f.d)) (Reg.ofCode (f.a)) (BitVec.ofNat 13 (f.b * 1024 + f.c * 128 + f.mod)))
  | _ => .error .noFormat

/-- Major 0x1A: ins. -/
def decode1A (f : Fields) (lit : BitVec 32) : Except DecodeError Instr :=
  match f.fmt with
  | 0 =>
    if ¬(f.c = 0 ∧ f.mod = 0) then .error .mustBeZero else .ok (.ins (Guard.ofCode f.g) (Reg.ofCode (f.d)) (Reg.ofCode (f.a)) (Reg.ofCode (f.b)))
  | 1 =>
    if ¬(f.b = 0 ∧ f.c = 0 ∧ f.mod = 0) then .error .mustBeZero else .ok (.insRL (Guard.ofCode f.g) (Reg.ofCode (f.d)) (Reg.ofCode (f.a)) lit)
  | 2 =>
    if ¬(f.b = 0 ∧ f.mod % 4 = 0) then .error .mustBeZero else .ok (.insRK (Guard.ofCode f.g) (Reg.ofCode (f.d)) (Reg.ofCode (f.a)) (BitVec.ofNat 8 (f.c * 32 + f.mod / 4)))
  | 3 =>
    .ok (.insRI (Guard.ofCode f.g) (Reg.ofCode (f.d)) (Reg.ofCode (f.a)) (BitVec.ofNat 13 (f.b * 1024 + f.c * 128 + f.mod)))
  | _ => .error .noFormat

/-- Major 0x1B: cmp. -/
def decode1B (f : Fields) (lit : BitVec 32) : Except DecodeError Instr :=
  match f.fmt with
  | 0 =>
    if ¬(f.c = 0) then .error .mustBeZero else if ¬(f.mod % 16 < 10) then .error .unassigned else .ok (.cmp (Guard.ofCode f.g) (Reg.ofCode (f.d)) (Reg.ofCode (f.a)) (Reg.ofCode (f.b)) (Bool.ofCode (f.mod / 64)) (Width.ofCode (f.mod / 16 % 4)) (Cond.ofCode (f.mod % 16)))
  | 1 =>
    if ¬(f.b = 0 ∧ f.c = 0) then .error .mustBeZero else if ¬(f.mod % 16 < 10) then .error .unassigned else .ok (.cmpRL (Guard.ofCode f.g) (Reg.ofCode (f.d)) (Reg.ofCode (f.a)) (Bool.ofCode (f.mod / 64)) (Width.ofCode (f.mod / 16 % 4)) (Cond.ofCode (f.mod % 16)) lit)
  | 2 =>
    if ¬(f.b = 0) then .error .mustBeZero else .ok (.cmpRK (Guard.ofCode f.g) (Reg.ofCode (f.d)) (Reg.ofCode (f.a)) (Cond.ofCode (f.mod % 4)) (BitVec.ofNat 8 (f.c * 32 + f.mod / 4)))
  | 3 =>
    .ok (.cmpRI (Guard.ofCode f.g) (Reg.ofCode (f.d)) (Reg.ofCode (f.a)) (BitVec.ofNat 13 (f.b * 1024 + f.c * 128 + f.mod)))
  | _ => .error .noFormat

/-- Major 0x1C: tst. -/
def decode1C (f : Fields) (lit : BitVec 32) : Except DecodeError Instr :=
  match f.fmt with
  | 0 =>
    if ¬(f.c = 0 ∧ f.mod / 4 = 0) then .error .mustBeZero else .ok (.tst (Guard.ofCode f.g) (Reg.ofCode (f.d)) (Reg.ofCode (f.a)) (Reg.ofCode (f.b)) (Bool.ofCode (f.mod / 2 % 2)) (Bool.ofCode (f.mod % 2)))
  | 1 =>
    if ¬(f.b = 0 ∧ f.c = 0 ∧ f.mod / 4 = 0) then .error .mustBeZero else .ok (.tstRL (Guard.ofCode f.g) (Reg.ofCode (f.d)) (Reg.ofCode (f.a)) (Bool.ofCode (f.mod / 2 % 2)) (Bool.ofCode (f.mod % 2)) lit)
  | 2 =>
    if ¬(f.b = 0) then .error .mustBeZero else .ok (.tstRK (Guard.ofCode f.g) (Reg.ofCode (f.d)) (Reg.ofCode (f.a)) (Bool.ofCode (f.mod / 2 % 2)) (Bool.ofCode (f.mod % 2)) (BitVec.ofNat 8 (f.c * 32 + f.mod / 4)))
  | 3 =>
    .ok (.tstRI (Guard.ofCode f.g) (Reg.ofCode (f.d)) (Reg.ofCode (f.a)) (BitVec.ofNat 13 (f.b * 1024 + f.c * 128 + f.mod)))
  | _ => .error .noFormat

/-- Major 0x1D: sel. -/
def decode1D (f : Fields) (lit : BitVec 32) : Except DecodeError Instr :=
  match f.fmt with
  | 0 =>
    if ¬(f.mod / 2 = 0) then .error .mustBeZero else .ok (.sel (Guard.ofCode f.g) (Reg.ofCode (f.d)) (Reg.ofCode (f.a)) (Reg.ofCode (f.b)) (Reg.ofCode (f.c)) (Bool.ofCode (f.mod % 2)))
  | 1 =>
    if ¬(f.b = 0 ∧ f.mod / 2 = 0) then .error .mustBeZero else .ok (.selRL (Guard.ofCode f.g) (Reg.ofCode (f.d)) (Reg.ofCode (f.a)) (Reg.ofCode (f.c)) (Bool.ofCode (f.mod % 2)) lit)
  | _ => .error .noFormat

/-- Major 0x1E: mov. -/
def decode1E (f : Fields) (lit : BitVec 32) : Except DecodeError Instr :=
  match f.fmt with
  | 0 =>
    if ¬(f.a = 0 ∧ f.c = 0 ∧ f.mod / 2 = 0) then .error .mustBeZero else .ok (.mov (Guard.ofCode f.g) (Reg.ofCode (f.d)) (Reg.ofCode (f.b)) (Bool.ofCode (f.mod % 2)))
  | 1 =>
    if ¬(f.a = 0 ∧ f.b = 0 ∧ f.c = 0 ∧ f.mod / 2 = 0) then .error .mustBeZero else .ok (.movRL (Guard.ofCode f.g) (Reg.ofCode (f.d)) (Bool.ofCode (f.mod % 2)) lit)
  | 2 =>
    if ¬(f.a = 0 ∧ f.b = 0 ∧ f.mod / 2 % 2 = 0) then .error .mustBeZero else .ok (.movRK (Guard.ofCode f.g) (Reg.ofCode (f.d)) (Bool.ofCode (f.mod % 2)) (BitVec.ofNat 8 (f.c * 32 + f.mod / 4)))
  | 3 =>
    if ¬(f.a = 0) then .error .mustBeZero else .ok (.movRI (Guard.ofCode f.g) (Reg.ofCode (f.d)) (BitVec.ofNat 13 (f.b * 1024 + f.c * 128 + f.mod)))
  | _ => .error .noFormat

/-- Major 0x1F: movi, movh. -/
def decode1F (f : Fields) (_lit : BitVec 32) : Except DecodeError Instr :=
  match f.fmt with
  | 3 =>
    match f.a with
    | 0 =>
      .ok (.movi (Guard.ofCode f.g) (Reg.ofCode (f.d)) (BitVec.ofNat 13 (f.b * 1024 + f.c * 128 + f.mod)))
    | 1 =>
      .ok (.movh (Guard.ofCode f.g) (Reg.ofCode (f.d)) (BitVec.ofNat 13 (f.b * 1024 + f.c * 128 + f.mod)))
    | _ => .error .noSelector
  | _ => .error .noFormat

/-- Major 0x20: vadd. -/
def decode20 (f : Fields) (lit : BitVec 32) : Except DecodeError Instr :=
  match f.fmt with
  | 0 =>
    if ¬(f.c = 0 ∧ f.mod / 16 = 0) then .error .mustBeZero else if ¬(f.mod % 4 < 3) then .error .unassigned else .ok (.vadd (Guard.ofCode f.g) (Reg.ofCode (f.d)) (Reg.ofCode (f.a)) (Reg.ofCode (f.b)) (Bool.ofCode (f.mod / 8 % 2)) (Bool.ofCode (f.mod / 4 % 2)) (Lane.ofCode (f.mod % 4)))
  | 1 =>
    if ¬(f.b = 0 ∧ f.c = 0 ∧ f.mod / 16 = 0) then .error .mustBeZero else if ¬(f.mod % 4 < 3) then .error .unassigned else .ok (.vaddRL (Guard.ofCode f.g) (Reg.ofCode (f.d)) (Reg.ofCode (f.a)) (Bool.ofCode (f.mod / 8 % 2)) (Bool.ofCode (f.mod / 4 % 2)) (Lane.ofCode (f.mod % 4)) lit)
  | 2 =>
    if ¬(f.b = 0) then .error .mustBeZero else if ¬(f.mod % 4 < 3) then .error .unassigned else .ok (.vaddRK (Guard.ofCode f.g) (Reg.ofCode (f.d)) (Reg.ofCode (f.a)) (Lane.ofCode (f.mod % 4)) (BitVec.ofNat 8 (f.c * 32 + f.mod / 4)))
  | _ => .error .noFormat

/-- Major 0x21: vsub. -/
def decode21 (f : Fields) (lit : BitVec 32) : Except DecodeError Instr :=
  match f.fmt with
  | 0 =>
    if ¬(f.c = 0 ∧ f.mod / 16 = 0) then .error .mustBeZero else if ¬(f.mod % 4 < 3) then .error .unassigned else .ok (.vsub (Guard.ofCode f.g) (Reg.ofCode (f.d)) (Reg.ofCode (f.a)) (Reg.ofCode (f.b)) (Bool.ofCode (f.mod / 8 % 2)) (Bool.ofCode (f.mod / 4 % 2)) (Lane.ofCode (f.mod % 4)))
  | 1 =>
    if ¬(f.b = 0 ∧ f.c = 0 ∧ f.mod / 16 = 0) then .error .mustBeZero else if ¬(f.mod % 4 < 3) then .error .unassigned else .ok (.vsubRL (Guard.ofCode f.g) (Reg.ofCode (f.d)) (Reg.ofCode (f.a)) (Bool.ofCode (f.mod / 8 % 2)) (Bool.ofCode (f.mod / 4 % 2)) (Lane.ofCode (f.mod % 4)) lit)
  | 2 =>
    if ¬(f.b = 0) then .error .mustBeZero else if ¬(f.mod % 4 < 3) then .error .unassigned else .ok (.vsubRK (Guard.ofCode f.g) (Reg.ofCode (f.d)) (Reg.ofCode (f.a)) (Lane.ofCode (f.mod % 4)) (BitVec.ofNat 8 (f.c * 32 + f.mod / 4)))
  | _ => .error .noFormat

/-- Major 0x22: vmul. -/
def decode22 (f : Fields) (lit : BitVec 32) : Except DecodeError Instr :=
  match f.fmt with
  | 0 =>
    if ¬(f.c = 0 ∧ f.mod / 16 = 0) then .error .mustBeZero else if ¬(f.mod % 4 < 3) then .error .unassigned else .ok (.vmul (Guard.ofCode f.g) (Reg.ofCode (f.d)) (Reg.ofCode (f.a)) (Reg.ofCode (f.b)) (Bool.ofCode (f.mod / 8 % 2)) (Bool.ofCode (f.mod / 4 % 2)) (Lane.ofCode (f.mod % 4)))
  | 1 =>
    if ¬(f.b = 0 ∧ f.c = 0 ∧ f.mod / 16 = 0) then .error .mustBeZero else if ¬(f.mod % 4 < 3) then .error .unassigned else .ok (.vmulRL (Guard.ofCode f.g) (Reg.ofCode (f.d)) (Reg.ofCode (f.a)) (Bool.ofCode (f.mod / 8 % 2)) (Bool.ofCode (f.mod / 4 % 2)) (Lane.ofCode (f.mod % 4)) lit)
  | 2 =>
    if ¬(f.b = 0) then .error .mustBeZero else if ¬(f.mod % 4 < 3) then .error .unassigned else .ok (.vmulRK (Guard.ofCode f.g) (Reg.ofCode (f.d)) (Reg.ofCode (f.a)) (Lane.ofCode (f.mod % 4)) (BitVec.ofNat 8 (f.c * 32 + f.mod / 4)))
  | _ => .error .noFormat

/-- Major 0x23: vmin. -/
def decode23 (f : Fields) (lit : BitVec 32) : Except DecodeError Instr :=
  match f.fmt with
  | 0 =>
    if ¬(f.c = 0 ∧ f.mod / 8 = 0) then .error .mustBeZero else if ¬(f.mod % 4 < 3) then .error .unassigned else .ok (.vmin (Guard.ofCode f.g) (Reg.ofCode (f.d)) (Reg.ofCode (f.a)) (Reg.ofCode (f.b)) (Bool.ofCode (f.mod / 4 % 2)) (Lane.ofCode (f.mod % 4)))
  | 1 =>
    if ¬(f.b = 0 ∧ f.c = 0 ∧ f.mod / 8 = 0) then .error .mustBeZero else if ¬(f.mod % 4 < 3) then .error .unassigned else .ok (.vminRL (Guard.ofCode f.g) (Reg.ofCode (f.d)) (Reg.ofCode (f.a)) (Bool.ofCode (f.mod / 4 % 2)) (Lane.ofCode (f.mod % 4)) lit)
  | 2 =>
    if ¬(f.b = 0) then .error .mustBeZero else if ¬(f.mod % 4 < 3) then .error .unassigned else .ok (.vminRK (Guard.ofCode f.g) (Reg.ofCode (f.d)) (Reg.ofCode (f.a)) (Lane.ofCode (f.mod % 4)) (BitVec.ofNat 8 (f.c * 32 + f.mod / 4)))
  | _ => .error .noFormat

/-- Major 0x24: vmax. -/
def decode24 (f : Fields) (lit : BitVec 32) : Except DecodeError Instr :=
  match f.fmt with
  | 0 =>
    if ¬(f.c = 0 ∧ f.mod / 8 = 0) then .error .mustBeZero else if ¬(f.mod % 4 < 3) then .error .unassigned else .ok (.vmax (Guard.ofCode f.g) (Reg.ofCode (f.d)) (Reg.ofCode (f.a)) (Reg.ofCode (f.b)) (Bool.ofCode (f.mod / 4 % 2)) (Lane.ofCode (f.mod % 4)))
  | 1 =>
    if ¬(f.b = 0 ∧ f.c = 0 ∧ f.mod / 8 = 0) then .error .mustBeZero else if ¬(f.mod % 4 < 3) then .error .unassigned else .ok (.vmaxRL (Guard.ofCode f.g) (Reg.ofCode (f.d)) (Reg.ofCode (f.a)) (Bool.ofCode (f.mod / 4 % 2)) (Lane.ofCode (f.mod % 4)) lit)
  | 2 =>
    if ¬(f.b = 0) then .error .mustBeZero else if ¬(f.mod % 4 < 3) then .error .unassigned else .ok (.vmaxRK (Guard.ofCode f.g) (Reg.ofCode (f.d)) (Reg.ofCode (f.a)) (Lane.ofCode (f.mod % 4)) (BitVec.ofNat 8 (f.c * 32 + f.mod / 4)))
  | _ => .error .noFormat

/-- Major 0x25: vavg. -/
def decode25 (f : Fields) (lit : BitVec 32) : Except DecodeError Instr :=
  match f.fmt with
  | 0 =>
    if ¬(f.c = 0 ∧ f.mod / 8 = 0) then .error .mustBeZero else if ¬(f.mod % 4 < 3) then .error .unassigned else .ok (.vavg (Guard.ofCode f.g) (Reg.ofCode (f.d)) (Reg.ofCode (f.a)) (Reg.ofCode (f.b)) (Bool.ofCode (f.mod / 4 % 2)) (Lane.ofCode (f.mod % 4)))
  | 1 =>
    if ¬(f.b = 0 ∧ f.c = 0 ∧ f.mod / 8 = 0) then .error .mustBeZero else if ¬(f.mod % 4 < 3) then .error .unassigned else .ok (.vavgRL (Guard.ofCode f.g) (Reg.ofCode (f.d)) (Reg.ofCode (f.a)) (Bool.ofCode (f.mod / 4 % 2)) (Lane.ofCode (f.mod % 4)) lit)
  | 2 =>
    if ¬(f.b = 0) then .error .mustBeZero else if ¬(f.mod % 4 < 3) then .error .unassigned else .ok (.vavgRK (Guard.ofCode f.g) (Reg.ofCode (f.d)) (Reg.ofCode (f.a)) (Lane.ofCode (f.mod % 4)) (BitVec.ofNat 8 (f.c * 32 + f.mod / 4)))
  | _ => .error .noFormat

/-- Major 0x26: vabsd. -/
def decode26 (f : Fields) (lit : BitVec 32) : Except DecodeError Instr :=
  match f.fmt with
  | 0 =>
    if ¬(f.c = 0 ∧ f.mod / 8 = 0) then .error .mustBeZero else if ¬(f.mod % 4 < 3) then .error .unassigned else .ok (.vabsd (Guard.ofCode f.g) (Reg.ofCode (f.d)) (Reg.ofCode (f.a)) (Reg.ofCode (f.b)) (Bool.ofCode (f.mod / 4 % 2)) (Lane.ofCode (f.mod % 4)))
  | 1 =>
    if ¬(f.b = 0 ∧ f.c = 0 ∧ f.mod / 8 = 0) then .error .mustBeZero else if ¬(f.mod % 4 < 3) then .error .unassigned else .ok (.vabsdRL (Guard.ofCode f.g) (Reg.ofCode (f.d)) (Reg.ofCode (f.a)) (Bool.ofCode (f.mod / 4 % 2)) (Lane.ofCode (f.mod % 4)) lit)
  | 2 =>
    if ¬(f.b = 0) then .error .mustBeZero else if ¬(f.mod % 4 < 3) then .error .unassigned else .ok (.vabsdRK (Guard.ofCode f.g) (Reg.ofCode (f.d)) (Reg.ofCode (f.a)) (Lane.ofCode (f.mod % 4)) (BitVec.ofNat 8 (f.c * 32 + f.mod / 4)))
  | _ => .error .noFormat

/-- Major 0x27: vdot. -/
def decode27 (f : Fields) (lit : BitVec 32) : Except DecodeError Instr :=
  match f.fmt with
  | 0 =>
    if ¬(f.mod / 8 = 0) then .error .mustBeZero else if ¬(f.mod % 4 < 3) then .error .unassigned else .ok (.vdot (Guard.ofCode f.g) (Reg.ofCode (f.d)) (Reg.ofCode (f.a)) (Reg.ofCode (f.b)) (Reg.ofCode (f.c)) (Bool.ofCode (f.mod / 4 % 2)) (Lane.ofCode (f.mod % 4)))
  | 1 =>
    if ¬(f.c = 0 ∧ f.mod / 8 = 0) then .error .mustBeZero else if ¬(f.mod % 4 < 3) then .error .unassigned else .ok (.vdotRL (Guard.ofCode f.g) (Reg.ofCode (f.d)) (Reg.ofCode (f.a)) (Reg.ofCode (f.b)) (Bool.ofCode (f.mod / 4 % 2)) (Lane.ofCode (f.mod % 4)) lit)
  | 2 =>
    if ¬(f.mod % 4 < 3) then .error .unassigned else .ok (.vdotRK (Guard.ofCode f.g) (Reg.ofCode (f.d)) (Reg.ofCode (f.a)) (Reg.ofCode (f.b)) (Lane.ofCode (f.mod % 4)) (BitVec.ofNat 8 (f.c * 32 + f.mod / 4)))
  | _ => .error .noFormat

/-- Major 0x28: vsum, vsplat. -/
def decode28 (f : Fields) (_lit : BitVec 32) : Except DecodeError Instr :=
  match f.fmt with
  | 0 =>
    match f.b with
    | 0 =>
      if ¬(f.c = 0 ∧ f.mod / 8 = 0) then .error .mustBeZero else if ¬(f.mod % 4 < 3) then .error .unassigned else .ok (.vsum (Guard.ofCode f.g) (Reg.ofCode (f.d)) (Reg.ofCode (f.a)) (Bool.ofCode (f.mod / 4 % 2)) (Lane.ofCode (f.mod % 4)))
    | 1 =>
      if ¬(f.c = 0 ∧ f.mod / 4 = 0) then .error .mustBeZero else if ¬(f.mod % 4 < 3) then .error .unassigned else .ok (.vsplat (Guard.ofCode f.g) (Reg.ofCode (f.d)) (Reg.ofCode (f.a)) (Lane.ofCode (f.mod % 4)))
    | _ => .error .noSelector
  | _ => .error .noFormat

/-- Major 0x29: vshf, vpack. -/
def decode29 (f : Fields) (lit : BitVec 32) : Except DecodeError Instr :=
  match f.fmt with
  | 0 =>
    match f.mod / 64 with
    | 0 =>
      if ¬(f.c = 0 ∧ f.mod / 4 % 16 = 0) then .error .mustBeZero else if ¬(f.mod % 4 < 3) then .error .unassigned else .ok (.vshf (Guard.ofCode f.g) (Reg.ofCode (f.d)) (Reg.ofCode (f.a)) (Reg.ofCode (f.b)) (Lane.ofCode (f.mod % 4)))
    | 1 =>
      if ¬(f.c = 0 ∧ f.mod / 16 % 4 = 0) then .error .mustBeZero else if ¬(f.mod % 4 < 3) then .error .unassigned else .ok (.vpack (Guard.ofCode f.g) (Reg.ofCode (f.d)) (Reg.ofCode (f.a)) (Reg.ofCode (f.b)) (Bool.ofCode (f.mod / 8 % 2)) (Bool.ofCode (f.mod / 4 % 2)) (Lane.ofCode (f.mod % 4)))
    | _ => .error .noSelector
  | 1 =>
    match f.mod / 64 with
    | 0 =>
      if ¬(f.b = 0 ∧ f.c = 0 ∧ f.mod / 4 % 16 = 0) then .error .mustBeZero else if ¬(f.mod % 4 < 3) then .error .unassigned else .ok (.vshfRL (Guard.ofCode f.g) (Reg.ofCode (f.d)) (Reg.ofCode (f.a)) (Lane.ofCode (f.mod % 4)) lit)
    | 1 =>
      if ¬(f.b = 0 ∧ f.c = 0 ∧ f.mod / 16 % 4 = 0) then .error .mustBeZero else if ¬(f.mod % 4 < 3) then .error .unassigned else .ok (.vpackRL (Guard.ofCode f.g) (Reg.ofCode (f.d)) (Reg.ofCode (f.a)) (Bool.ofCode (f.mod / 8 % 2)) (Bool.ofCode (f.mod / 4 % 2)) (Lane.ofCode (f.mod % 4)) lit)
    | _ => .error .noSelector
  | _ => .error .noFormat

/-- Major 0x2A: vcmp. -/
def decode2A (f : Fields) (lit : BitVec 32) : Except DecodeError Instr :=
  match f.fmt with
  | 0 =>
    if ¬(f.c = 0 ∧ f.mod / 8 % 2 = 0) then .error .mustBeZero else if ¬(f.mod / 16 < 6 ∧ f.mod % 4 < 3) then .error .unassigned else .ok (.vcmp (Guard.ofCode f.g) (Reg.ofCode (f.d)) (Reg.ofCode (f.a)) (Reg.ofCode (f.b)) (VCond.ofCode (f.mod / 16)) (Bool.ofCode (f.mod / 4 % 2)) (Lane.ofCode (f.mod % 4)))
  | 1 =>
    if ¬(f.b = 0 ∧ f.c = 0 ∧ f.mod / 8 % 2 = 0) then .error .mustBeZero else if ¬(f.mod / 16 < 6 ∧ f.mod % 4 < 3) then .error .unassigned else .ok (.vcmpRL (Guard.ofCode f.g) (Reg.ofCode (f.d)) (Reg.ofCode (f.a)) (VCond.ofCode (f.mod / 16)) (Bool.ofCode (f.mod / 4 % 2)) (Lane.ofCode (f.mod % 4)) lit)
  | 2 =>
    if ¬(f.b = 0) then .error .mustBeZero else if ¬(f.mod % 4 < 3) then .error .unassigned else .ok (.vcmpRK (Guard.ofCode f.g) (Reg.ofCode (f.d)) (Reg.ofCode (f.a)) (Lane.ofCode (f.mod % 4)) (BitVec.ofNat 8 (f.c * 32 + f.mod / 4)))
  | _ => .error .noFormat

/-- Major 0x2B: vsel. -/
def decode2B (f : Fields) (lit : BitVec 32) : Except DecodeError Instr :=
  match f.fmt with
  | 0 =>
    if ¬(f.mod = 0) then .error .mustBeZero else .ok (.vsel (Guard.ofCode f.g) (Reg.ofCode (f.d)) (Reg.ofCode (f.a)) (Reg.ofCode (f.b)) (Reg.ofCode (f.c)))
  | 1 =>
    if ¬(f.c = 0 ∧ f.mod = 0) then .error .mustBeZero else .ok (.vselRL (Guard.ofCode f.g) (Reg.ofCode (f.d)) (Reg.ofCode (f.a)) (Reg.ofCode (f.b)) lit)
  | 2 =>
    if ¬(f.mod % 4 = 0) then .error .mustBeZero else .ok (.vselRK (Guard.ofCode f.g) (Reg.ofCode (f.d)) (Reg.ofCode (f.a)) (Reg.ofCode (f.b)) (BitVec.ofNat 8 (f.c * 32 + f.mod / 4)))
  | _ => .error .noFormat

/-- Major 0x2C: rand. -/
def decode2C (f : Fields) (lit : BitVec 32) : Except DecodeError Instr :=
  match f.fmt with
  | 0 =>
    if ¬(f.c = 0 ∧ f.mod / 2 = 0) then .error .mustBeZero else .ok (.rand (Guard.ofCode f.g) (Reg.ofCode (f.d)) (Reg.ofCode (f.a)) (Reg.ofCode (f.b)) (Bool.ofCode (f.mod % 2)))
  | 1 =>
    if ¬(f.b = 0 ∧ f.c = 0 ∧ f.mod / 2 = 0) then .error .mustBeZero else .ok (.randRL (Guard.ofCode f.g) (Reg.ofCode (f.d)) (Reg.ofCode (f.a)) (Bool.ofCode (f.mod % 2)) lit)
  | 2 =>
    if ¬(f.b = 0 ∧ f.mod / 2 % 2 = 0) then .error .mustBeZero else .ok (.randRK (Guard.ofCode f.g) (Reg.ofCode (f.d)) (Reg.ofCode (f.a)) (Bool.ofCode (f.mod % 2)) (BitVec.ofNat 8 (f.c * 32 + f.mod / 4)))
  | 3 =>
    .ok (.randRI (Guard.ofCode f.g) (Reg.ofCode (f.d)) (Reg.ofCode (f.a)) (BitVec.ofNat 13 (f.b * 1024 + f.c * 128 + f.mod)))
  | _ => .error .noFormat

/-- Major 0x2D: randf. -/
def decode2D (f : Fields) (lit : BitVec 32) : Except DecodeError Instr :=
  match f.fmt with
  | 0 =>
    if ¬(f.c = 0 ∧ f.mod / 2 = 0) then .error .mustBeZero else .ok (.randf (Guard.ofCode f.g) (Reg.ofCode (f.d)) (Reg.ofCode (f.a)) (Reg.ofCode (f.b)) (Bool.ofCode (f.mod % 2)))
  | 1 =>
    if ¬(f.b = 0 ∧ f.c = 0 ∧ f.mod / 2 = 0) then .error .mustBeZero else .ok (.randfRL (Guard.ofCode f.g) (Reg.ofCode (f.d)) (Reg.ofCode (f.a)) (Bool.ofCode (f.mod % 2)) lit)
  | 2 =>
    if ¬(f.b = 0 ∧ f.mod / 2 % 2 = 0) then .error .mustBeZero else .ok (.randfRK (Guard.ofCode f.g) (Reg.ofCode (f.d)) (Reg.ofCode (f.a)) (Bool.ofCode (f.mod % 2)) (BitVec.ofNat 8 (f.c * 32 + f.mod / 4)))
  | 3 =>
    .ok (.randfRI (Guard.ofCode f.g) (Reg.ofCode (f.d)) (Reg.ofCode (f.a)) (BitVec.ofNat 13 (f.b * 1024 + f.c * 128 + f.mod)))
  | _ => .error .noFormat

/-- Major 0x2E: pset. -/
def decode2E (f : Fields) (_lit : BitVec 32) : Except DecodeError Instr :=
  match f.fmt with
  | 0 =>
    if ¬(f.c = 0 ∧ f.mod / 8 = 0) then .error .mustBeZero else .ok (.pset (Guard.ofCode f.g) (Reg.ofCode (f.d)) (Reg.ofCode (f.a)) (Reg.ofCode (f.b)) (PsetOp.ofCode (f.mod % 8)))
  | _ => .error .noFormat

/-- Major 0x2F: rdp, wrp. -/
def decode2F (f : Fields) (lit : BitVec 32) : Except DecodeError Instr :=
  match f.fmt with
  | 0 =>
    match f.mod / 64 with
    | 0 =>
      if ¬(f.a = 0 ∧ f.b = 0 ∧ f.c = 0 ∧ f.mod % 64 = 0) then .error .mustBeZero else .ok (.rdp (Guard.ofCode f.g) (Reg.ofCode (f.d)))
    | 1 =>
      if ¬(f.d = 0 ∧ f.c = 0 ∧ f.mod % 64 = 0) then .error .mustBeZero else .ok (.wrp (Guard.ofCode f.g) (Reg.ofCode (f.a)) (Reg.ofCode (f.b)))
    | _ => .error .noSelector
  | 1 =>
    match f.mod / 64 with
    | 1 =>
      if ¬(f.d = 0 ∧ f.b = 0 ∧ f.c = 0 ∧ f.mod % 64 = 0) then .error .mustBeZero else .ok (.wrpRL (Guard.ofCode f.g) (Reg.ofCode (f.a)) lit)
    | _ => .error .noSelector
  | _ => .error .noFormat

/-- Major 0x30: fadd. -/
def decode30 (f : Fields) (lit : BitVec 32) : Except DecodeError Instr :=
  match f.fmt with
  | 0 =>
    if ¬(f.c = 0 ∧ f.mod / 32 = 0) then .error .mustBeZero else if ¬(f.mod / 4 % 8 < 4) then .error .unassigned else .ok (.fadd (Guard.ofCode f.g) (Reg.ofCode (f.d)) (Reg.ofCode (f.a)) (Reg.ofCode (f.b)) (Rm.ofCode (f.mod / 4 % 8)) (FFmt.ofCode (f.mod % 4)))
  | 1 =>
    if ¬(f.b = 0 ∧ f.c = 0 ∧ f.mod / 32 = 0) then .error .mustBeZero else if ¬(f.mod / 4 % 8 < 4) then .error .unassigned else .ok (.faddRL (Guard.ofCode f.g) (Reg.ofCode (f.d)) (Reg.ofCode (f.a)) (Rm.ofCode (f.mod / 4 % 8)) (FFmt.ofCode (f.mod % 4)) lit)
  | 2 =>
    if ¬(f.b = 0) then .error .mustBeZero else .ok (.faddRK (Guard.ofCode f.g) (Reg.ofCode (f.d)) (Reg.ofCode (f.a)) (FFmt.ofCode (f.mod % 4)) (BitVec.ofNat 8 (f.c * 32 + f.mod / 4)))
  | _ => .error .noFormat

/-- Major 0x31: fsub. -/
def decode31 (f : Fields) (lit : BitVec 32) : Except DecodeError Instr :=
  match f.fmt with
  | 0 =>
    if ¬(f.c = 0 ∧ f.mod / 32 = 0) then .error .mustBeZero else if ¬(f.mod / 4 % 8 < 4) then .error .unassigned else .ok (.fsub (Guard.ofCode f.g) (Reg.ofCode (f.d)) (Reg.ofCode (f.a)) (Reg.ofCode (f.b)) (Rm.ofCode (f.mod / 4 % 8)) (FFmt.ofCode (f.mod % 4)))
  | 1 =>
    if ¬(f.b = 0 ∧ f.c = 0 ∧ f.mod / 32 = 0) then .error .mustBeZero else if ¬(f.mod / 4 % 8 < 4) then .error .unassigned else .ok (.fsubRL (Guard.ofCode f.g) (Reg.ofCode (f.d)) (Reg.ofCode (f.a)) (Rm.ofCode (f.mod / 4 % 8)) (FFmt.ofCode (f.mod % 4)) lit)
  | 2 =>
    if ¬(f.b = 0) then .error .mustBeZero else .ok (.fsubRK (Guard.ofCode f.g) (Reg.ofCode (f.d)) (Reg.ofCode (f.a)) (FFmt.ofCode (f.mod % 4)) (BitVec.ofNat 8 (f.c * 32 + f.mod / 4)))
  | _ => .error .noFormat

/-- Major 0x32: fmul. -/
def decode32 (f : Fields) (lit : BitVec 32) : Except DecodeError Instr :=
  match f.fmt with
  | 0 =>
    if ¬(f.c = 0 ∧ f.mod / 32 = 0) then .error .mustBeZero else if ¬(f.mod / 4 % 8 < 4) then .error .unassigned else .ok (.fmul (Guard.ofCode f.g) (Reg.ofCode (f.d)) (Reg.ofCode (f.a)) (Reg.ofCode (f.b)) (Rm.ofCode (f.mod / 4 % 8)) (FFmt.ofCode (f.mod % 4)))
  | 1 =>
    if ¬(f.b = 0 ∧ f.c = 0 ∧ f.mod / 32 = 0) then .error .mustBeZero else if ¬(f.mod / 4 % 8 < 4) then .error .unassigned else .ok (.fmulRL (Guard.ofCode f.g) (Reg.ofCode (f.d)) (Reg.ofCode (f.a)) (Rm.ofCode (f.mod / 4 % 8)) (FFmt.ofCode (f.mod % 4)) lit)
  | 2 =>
    if ¬(f.b = 0) then .error .mustBeZero else .ok (.fmulRK (Guard.ofCode f.g) (Reg.ofCode (f.d)) (Reg.ofCode (f.a)) (FFmt.ofCode (f.mod % 4)) (BitVec.ofNat 8 (f.c * 32 + f.mod / 4)))
  | _ => .error .noFormat

/-- Major 0x33: fma. -/
def decode33 (f : Fields) (lit : BitVec 32) : Except DecodeError Instr :=
  match f.fmt with
  | 0 =>
    if ¬(f.mod / 32 = 0) then .error .mustBeZero else if ¬(f.mod / 4 % 8 < 4) then .error .unassigned else .ok (.fma (Guard.ofCode f.g) (Reg.ofCode (f.d)) (Reg.ofCode (f.a)) (Reg.ofCode (f.b)) (Reg.ofCode (f.c)) (Rm.ofCode (f.mod / 4 % 8)) (FFmt.ofCode (f.mod % 4)))
  | 1 =>
    if ¬(f.c = 0 ∧ f.mod / 32 = 0) then .error .mustBeZero else if ¬(f.mod / 4 % 8 < 4) then .error .unassigned else .ok (.fmaRL (Guard.ofCode f.g) (Reg.ofCode (f.d)) (Reg.ofCode (f.a)) (Reg.ofCode (f.b)) (Rm.ofCode (f.mod / 4 % 8)) (FFmt.ofCode (f.mod % 4)) lit)
  | 2 =>
    .ok (.fmaRK (Guard.ofCode f.g) (Reg.ofCode (f.d)) (Reg.ofCode (f.a)) (Reg.ofCode (f.b)) (FFmt.ofCode (f.mod % 4)) (BitVec.ofNat 8 (f.c * 32 + f.mod / 4)))
  | _ => .error .noFormat

/-- Major 0x34: fdiv. -/
def decode34 (f : Fields) (lit : BitVec 32) : Except DecodeError Instr :=
  match f.fmt with
  | 0 =>
    if ¬(f.c = 0 ∧ f.mod / 32 = 0) then .error .mustBeZero else if ¬(f.mod / 4 % 8 < 4) then .error .unassigned else .ok (.fdiv (Guard.ofCode f.g) (Reg.ofCode (f.d)) (Reg.ofCode (f.a)) (Reg.ofCode (f.b)) (Rm.ofCode (f.mod / 4 % 8)) (FFmt.ofCode (f.mod % 4)))
  | 1 =>
    if ¬(f.b = 0 ∧ f.c = 0 ∧ f.mod / 32 = 0) then .error .mustBeZero else if ¬(f.mod / 4 % 8 < 4) then .error .unassigned else .ok (.fdivRL (Guard.ofCode f.g) (Reg.ofCode (f.d)) (Reg.ofCode (f.a)) (Rm.ofCode (f.mod / 4 % 8)) (FFmt.ofCode (f.mod % 4)) lit)
  | 2 =>
    if ¬(f.b = 0) then .error .mustBeZero else .ok (.fdivRK (Guard.ofCode f.g) (Reg.ofCode (f.d)) (Reg.ofCode (f.a)) (FFmt.ofCode (f.mod % 4)) (BitVec.ofNat 8 (f.c * 32 + f.mod / 4)))
  | _ => .error .noFormat

/-- Major 0x35: fsqrt. -/
def decode35 (f : Fields) (_lit : BitVec 32) : Except DecodeError Instr :=
  match f.fmt with
  | 0 =>
    if ¬(f.b = 0 ∧ f.c = 0 ∧ f.mod / 32 = 0) then .error .mustBeZero else if ¬(f.mod / 4 % 8 < 4) then .error .unassigned else .ok (.fsqrt (Guard.ofCode f.g) (Reg.ofCode (f.d)) (Reg.ofCode (f.a)) (Rm.ofCode (f.mod / 4 % 8)) (FFmt.ofCode (f.mod % 4)))
  | _ => .error .noFormat

/-- Major 0x36: fmin. -/
def decode36 (f : Fields) (lit : BitVec 32) : Except DecodeError Instr :=
  match f.fmt with
  | 0 =>
    if ¬(f.c = 0 ∧ f.mod / 4 = 0) then .error .mustBeZero else .ok (.fmin (Guard.ofCode f.g) (Reg.ofCode (f.d)) (Reg.ofCode (f.a)) (Reg.ofCode (f.b)) (FFmt.ofCode (f.mod % 4)))
  | 1 =>
    if ¬(f.b = 0 ∧ f.c = 0 ∧ f.mod / 4 = 0) then .error .mustBeZero else .ok (.fminRL (Guard.ofCode f.g) (Reg.ofCode (f.d)) (Reg.ofCode (f.a)) (FFmt.ofCode (f.mod % 4)) lit)
  | 2 =>
    if ¬(f.b = 0) then .error .mustBeZero else .ok (.fminRK (Guard.ofCode f.g) (Reg.ofCode (f.d)) (Reg.ofCode (f.a)) (FFmt.ofCode (f.mod % 4)) (BitVec.ofNat 8 (f.c * 32 + f.mod / 4)))
  | _ => .error .noFormat

/-- Major 0x37: fmax. -/
def decode37 (f : Fields) (lit : BitVec 32) : Except DecodeError Instr :=
  match f.fmt with
  | 0 =>
    if ¬(f.c = 0 ∧ f.mod / 4 = 0) then .error .mustBeZero else .ok (.fmax (Guard.ofCode f.g) (Reg.ofCode (f.d)) (Reg.ofCode (f.a)) (Reg.ofCode (f.b)) (FFmt.ofCode (f.mod % 4)))
  | 1 =>
    if ¬(f.b = 0 ∧ f.c = 0 ∧ f.mod / 4 = 0) then .error .mustBeZero else .ok (.fmaxRL (Guard.ofCode f.g) (Reg.ofCode (f.d)) (Reg.ofCode (f.a)) (FFmt.ofCode (f.mod % 4)) lit)
  | 2 =>
    if ¬(f.b = 0) then .error .mustBeZero else .ok (.fmaxRK (Guard.ofCode f.g) (Reg.ofCode (f.d)) (Reg.ofCode (f.a)) (FFmt.ofCode (f.mod % 4)) (BitVec.ofNat 8 (f.c * 32 + f.mod / 4)))
  | _ => .error .noFormat

/-- Major 0x38: fabs. -/
def decode38 (f : Fields) (_lit : BitVec 32) : Except DecodeError Instr :=
  match f.fmt with
  | 0 =>
    if ¬(f.b = 0 ∧ f.c = 0 ∧ f.mod / 4 = 0) then .error .mustBeZero else .ok (.fabs (Guard.ofCode f.g) (Reg.ofCode (f.d)) (Reg.ofCode (f.a)) (FFmt.ofCode (f.mod % 4)))
  | _ => .error .noFormat

/-- Major 0x39: fneg. -/
def decode39 (f : Fields) (_lit : BitVec 32) : Except DecodeError Instr :=
  match f.fmt with
  | 0 =>
    if ¬(f.b = 0 ∧ f.c = 0 ∧ f.mod / 4 = 0) then .error .mustBeZero else .ok (.fneg (Guard.ofCode f.g) (Reg.ofCode (f.d)) (Reg.ofCode (f.a)) (FFmt.ofCode (f.mod % 4)))
  | _ => .error .noFormat

/-- Major 0x3A: fcmp. -/
def decode3A (f : Fields) (lit : BitVec 32) : Except DecodeError Instr :=
  match f.fmt with
  | 0 =>
    if ¬(f.c = 0 ∧ f.mod / 32 = 0) then .error .mustBeZero else .ok (.fcmp (Guard.ofCode f.g) (Reg.ofCode (f.d)) (Reg.ofCode (f.a)) (Reg.ofCode (f.b)) (FCond.ofCode (f.mod / 4 % 8)) (FFmt.ofCode (f.mod % 4)))
  | 1 =>
    if ¬(f.b = 0 ∧ f.c = 0 ∧ f.mod / 32 = 0) then .error .mustBeZero else .ok (.fcmpRL (Guard.ofCode f.g) (Reg.ofCode (f.d)) (Reg.ofCode (f.a)) (FCond.ofCode (f.mod / 4 % 8)) (FFmt.ofCode (f.mod % 4)) lit)
  | 2 =>
    if ¬(f.b = 0) then .error .mustBeZero else .ok (.fcmpRK (Guard.ofCode f.g) (Reg.ofCode (f.d)) (Reg.ofCode (f.a)) (FFmt.ofCode (f.mod % 4)) (BitVec.ofNat 8 (f.c * 32 + f.mod / 4)))
  | _ => .error .noFormat

/-- Major 0x3B: fclass. -/
def decode3B (f : Fields) (_lit : BitVec 32) : Except DecodeError Instr :=
  match f.fmt with
  | 0 =>
    if ¬(f.b = 0 ∧ f.c = 0 ∧ f.mod / 4 = 0) then .error .mustBeZero else .ok (.fclass (Guard.ofCode f.g) (Reg.ofCode (f.d)) (Reg.ofCode (f.a)) (FFmt.ofCode (f.mod % 4)))
  | _ => .error .noFormat

/-- Major 0x3C: fcvt. -/
def decode3C (f : Fields) (lit : BitVec 32) : Except DecodeError Instr :=
  match f.fmt with
  | 0 =>
    if ¬(f.mod = 0) then .error .mustBeZero else .ok (.fcvt (Guard.ofCode f.g) (Reg.ofCode (f.d)) (Reg.ofCode (f.a)) (Reg.ofCode (f.b)) (Reg.ofCode (f.c)))
  | 1 =>
    if ¬(f.c = 0 ∧ f.mod = 0) then .error .mustBeZero else .ok (.fcvtRL (Guard.ofCode f.g) (Reg.ofCode (f.d)) (Reg.ofCode (f.a)) (Reg.ofCode (f.b)) lit)
  | 2 =>
    if ¬(f.mod % 4 = 0) then .error .mustBeZero else .ok (.fcvtRK (Guard.ofCode f.g) (Reg.ofCode (f.d)) (Reg.ofCode (f.a)) (Reg.ofCode (f.b)) (BitVec.ofNat 8 (f.c * 32 + f.mod / 4)))
  | _ => .error .noFormat

/-- Major 0x3D: fround. -/
def decode3D (f : Fields) (_lit : BitVec 32) : Except DecodeError Instr :=
  match f.fmt with
  | 0 =>
    if ¬(f.b = 0 ∧ f.c = 0 ∧ f.mod / 32 = 0) then .error .mustBeZero else if ¬(f.mod / 4 % 8 < 4) then .error .unassigned else .ok (.fround (Guard.ofCode f.g) (Reg.ofCode (f.d)) (Reg.ofCode (f.a)) (Rm.ofCode (f.mod / 4 % 8)) (FFmt.ofCode (f.mod % 4)))
  | _ => .error .noFormat

/-- Major 0x3E: vfma. -/
def decode3E (f : Fields) (lit : BitVec 32) : Except DecodeError Instr :=
  match f.fmt with
  | 0 =>
    if ¬(f.mod / 32 = 0) then .error .mustBeZero else if ¬(f.mod / 4 % 8 < 4) then .error .unassigned else .ok (.vfma (Guard.ofCode f.g) (Reg.ofCode (f.d)) (Reg.ofCode (f.a)) (Reg.ofCode (f.b)) (Reg.ofCode (f.c)) (Rm.ofCode (f.mod / 4 % 8)) (FFmt.ofCode (f.mod % 4)))
  | 1 =>
    if ¬(f.c = 0 ∧ f.mod / 32 = 0) then .error .mustBeZero else if ¬(f.mod / 4 % 8 < 4) then .error .unassigned else .ok (.vfmaRL (Guard.ofCode f.g) (Reg.ofCode (f.d)) (Reg.ofCode (f.a)) (Reg.ofCode (f.b)) (Rm.ofCode (f.mod / 4 % 8)) (FFmt.ofCode (f.mod % 4)) lit)
  | 2 =>
    .ok (.vfmaRK (Guard.ofCode f.g) (Reg.ofCode (f.d)) (Reg.ofCode (f.a)) (Reg.ofCode (f.b)) (FFmt.ofCode (f.mod % 4)) (BitVec.ofNat 8 (f.c * 32 + f.mod / 4)))
  | _ => .error .noFormat

/-- Major 0x3F: xcvt. -/
def decode3F (f : Fields) (_lit : BitVec 32) : Except DecodeError Instr :=
  match f.fmt with
  | 0 =>
    if ¬(f.b = 0 ∧ f.c = 0 ∧ f.mod = 0) then .error .mustBeZero else .ok (.xcvt (Guard.ofCode f.g) (Reg.ofCode (f.d)) (Reg.ofCode (f.a)))
  | _ => .error .noFormat

/-- Major 0x40: tdesc. -/
def decode40 (f : Fields) (lit : BitVec 32) : Except DecodeError Instr :=
  match f.fmt with
  | 0 =>
    if ¬(f.c = 0 ∧ f.mod / 8 = 0) then .error .mustBeZero else .ok (.tdesc (Guard.ofCode f.g) (Reg.ofCode (f.d)) (Reg.ofCode (f.a)) (Reg.ofCode (f.b)) (Reg.ofCode (f.mod % 8)))
  | 1 =>
    if ¬(f.b = 0 ∧ f.c = 0 ∧ f.mod / 8 = 0) then .error .mustBeZero else .ok (.tdescRL (Guard.ofCode f.g) (Reg.ofCode (f.d)) (Reg.ofCode (f.a)) (Reg.ofCode (f.mod % 8)) lit)
  | 2 =>
    if ¬(f.b = 0) then .error .mustBeZero else .ok (.tdescRK (Guard.ofCode f.g) (Reg.ofCode (f.d)) (Reg.ofCode (f.a)) (Reg.ofCode (f.mod % 4)) (BitVec.ofNat 8 (f.c * 32 + f.mod / 4)))
  | 3 =>
    .ok (.tdescRI (Guard.ofCode f.g) (Reg.ofCode (f.d)) (Reg.ofCode (f.a)) (BitVec.ofNat 13 (f.b * 1024 + f.c * 128 + f.mod)))
  | _ => .error .noFormat

/-- Major 0x41: tfree. -/
def decode41 (f : Fields) (_lit : BitVec 32) : Except DecodeError Instr :=
  match f.fmt with
  | 0 =>
    if ¬(f.d = 0 ∧ f.b = 0 ∧ f.c = 0 ∧ f.mod = 0) then .error .mustBeZero else .ok (.tfree (Guard.ofCode f.g) (Reg.ofCode (f.a)))
  | _ => .error .noFormat

/-- Major 0x42: tinfo. -/
def decode42 (f : Fields) (_lit : BitVec 32) : Except DecodeError Instr :=
  match f.fmt with
  | 0 =>
    if ¬(f.c = 0 ∧ f.mod = 0) then .error .mustBeZero else .ok (.tinfo (Guard.ofCode f.g) (Reg.ofCode (f.d)) (Reg.ofCode (f.a)) (Reg.ofCode (f.b)))
  | 3 =>
    .ok (.tinfoRI (Guard.ofCode f.g) (Reg.ofCode (f.d)) (Reg.ofCode (f.a)) (BitVec.ofNat 13 (f.b * 1024 + f.c * 128 + f.mod)))
  | _ => .error .noFormat

/-- Major 0x43: tadd. -/
def decode43 (f : Fields) (_lit : BitVec 32) : Except DecodeError Instr :=
  match f.fmt with
  | 0 =>
    if ¬(f.mod / 16 = 0) then .error .mustBeZero else if ¬(f.mod / 2 % 8 < 5) then .error .unassigned else .ok (.tadd (Guard.ofCode f.g) (Reg.ofCode (f.d)) (Reg.ofCode (f.a)) (Reg.ofCode (f.b)) (Reg.ofCode (f.c)) (Rm.ofCode (f.mod / 2 % 8)) (Bool.ofCode (f.mod % 2)))
  | _ => .error .noFormat

/-- Major 0x44: tsub. -/
def decode44 (f : Fields) (_lit : BitVec 32) : Except DecodeError Instr :=
  match f.fmt with
  | 0 =>
    if ¬(f.mod / 16 = 0) then .error .mustBeZero else if ¬(f.mod / 2 % 8 < 5) then .error .unassigned else .ok (.tsub (Guard.ofCode f.g) (Reg.ofCode (f.d)) (Reg.ofCode (f.a)) (Reg.ofCode (f.b)) (Reg.ofCode (f.c)) (Rm.ofCode (f.mod / 2 % 8)) (Bool.ofCode (f.mod % 2)))
  | _ => .error .noFormat

/-- Major 0x45: tmul. -/
def decode45 (f : Fields) (_lit : BitVec 32) : Except DecodeError Instr :=
  match f.fmt with
  | 0 =>
    if ¬(f.mod / 16 = 0) then .error .mustBeZero else if ¬(f.mod / 2 % 8 < 5) then .error .unassigned else .ok (.tmul (Guard.ofCode f.g) (Reg.ofCode (f.d)) (Reg.ofCode (f.a)) (Reg.ofCode (f.b)) (Reg.ofCode (f.c)) (Rm.ofCode (f.mod / 2 % 8)) (Bool.ofCode (f.mod % 2)))
  | _ => .error .noFormat

/-- Major 0x46: tfma. -/
def decode46 (f : Fields) (_lit : BitVec 32) : Except DecodeError Instr :=
  match f.fmt with
  | 0 =>
    if ¬(f.mod / 16 = 0) then .error .mustBeZero else if ¬(f.mod / 2 % 8 < 4) then .error .unassigned else .ok (.tfma (Guard.ofCode f.g) (Reg.ofCode (f.d)) (Reg.ofCode (f.a)) (Reg.ofCode (f.b)) (Reg.ofCode (f.c)) (Rm.ofCode (f.mod / 2 % 8)) (Bool.ofCode (f.mod % 2)))
  | _ => .error .noFormat

/-- Major 0x47: tmax. -/
def decode47 (f : Fields) (_lit : BitVec 32) : Except DecodeError Instr :=
  match f.fmt with
  | 0 =>
    if ¬(f.mod / 16 = 0) then .error .mustBeZero else if ¬(f.mod / 2 % 8 < 5) then .error .unassigned else .ok (.tmax (Guard.ofCode f.g) (Reg.ofCode (f.d)) (Reg.ofCode (f.a)) (Reg.ofCode (f.b)) (Reg.ofCode (f.c)) (Rm.ofCode (f.mod / 2 % 8)) (Bool.ofCode (f.mod % 2)))
  | _ => .error .noFormat

/-- Major 0x48: tmin. -/
def decode48 (f : Fields) (_lit : BitVec 32) : Except DecodeError Instr :=
  match f.fmt with
  | 0 =>
    if ¬(f.mod / 16 = 0) then .error .mustBeZero else if ¬(f.mod / 2 % 8 < 5) then .error .unassigned else .ok (.tmin (Guard.ofCode f.g) (Reg.ofCode (f.d)) (Reg.ofCode (f.a)) (Reg.ofCode (f.b)) (Reg.ofCode (f.c)) (Rm.ofCode (f.mod / 2 % 8)) (Bool.ofCode (f.mod % 2)))
  | _ => .error .noFormat

/-- Major 0x49: tscale. -/
def decode49 (f : Fields) (lit : BitVec 32) : Except DecodeError Instr :=
  match f.fmt with
  | 0 =>
    if ¬(f.mod / 16 = 0) then .error .mustBeZero else if ¬(f.mod / 2 % 8 < 5) then .error .unassigned else .ok (.tscale (Guard.ofCode f.g) (Reg.ofCode (f.d)) (Reg.ofCode (f.a)) (Reg.ofCode (f.b)) (Reg.ofCode (f.c)) (Rm.ofCode (f.mod / 2 % 8)) (Bool.ofCode (f.mod % 2)))
  | 1 =>
    if ¬(f.c = 0 ∧ f.mod / 16 = 0) then .error .mustBeZero else if ¬(f.mod / 2 % 8 < 5) then .error .unassigned else .ok (.tscaleRL (Guard.ofCode f.g) (Reg.ofCode (f.d)) (Reg.ofCode (f.a)) (Reg.ofCode (f.b)) (Rm.ofCode (f.mod / 2 % 8)) (Bool.ofCode (f.mod % 2)) lit)
  | 2 =>
    .ok (.tscaleRK (Guard.ofCode f.g) (Reg.ofCode (f.d)) (Reg.ofCode (f.a)) (Reg.ofCode (f.b)) (Rm.ofCode (f.mod / 2 % 2)) (Bool.ofCode (f.mod % 2)) (BitVec.ofNat 8 (f.c * 32 + f.mod / 4)))
  | _ => .error .noFormat

/-- Major 0x4A: tcvt. -/
def decode4A (f : Fields) (_lit : BitVec 32) : Except DecodeError Instr :=
  match f.fmt with
  | 0 =>
    if ¬(f.c = 0 ∧ f.mod / 16 = 0) then .error .mustBeZero else if ¬(f.mod / 2 % 8 < 5) then .error .unassigned else .ok (.tcvt (Guard.ofCode f.g) (Reg.ofCode (f.d)) (Reg.ofCode (f.a)) (Reg.ofCode (f.b)) (Rm.ofCode (f.mod / 2 % 8)) (Bool.ofCode (f.mod % 2)))
  | _ => .error .noFormat

/-- Major 0x4B: tredmax, tredsum. -/
def decode4B (f : Fields) (_lit : BitVec 32) : Except DecodeError Instr :=
  match f.fmt with
  | 0 =>
    match f.mod / 64 with
    | 0 =>
      if ¬(f.b = 0 ∧ f.c = 0 ∧ f.mod % 2 = 0) then .error .mustBeZero else if ¬(f.mod / 2 % 8 < 4) then .error .unassigned else .ok (.tredmax (Guard.ofCode f.g) (Reg.ofCode (f.d)) (Reg.ofCode (f.a)) (Bool.ofCode (f.mod / 32 % 2)) (Bool.ofCode (f.mod / 16 % 2)) (Rm.ofCode (f.mod / 2 % 8)))
    | 1 =>
      if ¬(f.b = 0 ∧ f.c = 0 ∧ f.mod % 2 = 0 ∧ f.mod / 16 % 2 = 0) then .error .mustBeZero else if ¬(f.mod / 2 % 8 < 4) then .error .unassigned else .ok (.tredsum (Guard.ofCode f.g) (Reg.ofCode (f.d)) (Reg.ofCode (f.a)) (Bool.ofCode (f.mod / 32 % 2)) (Rm.ofCode (f.mod / 2 % 8)))
    | _ => .error .noSelector
  | _ => .error .noFormat

/-- Major 0x4C: ttrans. -/
def decode4C (f : Fields) (_lit : BitVec 32) : Except DecodeError Instr :=
  match f.fmt with
  | 0 =>
    if ¬(f.b = 0 ∧ f.c = 0 ∧ f.mod / 16 = 0) then .error .mustBeZero else if ¬(f.mod / 2 % 8 < 4) then .error .unassigned else .ok (.ttrans (Guard.ofCode f.g) (Reg.ofCode (f.d)) (Reg.ofCode (f.a)) (Rm.ofCode (f.mod / 2 % 8)) (Bool.ofCode (f.mod % 2)))
  | _ => .error .noFormat

/-- Major 0x4D: tfill. -/
def decode4D (f : Fields) (lit : BitVec 32) : Except DecodeError Instr :=
  match f.fmt with
  | 0 =>
    if ¬(f.a = 0 ∧ f.c = 0 ∧ f.mod / 16 % 2 = 0 ∧ f.mod / 64 = 0) then .error .mustBeZero else if ¬(f.mod / 2 % 8 < 4) then .error .unassigned else .ok (.tfill (Guard.ofCode f.g) (Reg.ofCode (f.d)) (Reg.ofCode (f.b)) (Bool.ofCode (f.mod / 32 % 2)) (Rm.ofCode (f.mod / 2 % 8)) (Bool.ofCode (f.mod % 2)))
  | 1 =>
    if ¬(f.a = 0 ∧ f.b = 0 ∧ f.c = 0 ∧ f.mod / 16 % 2 = 0 ∧ f.mod / 64 = 0) then .error .mustBeZero else if ¬(f.mod / 2 % 8 < 4) then .error .unassigned else .ok (.tfillRL (Guard.ofCode f.g) (Reg.ofCode (f.d)) (Bool.ofCode (f.mod / 32 % 2)) (Rm.ofCode (f.mod / 2 % 8)) (Bool.ofCode (f.mod % 2)) lit)
  | 2 =>
    if ¬(f.a = 0 ∧ f.b = 0) then .error .mustBeZero else .ok (.tfillRK (Guard.ofCode f.g) (Reg.ofCode (f.d)) (Rm.ofCode (f.mod / 2 % 2)) (Bool.ofCode (f.mod % 2)) (BitVec.ofNat 8 (f.c * 32 + f.mod / 4)))
  | _ => .error .noFormat

/-- Major 0x4E: tget. -/
def decode4E (f : Fields) (lit : BitVec 32) : Except DecodeError Instr :=
  match f.fmt with
  | 0 =>
    if ¬(f.c = 0 ∧ f.mod = 0) then .error .mustBeZero else .ok (.tget (Guard.ofCode f.g) (Reg.ofCode (f.d)) (Reg.ofCode (f.a)) (Reg.ofCode (f.b)))
  | 1 =>
    if ¬(f.b = 0 ∧ f.c = 0 ∧ f.mod = 0) then .error .mustBeZero else .ok (.tgetRL (Guard.ofCode f.g) (Reg.ofCode (f.d)) (Reg.ofCode (f.a)) lit)
  | 2 =>
    if ¬(f.b = 0 ∧ f.mod % 4 = 0) then .error .mustBeZero else .ok (.tgetRK (Guard.ofCode f.g) (Reg.ofCode (f.d)) (Reg.ofCode (f.a)) (BitVec.ofNat 8 (f.c * 32 + f.mod / 4)))
  | 3 =>
    .ok (.tgetRI (Guard.ofCode f.g) (Reg.ofCode (f.d)) (Reg.ofCode (f.a)) (BitVec.ofNat 13 (f.b * 1024 + f.c * 128 + f.mod)))
  | _ => .error .noFormat

/-- Major 0x4F: tset. -/
def decode4F (f : Fields) (lit : BitVec 32) : Except DecodeError Instr :=
  match f.fmt with
  | 0 =>
    if ¬(f.c = 0 ∧ f.mod = 0) then .error .mustBeZero else .ok (.tset (Guard.ofCode f.g) (Reg.ofCode (f.d)) (Reg.ofCode (f.a)) (Reg.ofCode (f.b)))
  | 1 =>
    if ¬(f.b = 0 ∧ f.c = 0 ∧ f.mod = 0) then .error .mustBeZero else .ok (.tsetRL (Guard.ofCode f.g) (Reg.ofCode (f.d)) (Reg.ofCode (f.a)) lit)
  | 2 =>
    if ¬(f.b = 0 ∧ f.mod % 4 = 0) then .error .mustBeZero else .ok (.tsetRK (Guard.ofCode f.g) (Reg.ofCode (f.d)) (Reg.ofCode (f.a)) (BitVec.ofNat 8 (f.c * 32 + f.mod / 4)))
  | 3 =>
    .ok (.tsetRI (Guard.ofCode f.g) (Reg.ofCode (f.d)) (Reg.ofCode (f.a)) (BitVec.ofNat 13 (f.b * 1024 + f.c * 128 + f.mod)))
  | _ => .error .noFormat

/-- Major 0x50: mxm. -/
def decode50 (f : Fields) (lit : BitVec 32) : Except DecodeError Instr :=
  match f.fmt with
  | 0 =>
    if ¬(f.mod / 4 = 0) then .error .mustBeZero else .ok (.mxm (Guard.ofCode f.g) (Reg.ofCode (f.d)) (Reg.ofCode (f.a)) (Reg.ofCode (f.b)) (Reg.ofCode (f.c)) (Bool.ofCode (f.mod / 2 % 2)) (Bool.ofCode (f.mod % 2)))
  | 1 =>
    if ¬(f.c = 0 ∧ f.mod / 4 = 0) then .error .mustBeZero else .ok (.mxmRL (Guard.ofCode f.g) (Reg.ofCode (f.d)) (Reg.ofCode (f.a)) (Reg.ofCode (f.b)) (Bool.ofCode (f.mod / 2 % 2)) (Bool.ofCode (f.mod % 2)) lit)
  | 2 =>
    .ok (.mxmRK (Guard.ofCode f.g) (Reg.ofCode (f.d)) (Reg.ofCode (f.a)) (Reg.ofCode (f.b)) (Bool.ofCode (f.mod / 2 % 2)) (Bool.ofCode (f.mod % 2)) (BitVec.ofNat 8 (f.c * 32 + f.mod / 4)))
  | _ => .error .noFormat

/-- Major 0x51: mxmz. -/
def decode51 (f : Fields) (lit : BitVec 32) : Except DecodeError Instr :=
  match f.fmt with
  | 0 =>
    if ¬(f.mod / 4 = 0) then .error .mustBeZero else .ok (.mxmz (Guard.ofCode f.g) (Reg.ofCode (f.d)) (Reg.ofCode (f.a)) (Reg.ofCode (f.b)) (Reg.ofCode (f.c)) (Bool.ofCode (f.mod / 2 % 2)) (Bool.ofCode (f.mod % 2)))
  | 1 =>
    if ¬(f.c = 0 ∧ f.mod / 4 = 0) then .error .mustBeZero else .ok (.mxmzRL (Guard.ofCode f.g) (Reg.ofCode (f.d)) (Reg.ofCode (f.a)) (Reg.ofCode (f.b)) (Bool.ofCode (f.mod / 2 % 2)) (Bool.ofCode (f.mod % 2)) lit)
  | 2 =>
    .ok (.mxmzRK (Guard.ofCode f.g) (Reg.ofCode (f.d)) (Reg.ofCode (f.a)) (Reg.ofCode (f.b)) (Bool.ofCode (f.mod / 2 % 2)) (Bool.ofCode (f.mod % 2)) (BitVec.ofNat 8 (f.c * 32 + f.mod / 4)))
  | _ => .error .noFormat

/-- Major 0x52: mxflush. -/
def decode52 (f : Fields) (_lit : BitVec 32) : Except DecodeError Instr :=
  match f.fmt with
  | 0 =>
    if ¬(f.d = 0 ∧ f.b = 0 ∧ f.c = 0 ∧ f.mod / 2 = 0) then .error .mustBeZero else .ok (.mxflush (Guard.ofCode f.g) (Reg.ofCode (f.a)) (Bool.ofCode (f.mod % 2)))
  | _ => .error .noFormat

/-- Major 0x53: mxnorm, mxexp. -/
def decode53 (f : Fields) (lit : BitVec 32) : Except DecodeError Instr :=
  match f.fmt with
  | 0 =>
    match f.mod / 64 with
    | 0 =>
      if ¬(f.c = 0 ∧ f.mod % 64 = 0) then .error .mustBeZero else .ok (.mxnorm (Guard.ofCode f.g) (Reg.ofCode (f.d)) (Reg.ofCode (f.a)) (Reg.ofCode (f.b)))
    | 1 =>
      if ¬(f.b = 0 ∧ f.c = 0 ∧ f.mod / 2 % 32 = 0) then .error .mustBeZero else .ok (.mxexp (Guard.ofCode f.g) (Reg.ofCode (f.d)) (Reg.ofCode (f.a)) (Bool.ofCode (f.mod % 2)))
    | _ => .error .noSelector
  | 1 =>
    match f.mod / 64 with
    | 0 =>
      if ¬(f.b = 0 ∧ f.c = 0 ∧ f.mod % 64 = 0) then .error .mustBeZero else .ok (.mxnormRL (Guard.ofCode f.g) (Reg.ofCode (f.d)) (Reg.ofCode (f.a)) lit)
    | _ => .error .noSelector
  | _ => .error .noFormat

/-- Major 0x54: ld. -/
def decode54 (f : Fields) (lit : BitVec 32) : Except DecodeError Instr :=
  match f.fmt with
  | 0 =>
    if ¬(f.mod / 32 = 0) then .error .mustBeZero else if ¬(f.c < 6 ∧ f.mod / 8 % 4 < 3) then .error .unassigned else .ok (.ld (Guard.ofCode f.g) (Reg.ofCode (f.d)) (Reg.ofCode (f.a)) (Reg.ofCode (f.b)) (Scope.ofAccessCode (f.c)) (Space.ofCode (f.mod / 8 % 4)) (Bool.ofCode (f.mod / 4 % 2)) (Width.ofCode (f.mod % 4)))
  | 1 =>
    if ¬(f.b = 0 ∧ f.mod / 32 = 0) then .error .mustBeZero else if ¬(f.c < 6 ∧ f.mod / 8 % 4 < 3) then .error .unassigned else .ok (.ldRL (Guard.ofCode f.g) (Reg.ofCode (f.d)) (Reg.ofCode (f.a)) (Scope.ofAccessCode (f.c)) (Space.ofCode (f.mod / 8 % 4)) (Bool.ofCode (f.mod / 4 % 2)) (Width.ofCode (f.mod % 4)) lit)
  | 2 =>
    if ¬(f.b = 0) then .error .mustBeZero else .ok (.ldRK (Guard.ofCode f.g) (Reg.ofCode (f.d)) (Reg.ofCode (f.a)) (Width.ofCode (f.mod % 4)) (BitVec.ofNat 8 (f.c * 32 + f.mod / 4)))
  | 3 =>
    .ok (.ldRI (Guard.ofCode f.g) (Reg.ofCode (f.d)) (Reg.ofCode (f.a)) (BitVec.ofNat 13 (f.b * 1024 + f.c * 128 + f.mod)))
  | _ => .error .noFormat

/-- Major 0x55: st. -/
def decode55 (f : Fields) (lit : BitVec 32) : Except DecodeError Instr :=
  match f.fmt with
  | 0 =>
    if ¬(f.mod / 4 % 2 = 0 ∧ f.mod / 32 = 0) then .error .mustBeZero else if ¬(f.c < 6 ∧ f.mod / 8 % 4 < 3) then .error .unassigned else .ok (.st (Guard.ofCode f.g) (Reg.ofCode (f.d)) (Reg.ofCode (f.a)) (Reg.ofCode (f.b)) (Scope.ofAccessCode (f.c)) (Space.ofCode (f.mod / 8 % 4)) (Width.ofCode (f.mod % 4)))
  | 1 =>
    if ¬(f.b = 0 ∧ f.mod / 4 % 2 = 0 ∧ f.mod / 32 = 0) then .error .mustBeZero else if ¬(f.c < 6 ∧ f.mod / 8 % 4 < 3) then .error .unassigned else .ok (.stRL (Guard.ofCode f.g) (Reg.ofCode (f.d)) (Reg.ofCode (f.a)) (Scope.ofAccessCode (f.c)) (Space.ofCode (f.mod / 8 % 4)) (Width.ofCode (f.mod % 4)) lit)
  | 2 =>
    if ¬(f.b = 0) then .error .mustBeZero else .ok (.stRK (Guard.ofCode f.g) (Reg.ofCode (f.d)) (Reg.ofCode (f.a)) (Width.ofCode (f.mod % 4)) (BitVec.ofNat 8 (f.c * 32 + f.mod / 4)))
  | 3 =>
    .ok (.stRI (Guard.ofCode f.g) (Reg.ofCode (f.d)) (Reg.ofCode (f.a)) (BitVec.ofNat 13 (f.b * 1024 + f.c * 128 + f.mod)))
  | _ => .error .noFormat

/-- Major 0x56: ld2. -/
def decode56 (f : Fields) (lit : BitVec 32) : Except DecodeError Instr :=
  match f.fmt with
  | 0 =>
    if ¬(f.mod % 8 = 0 ∧ f.mod / 32 = 0) then .error .mustBeZero else if ¬(f.c < 6 ∧ f.mod / 8 % 4 < 3) then .error .unassigned else .ok (.ld2 (Guard.ofCode f.g) (Reg.ofCode (f.d)) (Reg.ofCode (f.a)) (Reg.ofCode (f.b)) (Scope.ofAccessCode (f.c)) (Space.ofCode (f.mod / 8 % 4)))
  | 1 =>
    if ¬(f.b = 0 ∧ f.mod % 8 = 0 ∧ f.mod / 32 = 0) then .error .mustBeZero else if ¬(f.c < 6 ∧ f.mod / 8 % 4 < 3) then .error .unassigned else .ok (.ld2RL (Guard.ofCode f.g) (Reg.ofCode (f.d)) (Reg.ofCode (f.a)) (Scope.ofAccessCode (f.c)) (Space.ofCode (f.mod / 8 % 4)) lit)
  | 2 =>
    if ¬(f.b = 0 ∧ f.mod % 4 = 0) then .error .mustBeZero else .ok (.ld2RK (Guard.ofCode f.g) (Reg.ofCode (f.d)) (Reg.ofCode (f.a)) (BitVec.ofNat 8 (f.c * 32 + f.mod / 4)))
  | 3 =>
    .ok (.ld2RI (Guard.ofCode f.g) (Reg.ofCode (f.d)) (Reg.ofCode (f.a)) (BitVec.ofNat 13 (f.b * 1024 + f.c * 128 + f.mod)))
  | _ => .error .noFormat

/-- Major 0x57: st2. -/
def decode57 (f : Fields) (lit : BitVec 32) : Except DecodeError Instr :=
  match f.fmt with
  | 0 =>
    if ¬(f.mod % 8 = 0 ∧ f.mod / 32 = 0) then .error .mustBeZero else if ¬(f.c < 6 ∧ f.mod / 8 % 4 < 3) then .error .unassigned else .ok (.st2 (Guard.ofCode f.g) (Reg.ofCode (f.d)) (Reg.ofCode (f.a)) (Reg.ofCode (f.b)) (Scope.ofAccessCode (f.c)) (Space.ofCode (f.mod / 8 % 4)))
  | 1 =>
    if ¬(f.b = 0 ∧ f.mod % 8 = 0 ∧ f.mod / 32 = 0) then .error .mustBeZero else if ¬(f.c < 6 ∧ f.mod / 8 % 4 < 3) then .error .unassigned else .ok (.st2RL (Guard.ofCode f.g) (Reg.ofCode (f.d)) (Reg.ofCode (f.a)) (Scope.ofAccessCode (f.c)) (Space.ofCode (f.mod / 8 % 4)) lit)
  | 2 =>
    if ¬(f.b = 0 ∧ f.mod % 4 = 0) then .error .mustBeZero else .ok (.st2RK (Guard.ofCode f.g) (Reg.ofCode (f.d)) (Reg.ofCode (f.a)) (BitVec.ofNat 8 (f.c * 32 + f.mod / 4)))
  | 3 =>
    .ok (.st2RI (Guard.ofCode f.g) (Reg.ofCode (f.d)) (Reg.ofCode (f.a)) (BitVec.ofNat 13 (f.b * 1024 + f.c * 128 + f.mod)))
  | _ => .error .noFormat

/-- Major 0x58: ldq. -/
def decode58 (f : Fields) (lit : BitVec 32) : Except DecodeError Instr :=
  match f.fmt with
  | 0 =>
    if ¬(f.c < 6 ∧ (Fmt.ofCode? (f.mod % 64)).isSome) then .error .unassigned else .ok (.ldq (Guard.ofCode f.g) (Reg.ofCode (f.d)) (Reg.ofCode (f.a)) (Reg.ofCode (f.b)) (Scope.ofAccessCode (f.c)) (Bool.ofCode (f.mod / 64)) (Fmt.ofCodeD (f.mod % 64)))
  | 1 =>
    if ¬(f.b = 0) then .error .mustBeZero else if ¬(f.c < 6 ∧ (Fmt.ofCode? (f.mod % 64)).isSome) then .error .unassigned else .ok (.ldqRL (Guard.ofCode f.g) (Reg.ofCode (f.d)) (Reg.ofCode (f.a)) (Scope.ofAccessCode (f.c)) (Bool.ofCode (f.mod / 64)) (Fmt.ofCodeD (f.mod % 64)) lit)
  | _ => .error .noFormat

/-- Major 0x59: ldb. -/
def decode59 (f : Fields) (lit : BitVec 32) : Except DecodeError Instr :=
  match f.fmt with
  | 0 =>
    if ¬(f.mod / 32 = 0) then .error .mustBeZero else if ¬(f.mod / 8 % 4 < 3) then .error .unassigned else .ok (.ldb (Guard.ofCode f.g) (Reg.ofCode (f.d)) (Reg.ofCode (f.a)) (Reg.ofCode (f.b)) (Reg.ofCode (f.c)) (Space.ofCode (f.mod / 8 % 4)) (Bool.ofCode (f.mod / 4 % 2)) (Width.ofCode (f.mod % 4)))
  | 1 =>
    if ¬(f.c = 0 ∧ f.mod / 32 = 0) then .error .mustBeZero else if ¬(f.mod / 8 % 4 < 3) then .error .unassigned else .ok (.ldbRL (Guard.ofCode f.g) (Reg.ofCode (f.d)) (Reg.ofCode (f.a)) (Reg.ofCode (f.b)) (Space.ofCode (f.mod / 8 % 4)) (Bool.ofCode (f.mod / 4 % 2)) (Width.ofCode (f.mod % 4)) lit)
  | 2 =>
    .ok (.ldbRK (Guard.ofCode f.g) (Reg.ofCode (f.d)) (Reg.ofCode (f.a)) (Reg.ofCode (f.b)) (Width.ofCode (f.mod % 4)) (BitVec.ofNat 8 (f.c * 32 + f.mod / 4)))
  | _ => .error .noFormat

/-- Major 0x5A: ldfe. -/
def decode5A (f : Fields) (lit : BitVec 32) : Except DecodeError Instr :=
  match f.fmt with
  | 0 =>
    if ¬(f.c = 0 ∧ f.mod / 8 = 0) then .error .mustBeZero else if ¬(f.mod % 4 < 3) then .error .unassigned else .ok (.ldfe (Guard.ofCode f.g) (Reg.ofCode (f.d)) (Reg.ofCode (f.a)) (Reg.ofCode (f.b)) (Bool.ofCode (f.mod / 4 % 2)) (Space.ofCode (f.mod % 4)))
  | 1 =>
    if ¬(f.b = 0 ∧ f.c = 0 ∧ f.mod / 8 = 0) then .error .mustBeZero else if ¬(f.mod % 4 < 3) then .error .unassigned else .ok (.ldfeRL (Guard.ofCode f.g) (Reg.ofCode (f.d)) (Reg.ofCode (f.a)) (Bool.ofCode (f.mod / 4 % 2)) (Space.ofCode (f.mod % 4)) lit)
  | 2 =>
    if ¬(f.b = 0) then .error .mustBeZero else if ¬(f.mod % 4 < 3) then .error .unassigned else .ok (.ldfeRK (Guard.ofCode f.g) (Reg.ofCode (f.d)) (Reg.ofCode (f.a)) (Space.ofCode (f.mod % 4)) (BitVec.ofNat 8 (f.c * 32 + f.mod / 4)))
  | 3 =>
    .ok (.ldfeRI (Guard.ofCode f.g) (Reg.ofCode (f.d)) (Reg.ofCode (f.a)) (BitVec.ofNat 13 (f.b * 1024 + f.c * 128 + f.mod)))
  | _ => .error .noFormat

/-- Major 0x5B: stfe. -/
def decode5B (f : Fields) (lit : BitVec 32) : Except DecodeError Instr :=
  match f.fmt with
  | 0 =>
    if ¬(f.c = 0 ∧ f.mod / 4 = 0) then .error .mustBeZero else if ¬(f.mod % 4 < 3) then .error .unassigned else .ok (.stfe (Guard.ofCode f.g) (Reg.ofCode (f.d)) (Reg.ofCode (f.a)) (Reg.ofCode (f.b)) (Space.ofCode (f.mod % 4)))
  | 1 =>
    if ¬(f.b = 0 ∧ f.c = 0 ∧ f.mod / 4 = 0) then .error .mustBeZero else if ¬(f.mod % 4 < 3) then .error .unassigned else .ok (.stfeRL (Guard.ofCode f.g) (Reg.ofCode (f.d)) (Reg.ofCode (f.a)) (Space.ofCode (f.mod % 4)) lit)
  | 2 =>
    if ¬(f.b = 0) then .error .mustBeZero else if ¬(f.mod % 4 < 3) then .error .unassigned else .ok (.stfeRK (Guard.ofCode f.g) (Reg.ofCode (f.d)) (Reg.ofCode (f.a)) (Space.ofCode (f.mod % 4)) (BitVec.ofNat 8 (f.c * 32 + f.mod / 4)))
  | 3 =>
    .ok (.stfeRI (Guard.ofCode f.g) (Reg.ofCode (f.d)) (Reg.ofCode (f.a)) (BitVec.ofNat 13 (f.b * 1024 + f.c * 128 + f.mod)))
  | _ => .error .noFormat

/-- Major 0x5C: feset. -/
def decode5C (f : Fields) (lit : BitVec 32) : Except DecodeError Instr :=
  match f.fmt with
  | 0 =>
    if ¬(f.d = 0 ∧ f.c = 0 ∧ f.mod / 8 = 0) then .error .mustBeZero else if ¬(f.mod % 4 < 3) then .error .unassigned else .ok (.feset (Guard.ofCode f.g) (Reg.ofCode (f.a)) (Reg.ofCode (f.b)) (Bool.ofCode (f.mod / 4 % 2)) (Space.ofCode (f.mod % 4)))
  | 1 =>
    if ¬(f.d = 0 ∧ f.b = 0 ∧ f.c = 0 ∧ f.mod / 8 = 0) then .error .mustBeZero else if ¬(f.mod % 4 < 3) then .error .unassigned else .ok (.fesetRL (Guard.ofCode f.g) (Reg.ofCode (f.a)) (Bool.ofCode (f.mod / 4 % 2)) (Space.ofCode (f.mod % 4)) lit)
  | 2 =>
    if ¬(f.d = 0 ∧ f.b = 0) then .error .mustBeZero else if ¬(f.mod % 4 < 3) then .error .unassigned else .ok (.fesetRK (Guard.ofCode f.g) (Reg.ofCode (f.a)) (Space.ofCode (f.mod % 4)) (BitVec.ofNat 8 (f.c * 32 + f.mod / 4)))
  | 3 =>
    if ¬(f.d = 0) then .error .mustBeZero else .ok (.fesetRI (Guard.ofCode f.g) (Reg.ofCode (f.a)) (BitVec.ofNat 13 (f.b * 1024 + f.c * 128 + f.mod)))
  | _ => .error .noFormat

/-- Major 0x5D: pref. -/
def decode5D (f : Fields) (lit : BitVec 32) : Except DecodeError Instr :=
  match f.fmt with
  | 0 =>
    if ¬(f.d = 0 ∧ f.c = 0 ∧ f.mod / 2 = 0) then .error .mustBeZero else .ok (.pref (Guard.ofCode f.g) (Reg.ofCode (f.a)) (Reg.ofCode (f.b)) (Bool.ofCode (f.mod % 2)))
  | 1 =>
    if ¬(f.d = 0 ∧ f.b = 0 ∧ f.c = 0 ∧ f.mod / 2 = 0) then .error .mustBeZero else .ok (.prefRL (Guard.ofCode f.g) (Reg.ofCode (f.a)) (Bool.ofCode (f.mod % 2)) lit)
  | 2 =>
    if ¬(f.d = 0 ∧ f.b = 0 ∧ f.mod / 2 % 2 = 0) then .error .mustBeZero else .ok (.prefRK (Guard.ofCode f.g) (Reg.ofCode (f.a)) (Bool.ofCode (f.mod % 2)) (BitVec.ofNat 8 (f.c * 32 + f.mod / 4)))
  | 3 =>
    if ¬(f.d = 0) then .error .mustBeZero else .ok (.prefRI (Guard.ofCode f.g) (Reg.ofCode (f.a)) (BitVec.ofNat 13 (f.b * 1024 + f.c * 128 + f.mod)))
  | _ => .error .noFormat

/-- Major 0x5E: cwb. -/
def decode5E (f : Fields) (lit : BitVec 32) : Except DecodeError Instr :=
  match f.fmt with
  | 0 =>
    if ¬(f.d = 0 ∧ f.c = 0 ∧ f.mod = 0) then .error .mustBeZero else .ok (.cwb (Guard.ofCode f.g) (Reg.ofCode (f.a)) (Reg.ofCode (f.b)))
  | 1 =>
    if ¬(f.d = 0 ∧ f.b = 0 ∧ f.c = 0 ∧ f.mod = 0) then .error .mustBeZero else .ok (.cwbRL (Guard.ofCode f.g) (Reg.ofCode (f.a)) lit)
  | 2 =>
    if ¬(f.d = 0 ∧ f.b = 0 ∧ f.mod % 4 = 0) then .error .mustBeZero else .ok (.cwbRK (Guard.ofCode f.g) (Reg.ofCode (f.a)) (BitVec.ofNat 8 (f.c * 32 + f.mod / 4)))
  | 3 =>
    if ¬(f.d = 0) then .error .mustBeZero else .ok (.cwbRI (Guard.ofCode f.g) (Reg.ofCode (f.a)) (BitVec.ofNat 13 (f.b * 1024 + f.c * 128 + f.mod)))
  | _ => .error .noFormat

/-- Major 0x5F: cinv. -/
def decode5F (f : Fields) (lit : BitVec 32) : Except DecodeError Instr :=
  match f.fmt with
  | 0 =>
    if ¬(f.d = 0 ∧ f.c = 0 ∧ f.mod = 0) then .error .mustBeZero else .ok (.cinv (Guard.ofCode f.g) (Reg.ofCode (f.a)) (Reg.ofCode (f.b)))
  | 1 =>
    if ¬(f.d = 0 ∧ f.b = 0 ∧ f.c = 0 ∧ f.mod = 0) then .error .mustBeZero else .ok (.cinvRL (Guard.ofCode f.g) (Reg.ofCode (f.a)) lit)
  | 2 =>
    if ¬(f.d = 0 ∧ f.b = 0 ∧ f.mod % 4 = 0) then .error .mustBeZero else .ok (.cinvRK (Guard.ofCode f.g) (Reg.ofCode (f.a)) (BitVec.ofNat 8 (f.c * 32 + f.mod / 4)))
  | 3 =>
    if ¬(f.d = 0) then .error .mustBeZero else .ok (.cinvRI (Guard.ofCode f.g) (Reg.ofCode (f.a)) (BitVec.ofNat 13 (f.b * 1024 + f.c * 128 + f.mod)))
  | _ => .error .noFormat

/-- Major 0x60: aadd. -/
def decode60 (f : Fields) (lit : BitVec 32) : Except DecodeError Instr :=
  match f.fmt with
  | 0 =>
    if ¬(f.c = 0 ∧ f.mod / 32 = 0) then .error .mustBeZero else if ¬(f.mod / 4 % 8 < 4 ∧ f.mod % 4 < 2) then .error .unassigned else .ok (.aadd (Guard.ofCode f.g) (Reg.ofCode (f.d)) (Reg.ofCode (f.a)) (Reg.ofCode (f.b)) (AOrd.ofCode (f.mod / 4 % 8)) (AWidth.ofCode (f.mod % 4)))
  | 1 =>
    if ¬(f.b = 0 ∧ f.c = 0 ∧ f.mod / 32 = 0) then .error .mustBeZero else if ¬(f.mod / 4 % 8 < 4 ∧ f.mod % 4 < 2) then .error .unassigned else .ok (.aaddRL (Guard.ofCode f.g) (Reg.ofCode (f.d)) (Reg.ofCode (f.a)) (AOrd.ofCode (f.mod / 4 % 8)) (AWidth.ofCode (f.mod % 4)) lit)
  | _ => .error .noFormat

/-- Major 0x61: aand, aor, axor. -/
def decode61 (f : Fields) (lit : BitVec 32) : Except DecodeError Instr :=
  match f.fmt with
  | 0 =>
    match f.mod / 32 with
    | 0 =>
      if ¬(f.c = 0) then .error .mustBeZero else if ¬(f.mod / 4 % 8 < 4 ∧ f.mod % 4 < 2) then .error .unassigned else .ok (.aand (Guard.ofCode f.g) (Reg.ofCode (f.d)) (Reg.ofCode (f.a)) (Reg.ofCode (f.b)) (AOrd.ofCode (f.mod / 4 % 8)) (AWidth.ofCode (f.mod % 4)))
    | 1 =>
      if ¬(f.c = 0) then .error .mustBeZero else if ¬(f.mod / 4 % 8 < 4 ∧ f.mod % 4 < 2) then .error .unassigned else .ok (.aor (Guard.ofCode f.g) (Reg.ofCode (f.d)) (Reg.ofCode (f.a)) (Reg.ofCode (f.b)) (AOrd.ofCode (f.mod / 4 % 8)) (AWidth.ofCode (f.mod % 4)))
    | 2 =>
      if ¬(f.c = 0) then .error .mustBeZero else if ¬(f.mod / 4 % 8 < 4 ∧ f.mod % 4 < 2) then .error .unassigned else .ok (.axor (Guard.ofCode f.g) (Reg.ofCode (f.d)) (Reg.ofCode (f.a)) (Reg.ofCode (f.b)) (AOrd.ofCode (f.mod / 4 % 8)) (AWidth.ofCode (f.mod % 4)))
    | _ => .error .noSelector
  | 1 =>
    match f.mod / 32 with
    | 0 =>
      if ¬(f.b = 0 ∧ f.c = 0) then .error .mustBeZero else if ¬(f.mod / 4 % 8 < 4 ∧ f.mod % 4 < 2) then .error .unassigned else .ok (.aandRL (Guard.ofCode f.g) (Reg.ofCode (f.d)) (Reg.ofCode (f.a)) (AOrd.ofCode (f.mod / 4 % 8)) (AWidth.ofCode (f.mod % 4)) lit)
    | 1 =>
      if ¬(f.b = 0 ∧ f.c = 0) then .error .mustBeZero else if ¬(f.mod / 4 % 8 < 4 ∧ f.mod % 4 < 2) then .error .unassigned else .ok (.aorRL (Guard.ofCode f.g) (Reg.ofCode (f.d)) (Reg.ofCode (f.a)) (AOrd.ofCode (f.mod / 4 % 8)) (AWidth.ofCode (f.mod % 4)) lit)
    | 2 =>
      if ¬(f.b = 0 ∧ f.c = 0) then .error .mustBeZero else if ¬(f.mod / 4 % 8 < 4 ∧ f.mod % 4 < 2) then .error .unassigned else .ok (.axorRL (Guard.ofCode f.g) (Reg.ofCode (f.d)) (Reg.ofCode (f.a)) (AOrd.ofCode (f.mod / 4 % 8)) (AWidth.ofCode (f.mod % 4)) lit)
    | _ => .error .noSelector
  | _ => .error .noFormat

/-- Major 0x62: amin, amax. -/
def decode62 (f : Fields) (lit : BitVec 32) : Except DecodeError Instr :=
  match f.fmt with
  | 0 =>
    match f.mod / 64 with
    | 0 =>
      if ¬(f.c = 0 ∧ f.mod / 32 % 2 = 0) then .error .mustBeZero else if ¬(f.mod / 4 % 8 < 4 ∧ f.mod % 4 < 2) then .error .unassigned else .ok (.amin (Guard.ofCode f.g) (Reg.ofCode (f.d)) (Reg.ofCode (f.a)) (Reg.ofCode (f.b)) (AOrd.ofCode (f.mod / 4 % 8)) (AWidth.ofCode (f.mod % 4)))
    | 1 =>
      if ¬(f.c = 0 ∧ f.mod / 32 % 2 = 0) then .error .mustBeZero else if ¬(f.mod / 4 % 8 < 4 ∧ f.mod % 4 < 2) then .error .unassigned else .ok (.amax (Guard.ofCode f.g) (Reg.ofCode (f.d)) (Reg.ofCode (f.a)) (Reg.ofCode (f.b)) (AOrd.ofCode (f.mod / 4 % 8)) (AWidth.ofCode (f.mod % 4)))
    | _ => .error .noSelector
  | 1 =>
    match f.mod / 64 with
    | 0 =>
      if ¬(f.b = 0 ∧ f.c = 0 ∧ f.mod / 32 % 2 = 0) then .error .mustBeZero else if ¬(f.mod / 4 % 8 < 4 ∧ f.mod % 4 < 2) then .error .unassigned else .ok (.aminRL (Guard.ofCode f.g) (Reg.ofCode (f.d)) (Reg.ofCode (f.a)) (AOrd.ofCode (f.mod / 4 % 8)) (AWidth.ofCode (f.mod % 4)) lit)
    | 1 =>
      if ¬(f.b = 0 ∧ f.c = 0 ∧ f.mod / 32 % 2 = 0) then .error .mustBeZero else if ¬(f.mod / 4 % 8 < 4 ∧ f.mod % 4 < 2) then .error .unassigned else .ok (.amaxRL (Guard.ofCode f.g) (Reg.ofCode (f.d)) (Reg.ofCode (f.a)) (AOrd.ofCode (f.mod / 4 % 8)) (AWidth.ofCode (f.mod % 4)) lit)
    | _ => .error .noSelector
  | _ => .error .noFormat

/-- Major 0x63: aminu, amaxu. -/
def decode63 (f : Fields) (lit : BitVec 32) : Except DecodeError Instr :=
  match f.fmt with
  | 0 =>
    match f.mod / 64 with
    | 0 =>
      if ¬(f.c = 0 ∧ f.mod / 32 % 2 = 0) then .error .mustBeZero else if ¬(f.mod / 4 % 8 < 4 ∧ f.mod % 4 < 2) then .error .unassigned else .ok (.aminu (Guard.ofCode f.g) (Reg.ofCode (f.d)) (Reg.ofCode (f.a)) (Reg.ofCode (f.b)) (AOrd.ofCode (f.mod / 4 % 8)) (AWidth.ofCode (f.mod % 4)))
    | 1 =>
      if ¬(f.c = 0 ∧ f.mod / 32 % 2 = 0) then .error .mustBeZero else if ¬(f.mod / 4 % 8 < 4 ∧ f.mod % 4 < 2) then .error .unassigned else .ok (.amaxu (Guard.ofCode f.g) (Reg.ofCode (f.d)) (Reg.ofCode (f.a)) (Reg.ofCode (f.b)) (AOrd.ofCode (f.mod / 4 % 8)) (AWidth.ofCode (f.mod % 4)))
    | _ => .error .noSelector
  | 1 =>
    match f.mod / 64 with
    | 0 =>
      if ¬(f.b = 0 ∧ f.c = 0 ∧ f.mod / 32 % 2 = 0) then .error .mustBeZero else if ¬(f.mod / 4 % 8 < 4 ∧ f.mod % 4 < 2) then .error .unassigned else .ok (.aminuRL (Guard.ofCode f.g) (Reg.ofCode (f.d)) (Reg.ofCode (f.a)) (AOrd.ofCode (f.mod / 4 % 8)) (AWidth.ofCode (f.mod % 4)) lit)
    | 1 =>
      if ¬(f.b = 0 ∧ f.c = 0 ∧ f.mod / 32 % 2 = 0) then .error .mustBeZero else if ¬(f.mod / 4 % 8 < 4 ∧ f.mod % 4 < 2) then .error .unassigned else .ok (.amaxuRL (Guard.ofCode f.g) (Reg.ofCode (f.d)) (Reg.ofCode (f.a)) (AOrd.ofCode (f.mod / 4 % 8)) (AWidth.ofCode (f.mod % 4)) lit)
    | _ => .error .noSelector
  | _ => .error .noFormat

/-- Major 0x64: aswp. -/
def decode64 (f : Fields) (lit : BitVec 32) : Except DecodeError Instr :=
  match f.fmt with
  | 0 =>
    if ¬(f.c = 0 ∧ f.mod / 32 = 0) then .error .mustBeZero else if ¬(f.mod / 4 % 8 < 4 ∧ f.mod % 4 < 2) then .error .unassigned else .ok (.aswp (Guard.ofCode f.g) (Reg.ofCode (f.d)) (Reg.ofCode (f.a)) (Reg.ofCode (f.b)) (AOrd.ofCode (f.mod / 4 % 8)) (AWidth.ofCode (f.mod % 4)))
  | 1 =>
    if ¬(f.b = 0 ∧ f.c = 0 ∧ f.mod / 32 = 0) then .error .mustBeZero else if ¬(f.mod / 4 % 8 < 4 ∧ f.mod % 4 < 2) then .error .unassigned else .ok (.aswpRL (Guard.ofCode f.g) (Reg.ofCode (f.d)) (Reg.ofCode (f.a)) (AOrd.ofCode (f.mod / 4 % 8)) (AWidth.ofCode (f.mod % 4)) lit)
  | _ => .error .noFormat

/-- Major 0x65: acas. -/
def decode65 (f : Fields) (lit : BitVec 32) : Except DecodeError Instr :=
  match f.fmt with
  | 0 =>
    if ¬(f.mod / 32 = 0) then .error .mustBeZero else if ¬(f.mod / 4 % 8 < 4 ∧ f.mod % 4 < 3) then .error .unassigned else .ok (.acas (Guard.ofCode f.g) (Reg.ofCode (f.d)) (Reg.ofCode (f.a)) (Reg.ofCode (f.b)) (Reg.ofCode (f.c)) (AOrd.ofCode (f.mod / 4 % 8)) (CasWidth.ofCode (f.mod % 4)))
  | 1 =>
    if ¬(f.c = 0 ∧ f.mod / 32 = 0) then .error .mustBeZero else if ¬(f.mod / 4 % 8 < 4 ∧ f.mod % 4 < 3) then .error .unassigned else .ok (.acasRL (Guard.ofCode f.g) (Reg.ofCode (f.d)) (Reg.ofCode (f.a)) (Reg.ofCode (f.b)) (AOrd.ofCode (f.mod / 4 % 8)) (CasWidth.ofCode (f.mod % 4)) lit)
  | _ => .error .noFormat

/-- Major 0x66: afadd. -/
def decode66 (f : Fields) (lit : BitVec 32) : Except DecodeError Instr :=
  match f.fmt with
  | 0 =>
    if ¬(f.c = 0 ∧ f.mod / 32 = 0) then .error .mustBeZero else if ¬(f.mod / 4 % 8 < 4 ∧ f.mod % 4 < 2) then .error .unassigned else .ok (.afadd (Guard.ofCode f.g) (Reg.ofCode (f.d)) (Reg.ofCode (f.a)) (Reg.ofCode (f.b)) (AOrd.ofCode (f.mod / 4 % 8)) (AFmt.ofCode (f.mod % 4)))
  | 1 =>
    if ¬(f.b = 0 ∧ f.c = 0 ∧ f.mod / 32 = 0) then .error .mustBeZero else if ¬(f.mod / 4 % 8 < 4 ∧ f.mod % 4 < 2) then .error .unassigned else .ok (.afaddRL (Guard.ofCode f.g) (Reg.ofCode (f.d)) (Reg.ofCode (f.a)) (AOrd.ofCode (f.mod / 4 % 8)) (AFmt.ofCode (f.mod % 4)) lit)
  | _ => .error .noFormat

/-- Major 0x67: axadd. -/
def decode67 (f : Fields) (lit : BitVec 32) : Except DecodeError Instr :=
  match f.fmt with
  | 0 =>
    if ¬(f.c = 0 ∧ f.mod / 32 = 0) then .error .mustBeZero else if ¬(f.mod / 4 % 8 < 4 ∧ f.mod % 4 < 2) then .error .unassigned else .ok (.axadd (Guard.ofCode f.g) (Reg.ofCode (f.d)) (Reg.ofCode (f.a)) (Reg.ofCode (f.b)) (AOrd.ofCode (f.mod / 4 % 8)) (AFmt.ofCode (f.mod % 4)))
  | 1 =>
    if ¬(f.b = 0 ∧ f.c = 0 ∧ f.mod / 32 = 0) then .error .mustBeZero else if ¬(f.mod / 4 % 8 < 4 ∧ f.mod % 4 < 2) then .error .unassigned else .ok (.axaddRL (Guard.ofCode f.g) (Reg.ofCode (f.d)) (Reg.ofCode (f.a)) (AOrd.ofCode (f.mod / 4 % 8)) (AFmt.ofCode (f.mod % 4)) lit)
  | _ => .error .noFormat

/-- Major 0x68: fence. -/
def decode68 (f : Fields) (_lit : BitVec 32) : Except DecodeError Instr :=
  match f.fmt with
  | 0 =>
    if ¬(f.d = 0 ∧ f.a = 0 ∧ f.b = 0 ∧ f.c = 0 ∧ f.mod / 8 = 0) then .error .mustBeZero else if ¬(f.mod % 8 < 5) then .error .unassigned else .ok (.fence (Guard.ofCode f.g) (Scope.ofFenceCode (f.mod % 8)))
  | _ => .error .noFormat

/-- Major 0x69: bara, barc. -/
def decode69 (f : Fields) (lit : BitVec 32) : Except DecodeError Instr :=
  match f.fmt with
  | 0 =>
    match f.mod / 64 with
    | 0 =>
      if ¬(f.c = 0 ∧ f.mod % 64 = 0) then .error .mustBeZero else .ok (.bara (Guard.ofCode f.g) (Reg.ofCode (f.d)) (Reg.ofCode (f.a)) (Reg.ofCode (f.b)))
    | 1 =>
      if ¬(f.c = 0 ∧ f.mod % 64 = 0) then .error .mustBeZero else .ok (.barc (Guard.ofCode f.g) (Reg.ofCode (f.d)) (Reg.ofCode (f.a)) (Reg.ofCode (f.b)))
    | _ => .error .noSelector
  | 1 =>
    match f.mod / 64 with
    | 0 =>
      if ¬(f.b = 0 ∧ f.c = 0 ∧ f.mod % 64 = 0) then .error .mustBeZero else .ok (.baraRL (Guard.ofCode f.g) (Reg.ofCode (f.d)) (Reg.ofCode (f.a)) lit)
    | 1 =>
      if ¬(f.b = 0 ∧ f.c = 0 ∧ f.mod % 64 = 0) then .error .mustBeZero else .ok (.barcRL (Guard.ofCode f.g) (Reg.ofCode (f.d)) (Reg.ofCode (f.a)) lit)
    | _ => .error .noSelector
  | _ => .error .noFormat

/-- Major 0x6A: swait. -/
def decode6A (f : Fields) (lit : BitVec 32) : Except DecodeError Instr :=
  match f.fmt with
  | 0 =>
    if ¬(f.c = 0 ∧ f.mod = 0) then .error .mustBeZero else .ok (.swait (Guard.ofCode f.g) (Reg.ofCode (f.d)) (Reg.ofCode (f.a)) (Reg.ofCode (f.b)))
  | 1 =>
    if ¬(f.b = 0 ∧ f.c = 0 ∧ f.mod = 0) then .error .mustBeZero else .ok (.swaitRL (Guard.ofCode f.g) (Reg.ofCode (f.d)) (Reg.ofCode (f.a)) lit)
  | 2 =>
    if ¬(f.b = 0 ∧ f.mod % 4 = 0) then .error .mustBeZero else .ok (.swaitRK (Guard.ofCode f.g) (Reg.ofCode (f.d)) (Reg.ofCode (f.a)) (BitVec.ofNat 8 (f.c * 32 + f.mod / 4)))
  | 3 =>
    .ok (.swaitRI (Guard.ofCode f.g) (Reg.ofCode (f.d)) (Reg.ofCode (f.a)) (BitVec.ofNat 13 (f.b * 1024 + f.c * 128 + f.mod)))
  | _ => .error .noFormat

/-- Major 0x6B: sarm. -/
def decode6B (f : Fields) (lit : BitVec 32) : Except DecodeError Instr :=
  match f.fmt with
  | 0 =>
    if ¬(f.mod / 64 = 0) then .error .mustBeZero else if ¬(f.mod / 16 % 4 < 3) then .error .unassigned else .ok (.sarm (Guard.ofCode f.g) (Reg.ofCode (f.d)) (Reg.ofCode (f.a)) (Reg.ofCode (f.b)) (Reg.ofCode (f.c)) (Space.ofCode (f.mod / 16 % 4)) (Bool.ofCode (f.mod / 8 % 2)) (Reg.ofCode (f.mod % 8)))
  | 1 =>
    if ¬(f.c = 0 ∧ f.mod / 64 = 0) then .error .mustBeZero else if ¬(f.mod / 16 % 4 < 3) then .error .unassigned else .ok (.sarmRL (Guard.ofCode f.g) (Reg.ofCode (f.d)) (Reg.ofCode (f.a)) (Reg.ofCode (f.b)) (Space.ofCode (f.mod / 16 % 4)) (Bool.ofCode (f.mod / 8 % 2)) (Reg.ofCode (f.mod % 8)) lit)
  | _ => .error .noFormat

/-- Major 0x6C: cpy, cpy2, cpyg. -/
def decode6C (f : Fields) (lit : BitVec 32) : Except DecodeError Instr :=
  match f.fmt with
  | 0 =>
    match f.mod / 32 with
    | 0 =>
      if ¬(f.mod / 8 % 4 = 0) then .error .mustBeZero else .ok (.cpy (Guard.ofCode f.g) (Reg.ofCode (f.d)) (Reg.ofCode (f.a)) (Reg.ofCode (f.b)) (Reg.ofCode (f.c)) (Reg.ofCode (f.mod % 8)))
    | 1 =>
      if ¬(f.mod / 8 % 4 = 0) then .error .mustBeZero else .ok (.cpy2 (Guard.ofCode f.g) (Reg.ofCode (f.d)) (Reg.ofCode (f.a)) (Reg.ofCode (f.b)) (Reg.ofCode (f.c)) (Reg.ofCode (f.mod % 8)))
    | 2 =>
      if ¬(f.mod / 8 % 4 = 0) then .error .mustBeZero else .ok (.cpyg (Guard.ofCode f.g) (Reg.ofCode (f.d)) (Reg.ofCode (f.a)) (Reg.ofCode (f.b)) (Reg.ofCode (f.c)) (Reg.ofCode (f.mod % 8)))
    | _ => .error .noSelector
  | 1 =>
    match f.mod / 32 with
    | 0 =>
      if ¬(f.c = 0 ∧ f.mod / 8 % 4 = 0) then .error .mustBeZero else .ok (.cpyRL (Guard.ofCode f.g) (Reg.ofCode (f.d)) (Reg.ofCode (f.a)) (Reg.ofCode (f.b)) (Reg.ofCode (f.mod % 8)) lit)
    | 1 =>
      if ¬(f.c = 0 ∧ f.mod / 8 % 4 = 0) then .error .mustBeZero else .ok (.cpy2RL (Guard.ofCode f.g) (Reg.ofCode (f.d)) (Reg.ofCode (f.a)) (Reg.ofCode (f.b)) (Reg.ofCode (f.mod % 8)) lit)
    | _ => .error .noSelector
  | _ => .error .noFormat

/-- Major 0x6D: tload, tstore. -/
def decode6D (f : Fields) (lit : BitVec 32) : Except DecodeError Instr :=
  match f.fmt with
  | 0 =>
    match f.mod / 64 with
    | 0 =>
      if ¬(f.mod / 16 % 4 = 0) then .error .mustBeZero else .ok (.tload (Guard.ofCode f.g) (Reg.ofCode (f.d)) (Reg.ofCode (f.a)) (Reg.ofCode (f.b)) (Reg.ofCode (f.c)) (Bool.ofCode (f.mod / 8 % 2)) (Reg.ofCode (f.mod % 8)))
    | 1 =>
      if ¬(f.mod / 8 % 8 = 0) then .error .mustBeZero else .ok (.tstore (Guard.ofCode f.g) (Reg.ofCode (f.d)) (Reg.ofCode (f.a)) (Reg.ofCode (f.b)) (Reg.ofCode (f.c)) (Reg.ofCode (f.mod % 8)))
    | _ => .error .noSelector
  | 1 =>
    match f.mod / 64 with
    | 0 =>
      if ¬(f.c = 0 ∧ f.mod / 16 % 4 = 0) then .error .mustBeZero else .ok (.tloadRL (Guard.ofCode f.g) (Reg.ofCode (f.d)) (Reg.ofCode (f.a)) (Reg.ofCode (f.b)) (Bool.ofCode (f.mod / 8 % 2)) (Reg.ofCode (f.mod % 8)) lit)
    | 1 =>
      if ¬(f.c = 0 ∧ f.mod / 8 % 8 = 0) then .error .mustBeZero else .ok (.tstoreRL (Guard.ofCode f.g) (Reg.ofCode (f.d)) (Reg.ofCode (f.a)) (Reg.ofCode (f.b)) (Reg.ofCode (f.mod % 8)) lit)
    | _ => .error .noSelector
  | _ => .error .noFormat

/-- Major 0x6E: jpoll, jwait. -/
def decode6E (f : Fields) (_lit : BitVec 32) : Except DecodeError Instr :=
  match f.fmt with
  | 0 =>
    match f.mod / 64 with
    | 0 =>
      if ¬(f.b = 0 ∧ f.c = 0 ∧ f.mod / 8 % 8 = 0) then .error .mustBeZero else .ok (.jpoll (Guard.ofCode f.g) (Reg.ofCode (f.d)) (Reg.ofCode (f.a)) (Reg.ofCode (f.mod % 8)))
    | 1 =>
      if ¬(f.b = 0 ∧ f.c = 0 ∧ f.mod % 64 = 0) then .error .mustBeZero else .ok (.jwait (Guard.ofCode f.g) (Reg.ofCode (f.d)) (Reg.ofCode (f.a)))
    | _ => .error .noSelector
  | _ => .error .noFormat

/-- Major 0x6F: jcancel. -/
def decode6F (f : Fields) (_lit : BitVec 32) : Except DecodeError Instr :=
  match f.fmt with
  | 0 =>
    if ¬(f.b = 0 ∧ f.c = 0 ∧ f.mod = 0) then .error .mustBeZero else .ok (.jcancel (Guard.ofCode f.g) (Reg.ofCode (f.d)) (Reg.ofCode (f.a)))
  | _ => .error .noFormat

/-- Major 0x70: b. -/
def decode70 (f : Fields) (_lit : BitVec 32) : Except DecodeError Instr :=
  match f.fmt with
  | 0 =>
    .ok (.b (Guard.ofCode f.g) (BitVec.ofNat 19 (f.d * 65536 + f.a * 8192 + f.b * 1024 + f.c * 128 + f.mod)))
  | _ => .error .noFormat

/-- Major 0x71: call. -/
def decode71 (f : Fields) (_lit : BitVec 32) : Except DecodeError Instr :=
  match f.fmt with
  | 0 =>
    .ok (.call (Guard.ofCode f.g) (BitVec.ofNat 19 (f.d * 65536 + f.a * 8192 + f.b * 1024 + f.c * 128 + f.mod)))
  | _ => .error .noFormat

/-- Major 0x72: dbnz. -/
def decode72 (f : Fields) (_lit : BitVec 32) : Except DecodeError Instr :=
  match f.fmt with
  | 0 =>
    .ok (.dbnz (Guard.ofCode f.g) (Reg.ofCode (f.d)) (BitVec.ofNat 16 (f.a * 8192 + f.b * 1024 + f.c * 128 + f.mod)))
  | _ => .error .noFormat

/-- Major 0x73: jmp, callr, ret. -/
def decode73 (f : Fields) (lit : BitVec 32) : Except DecodeError Instr :=
  match f.fmt with
  | 0 =>
    match f.mod / 32 with
    | 0 =>
      if ¬(f.d = 0 ∧ f.a = 0 ∧ f.c = 0 ∧ f.mod % 32 = 0) then .error .mustBeZero else .ok (.jmp (Guard.ofCode f.g) (Reg.ofCode (f.b)))
    | 1 =>
      if ¬(f.d = 0 ∧ f.a = 0 ∧ f.c = 0 ∧ f.mod % 32 = 0) then .error .mustBeZero else .ok (.callr (Guard.ofCode f.g) (Reg.ofCode (f.b)))
    | 2 =>
      if ¬(f.d = 0 ∧ f.a = 0 ∧ f.b = 0 ∧ f.c = 0 ∧ f.mod / 2 % 16 = 0) then .error .mustBeZero else .ok (.ret (Guard.ofCode f.g) (Bool.ofCode (f.mod % 2)))
    | _ => .error .noSelector
  | 1 =>
    match f.mod / 32 with
    | 0 =>
      if ¬(f.d = 0 ∧ f.a = 0 ∧ f.b = 0 ∧ f.c = 0 ∧ f.mod % 32 = 0) then .error .mustBeZero else .ok (.jmpRL (Guard.ofCode f.g) lit)
    | 1 =>
      if ¬(f.d = 0 ∧ f.a = 0 ∧ f.b = 0 ∧ f.c = 0 ∧ f.mod % 32 = 0) then .error .mustBeZero else .ok (.callrRL (Guard.ofCode f.g) lit)
    | _ => .error .noSelector
  | _ => .error .noFormat

/-- Major 0x74: spawn, launch. -/
def decode74 (f : Fields) (lit : BitVec 32) : Except DecodeError Instr :=
  match f.fmt with
  | 0 =>
    match f.mod / 64 with
    | 0 =>
      if ¬(f.mod / 8 % 2 = 0) then .error .mustBeZero else .ok (.spawn (Guard.ofCode f.g) (Reg.ofCode (f.d)) (Reg.ofCode (f.a)) (Reg.ofCode (f.b)) (Reg.ofCode (f.c)) (Steal.ofCode (f.mod / 16 % 4)) (Reg.ofCode (f.mod % 8)))
    | 1 =>
      if ¬(f.c = 0 ∧ f.mod / 8 % 8 = 0) then .error .mustBeZero else .ok (.launch (Guard.ofCode f.g) (Reg.ofCode (f.d)) (Reg.ofCode (f.a)) (Reg.ofCode (f.b)) (Reg.ofCode (f.mod % 8)))
    | _ => .error .noSelector
  | 1 =>
    match f.mod / 64 with
    | 0 =>
      if ¬(f.c = 0 ∧ f.mod / 8 % 2 = 0) then .error .mustBeZero else .ok (.spawnRL (Guard.ofCode f.g) (Reg.ofCode (f.d)) (Reg.ofCode (f.a)) (Reg.ofCode (f.b)) (Steal.ofCode (f.mod / 16 % 4)) (Reg.ofCode (f.mod % 8)) lit)
    | 1 =>
      if ¬(f.b = 0 ∧ f.c = 0 ∧ f.mod / 8 % 8 = 0) then .error .mustBeZero else .ok (.launchRL (Guard.ofCode f.g) (Reg.ofCode (f.d)) (Reg.ofCode (f.a)) (Reg.ofCode (f.mod % 8)) lit)
    | _ => .error .noSelector
  | _ => .error .noFormat

/-- Major 0x75: qpush, qpop. -/
def decode75 (f : Fields) (lit : BitVec 32) : Except DecodeError Instr :=
  match f.fmt with
  | 0 =>
    match f.mod / 64 with
    | 0 =>
      if ¬(f.c = 0 ∧ f.mod / 8 % 8 = 0) then .error .mustBeZero else .ok (.qpush (Guard.ofCode f.g) (Reg.ofCode (f.d)) (Reg.ofCode (f.a)) (Reg.ofCode (f.b)) (Reg.ofCode (f.mod % 8)))
    | 1 =>
      if ¬(f.b = 0 ∧ f.c = 0 ∧ f.mod / 8 % 8 = 0) then .error .mustBeZero else .ok (.qpop (Guard.ofCode f.g) (Reg.ofCode (f.d)) (Reg.ofCode (f.a)) (Reg.ofCode (f.mod % 8)))
    | _ => .error .noSelector
  | 1 =>
    match f.mod / 64 with
    | 0 =>
      if ¬(f.b = 0 ∧ f.c = 0 ∧ f.mod / 8 % 8 = 0) then .error .mustBeZero else .ok (.qpushRL (Guard.ofCode f.g) (Reg.ofCode (f.d)) (Reg.ofCode (f.a)) (Reg.ofCode (f.mod % 8)) lit)
    | _ => .error .noSelector
  | _ => .error .noFormat

/-- Major 0x76: done, waitc, yield, halt. -/
def decode76 (f : Fields) (_lit : BitVec 32) : Except DecodeError Instr :=
  match f.fmt with
  | 0 =>
    match f.mod / 32 with
    | 0 =>
      if ¬(f.d = 0 ∧ f.a = 0 ∧ f.b = 0 ∧ f.c = 0 ∧ f.mod % 32 = 0) then .error .mustBeZero else .ok (.done (Guard.ofCode f.g))
    | 1 =>
      if ¬(f.d = 0 ∧ f.a = 0 ∧ f.b = 0 ∧ f.c = 0 ∧ f.mod % 32 = 0) then .error .mustBeZero else .ok (.waitc (Guard.ofCode f.g))
    | 2 =>
      if ¬(f.d = 0 ∧ f.a = 0 ∧ f.b = 0 ∧ f.c = 0 ∧ f.mod % 32 = 0) then .error .mustBeZero else .ok (.yield (Guard.ofCode f.g))
    | 3 =>
      if ¬(f.d = 0 ∧ f.b = 0 ∧ f.c = 0 ∧ f.mod / 2 % 16 = 0) then .error .mustBeZero else .ok (.halt (Guard.ofCode f.g) (Reg.ofCode (f.a)) (Bool.ofCode (f.mod % 2)))
    | _ => .error .noSelector
  | _ => .error .noFormat

/-- Major 0x77: sleep, prio. -/
def decode77 (f : Fields) (lit : BitVec 32) : Except DecodeError Instr :=
  match f.fmt with
  | 0 =>
    match f.mod / 64 with
    | 0 =>
      if ¬(f.d = 0 ∧ f.a = 0 ∧ f.c = 0 ∧ f.mod % 64 = 0) then .error .mustBeZero else .ok (.sleep (Guard.ofCode f.g) (Reg.ofCode (f.b)))
    | 1 =>
      if ¬(f.a = 0 ∧ f.c = 0 ∧ f.mod % 64 = 0) then .error .mustBeZero else .ok (.prio (Guard.ofCode f.g) (Reg.ofCode (f.d)) (Reg.ofCode (f.b)))
    | _ => .error .noSelector
  | 1 =>
    match f.mod / 64 with
    | 0 =>
      if ¬(f.d = 0 ∧ f.a = 0 ∧ f.b = 0 ∧ f.c = 0 ∧ f.mod % 64 = 0) then .error .mustBeZero else .ok (.sleepRL (Guard.ofCode f.g) lit)
    | 1 =>
      if ¬(f.a = 0 ∧ f.b = 0 ∧ f.c = 0 ∧ f.mod % 64 = 0) then .error .mustBeZero else .ok (.prioRL (Guard.ofCode f.g) (Reg.ofCode (f.d)) lit)
    | _ => .error .noSelector
  | _ => .error .noFormat

/-- Major 0x78: rsr, wsr. -/
def decode78 (f : Fields) (lit : BitVec 32) : Except DecodeError Instr :=
  match f.fmt with
  | 0 =>
    match f.mod / 64 with
    | 0 =>
      if ¬(f.a = 0 ∧ f.b = 0 ∧ f.c = 0) then .error .mustBeZero else if ¬((SReg.ofCode? (f.mod % 64)).isSome) then .error .unassigned else .ok (.rsr (Guard.ofCode f.g) (Reg.ofCode (f.d)) (SReg.ofCodeD (f.mod % 64)))
    | 1 =>
      if ¬(f.d = 0 ∧ f.a = 0 ∧ f.c = 0) then .error .mustBeZero else if ¬((SReg.ofCode? (f.mod % 64)).isSome) then .error .unassigned else .ok (.wsr (Guard.ofCode f.g) (Reg.ofCode (f.b)) (SReg.ofCodeD (f.mod % 64)))
    | _ => .error .noSelector
  | 1 =>
    match f.mod / 64 with
    | 1 =>
      if ¬(f.d = 0 ∧ f.a = 0 ∧ f.b = 0 ∧ f.c = 0) then .error .mustBeZero else if ¬((SReg.ofCode? (f.mod % 64)).isSome) then .error .unassigned else .ok (.wsrRL (Guard.ofCode f.g) (SReg.ofCodeD (f.mod % 64)) lit)
    | _ => .error .noSelector
  | _ => .error .noFormat

/-- Major 0x79: trap, wake, kill, resume. -/
def decode79 (f : Fields) (lit : BitVec 32) : Except DecodeError Instr :=
  match f.fmt with
  | 0 =>
    match f.mod / 32 with
    | 0 =>
      if ¬(f.d = 0 ∧ f.a = 0 ∧ f.c = 0 ∧ f.mod % 32 = 0) then .error .mustBeZero else .ok (.trap (Guard.ofCode f.g) (Reg.ofCode (f.b)))
    | 1 =>
      if ¬(f.d = 0 ∧ f.b = 0 ∧ f.c = 0 ∧ f.mod % 32 = 0) then .error .mustBeZero else .ok (.wake (Guard.ofCode f.g) (Reg.ofCode (f.a)))
    | 2 =>
      if ¬(f.b = 0 ∧ f.c = 0 ∧ f.mod % 32 = 0) then .error .mustBeZero else .ok (.kill (Guard.ofCode f.g) (Reg.ofCode (f.d)) (Reg.ofCode (f.a)))
    | 3 =>
      if ¬(f.b = 0 ∧ f.c = 0 ∧ f.mod % 32 = 0) then .error .mustBeZero else .ok (.resume (Guard.ofCode f.g) (Reg.ofCode (f.d)) (Reg.ofCode (f.a)))
    | _ => .error .noSelector
  | 1 =>
    match f.mod / 32 with
    | 0 =>
      if ¬(f.d = 0 ∧ f.a = 0 ∧ f.b = 0 ∧ f.c = 0 ∧ f.mod % 32 = 0) then .error .mustBeZero else .ok (.trapRL (Guard.ofCode f.g) lit)
    | _ => .error .noSelector
  | _ => .error .noFormat

/-- Major 0x7A: slotw, plbi, tlbi, pmig. -/
def decode7A (f : Fields) (lit : BitVec 32) : Except DecodeError Instr :=
  match f.fmt with
  | 0 =>
    match f.mod / 32 with
    | 0 =>
      if ¬(f.d = 0 ∧ f.c = 0 ∧ f.mod % 32 = 0) then .error .mustBeZero else .ok (.slotw (Guard.ofCode f.g) (Reg.ofCode (f.a)) (Reg.ofCode (f.b)))
    | 1 =>
      if ¬(f.d = 0 ∧ f.c = 0 ∧ f.mod % 32 = 0) then .error .mustBeZero else .ok (.plbi (Guard.ofCode f.g) (Reg.ofCode (f.a)) (Reg.ofCode (f.b)))
    | 2 =>
      if ¬(f.d = 0 ∧ f.a = 0 ∧ f.c = 0 ∧ f.mod % 32 = 0) then .error .mustBeZero else .ok (.tlbi (Guard.ofCode f.g) (Reg.ofCode (f.b)))
    | 3 =>
      if ¬(f.c = 0 ∧ f.mod / 8 % 4 = 0) then .error .mustBeZero else .ok (.pmig (Guard.ofCode f.g) (Reg.ofCode (f.d)) (Reg.ofCode (f.a)) (Reg.ofCode (f.b)) (Reg.ofCode (f.mod % 8)))
    | _ => .error .noSelector
  | 1 =>
    match f.mod / 32 with
    | 0 =>
      if ¬(f.d = 0 ∧ f.b = 0 ∧ f.c = 0 ∧ f.mod % 32 = 0) then .error .mustBeZero else .ok (.slotwRL (Guard.ofCode f.g) (Reg.ofCode (f.a)) lit)
    | 1 =>
      if ¬(f.d = 0 ∧ f.b = 0 ∧ f.c = 0 ∧ f.mod % 32 = 0) then .error .mustBeZero else .ok (.plbiRL (Guard.ofCode f.g) (Reg.ofCode (f.a)) lit)
    | 2 =>
      if ¬(f.d = 0 ∧ f.a = 0 ∧ f.b = 0 ∧ f.c = 0 ∧ f.mod % 32 = 0) then .error .mustBeZero else .ok (.tlbiRL (Guard.ofCode f.g) lit)
    | 3 =>
      if ¬(f.b = 0 ∧ f.c = 0 ∧ f.mod / 8 % 4 = 0) then .error .mustBeZero else .ok (.pmigRL (Guard.ofCode f.g) (Reg.ofCode (f.d)) (Reg.ofCode (f.a)) (Reg.ofCode (f.mod % 8)) lit)
    | _ => .error .noSelector
  | _ => .error .noFormat

/-- Major 0x7B: ovl, ovlq. -/
def decode7B (f : Fields) (lit : BitVec 32) : Except DecodeError Instr :=
  match f.fmt with
  | 0 =>
    match f.mod / 64 with
    | 0 =>
      if ¬(f.d = 0 ∧ f.b = 0 ∧ f.c = 0 ∧ f.mod / 2 % 32 = 0) then .error .mustBeZero else .ok (.ovl (Guard.ofCode f.g) (Reg.ofCode (f.a)) (Bool.ofCode (f.mod % 2)))
    | 1 =>
      if ¬(f.a = 0 ∧ f.c = 0 ∧ f.mod % 64 = 0) then .error .mustBeZero else .ok (.ovlq (Guard.ofCode f.g) (Reg.ofCode (f.d)) (Reg.ofCode (f.b)))
    | _ => .error .noSelector
  | 1 =>
    match f.mod / 64 with
    | 1 =>
      if ¬(f.a = 0 ∧ f.b = 0 ∧ f.c = 0 ∧ f.mod % 64 = 0) then .error .mustBeZero else .ok (.ovlqRL (Guard.ofCode f.g) (Reg.ofCode (f.d)) lit)
    | _ => .error .noSelector
  | _ => .error .noFormat

/-- The instruction that the fields name, before the checks of WellFormed (R150 to R152). -/
def candidate (f : Fields) (lit : BitVec 32) : Except DecodeError Instr :=
  match f.major with
  | 0x01 => decode01 f lit
  | 0x02 => decode02 f lit
  | 0x03 => decode03 f lit
  | 0x04 => decode04 f lit
  | 0x05 => decode05 f lit
  | 0x06 => decode06 f lit
  | 0x07 => decode07 f lit
  | 0x08 => decode08 f lit
  | 0x09 => decode09 f lit
  | 0x0A => decode0A f lit
  | 0x0B => decode0B f lit
  | 0x0C => decode0C f lit
  | 0x0D => decode0D f lit
  | 0x0E => decode0E f lit
  | 0x0F => decode0F f lit
  | 0x10 => decode10 f lit
  | 0x11 => decode11 f lit
  | 0x12 => decode12 f lit
  | 0x13 => decode13 f lit
  | 0x14 => decode14 f lit
  | 0x15 => decode15 f lit
  | 0x16 => decode16 f lit
  | 0x17 => decode17 f lit
  | 0x18 => decode18 f lit
  | 0x19 => decode19 f lit
  | 0x1A => decode1A f lit
  | 0x1B => decode1B f lit
  | 0x1C => decode1C f lit
  | 0x1D => decode1D f lit
  | 0x1E => decode1E f lit
  | 0x1F => decode1F f lit
  | 0x20 => decode20 f lit
  | 0x21 => decode21 f lit
  | 0x22 => decode22 f lit
  | 0x23 => decode23 f lit
  | 0x24 => decode24 f lit
  | 0x25 => decode25 f lit
  | 0x26 => decode26 f lit
  | 0x27 => decode27 f lit
  | 0x28 => decode28 f lit
  | 0x29 => decode29 f lit
  | 0x2A => decode2A f lit
  | 0x2B => decode2B f lit
  | 0x2C => decode2C f lit
  | 0x2D => decode2D f lit
  | 0x2E => decode2E f lit
  | 0x2F => decode2F f lit
  | 0x30 => decode30 f lit
  | 0x31 => decode31 f lit
  | 0x32 => decode32 f lit
  | 0x33 => decode33 f lit
  | 0x34 => decode34 f lit
  | 0x35 => decode35 f lit
  | 0x36 => decode36 f lit
  | 0x37 => decode37 f lit
  | 0x38 => decode38 f lit
  | 0x39 => decode39 f lit
  | 0x3A => decode3A f lit
  | 0x3B => decode3B f lit
  | 0x3C => decode3C f lit
  | 0x3D => decode3D f lit
  | 0x3E => decode3E f lit
  | 0x3F => decode3F f lit
  | 0x40 => decode40 f lit
  | 0x41 => decode41 f lit
  | 0x42 => decode42 f lit
  | 0x43 => decode43 f lit
  | 0x44 => decode44 f lit
  | 0x45 => decode45 f lit
  | 0x46 => decode46 f lit
  | 0x47 => decode47 f lit
  | 0x48 => decode48 f lit
  | 0x49 => decode49 f lit
  | 0x4A => decode4A f lit
  | 0x4B => decode4B f lit
  | 0x4C => decode4C f lit
  | 0x4D => decode4D f lit
  | 0x4E => decode4E f lit
  | 0x4F => decode4F f lit
  | 0x50 => decode50 f lit
  | 0x51 => decode51 f lit
  | 0x52 => decode52 f lit
  | 0x53 => decode53 f lit
  | 0x54 => decode54 f lit
  | 0x55 => decode55 f lit
  | 0x56 => decode56 f lit
  | 0x57 => decode57 f lit
  | 0x58 => decode58 f lit
  | 0x59 => decode59 f lit
  | 0x5A => decode5A f lit
  | 0x5B => decode5B f lit
  | 0x5C => decode5C f lit
  | 0x5D => decode5D f lit
  | 0x5E => decode5E f lit
  | 0x5F => decode5F f lit
  | 0x60 => decode60 f lit
  | 0x61 => decode61 f lit
  | 0x62 => decode62 f lit
  | 0x63 => decode63 f lit
  | 0x64 => decode64 f lit
  | 0x65 => decode65 f lit
  | 0x66 => decode66 f lit
  | 0x67 => decode67 f lit
  | 0x68 => decode68 f lit
  | 0x69 => decode69 f lit
  | 0x6A => decode6A f lit
  | 0x6B => decode6B f lit
  | 0x6C => decode6C f lit
  | 0x6D => decode6D f lit
  | 0x6E => decode6E f lit
  | 0x6F => decode6F f lit
  | 0x70 => decode70 f lit
  | 0x71 => decode71 f lit
  | 0x72 => decode72 f lit
  | 0x73 => decode73 f lit
  | 0x74 => decode74 f lit
  | 0x75 => decode75 f lit
  | 0x76 => decode76 f lit
  | 0x77 => decode77 f lit
  | 0x78 => decode78 f lit
  | 0x79 => decode79 f lit
  | 0x7A => decode7A f lit
  | 0x7B => decode7B f lit
  | 0x7E => .ok (.fmai (Reg.ofCode (0 + f.fmt)) (Reg.ofCode (f.g / 2))
      (BitVec.ofNat 20 (f.g % 2 * 524288 + f.d * 65536 + f.a * 8192 + f.b * 1024 + f.c * 128 + f.mod)))
  | 0x7F => .ok (.fmai (Reg.ofCode (4 + f.fmt)) (Reg.ofCode (f.g / 2))
      (BitVec.ofNat 20 (f.g % 2 * 524288 + f.d * 65536 + f.a * 8192 + f.b * 1024 + f.c * 128 + f.mod)))
  | _ => .error .noMajor

/-- The word's format is RL, so it takes the next word as its literal (R143). The FI20 words carry operand bits in the
format's place and take none. -/
def takesLiteral (w : Nat) : Bool := w / 2 ^ 23 % 4 == 1 && w / 2 ^ 26 % 64 < 62

/-- Read one instruction word with the word that follows it (R153). -/
def decodeWords (w lit : BitVec 32) : Except DecodeError Instr :=
  match candidate (unpack w.toNat) lit with
  | .error e => .error e
  | .ok i => if wellFormed i then .ok i else .error .operands

/-- The 32-bit word of four bytes, the least significant first (R6). -/
def word32 (b0 b1 b2 b3 : Byte) : BitVec 32 :=
  BitVec.ofNat 32 (b0.toNat + b1.toNat * 2 ^ 8 + b2.toNat * 2 ^ 16 + b3.toNat * 2 ^ 24)

/-- The four bytes of a word, the least significant first (R6). -/
def bytes32 (w : BitVec 32) : List Byte :=
  [BitVec.ofNat 8 w.toNat, BitVec.ofNat 8 (w.toNat / 2 ^ 8), BitVec.ofNat 8 (w.toNat / 2 ^ 16),
    BitVec.ofNat 8 (w.toNat / 2 ^ 24)]

/-- Read an instruction from bytes; the rest of the bytes follows it. -/
def decodeBytes : List Byte → Except DecodeError (Instr × List Byte)
  | b0 :: b1 :: b2 :: b3 :: rest =>
    let w := word32 b0 b1 b2 b3
    if takesLiteral w.toNat then
      match rest with
      | c0 :: c1 :: c2 :: c3 :: rest =>
        match decodeWords w (word32 c0 c1 c2 c3) with
        | .ok i => .ok (i, rest)
        | .error e => .error e
      | _ => .error .truncated
    else
      match decodeWords w 0 with
      | .ok i => .ok (i, rest)
      | .error e => .error e
  | _ => .error .truncated

/-- The instruction that the decoder reads from the table's bits: the word and its literal as two words, each least
significant byte first, bits above nbits zero. -/
def decodeTableWord (nbits w : Nat) : Option Instr :=
  let v := w % 2 ^ nbits
  match decodeBytes (bytes32 (BitVec.ofNat 32 v) ++ bytes32 (BitVec.ofNat 32 (v / 2 ^ 32))) with
  | .ok (i, _) => some i
  | .error _ => none


end

/-- The fields of an instruction's word; none for a device step, which has no encoding (R146). -/
def fieldsOf : Instr → Option Fields
  | .add g d a b m z w => some ⟨0x01, 0, Guard.code g, d.val, a.val, b.val, 0, CarryMode.code m * 8 + Bool.toCode z * 4 + Width.code w⟩
  | .addRL g d a m z w _ => some ⟨0x01, 1, Guard.code g, d.val, a.val, 0, 0, CarryMode.code m * 8 + Bool.toCode z * 4 + Width.code w⟩
  | .addRK g d a w k => some ⟨0x01, 2, Guard.code g, d.val, a.val, 0, k.toNat / 32, k.toNat % 32 * 4 + Width.code w⟩
  | .addRI g d a imm => some ⟨0x01, 3, Guard.code g, d.val, a.val, imm.toNat / 1024, imm.toNat / 128 % 8, imm.toNat % 128⟩
  | .sub g d a b m z w => some ⟨0x02, 0, Guard.code g, d.val, a.val, b.val, 0, CarryMode.code m * 8 + Bool.toCode z * 4 + Width.code w⟩
  | .subRL g d a m z w _ => some ⟨0x02, 1, Guard.code g, d.val, a.val, 0, 0, CarryMode.code m * 8 + Bool.toCode z * 4 + Width.code w⟩
  | .subRK g d a w k => some ⟨0x02, 2, Guard.code g, d.val, a.val, 0, k.toNat / 32, k.toNat % 32 * 4 + Width.code w⟩
  | .subRI g d a imm => some ⟨0x02, 3, Guard.code g, d.val, a.val, imm.toNat / 1024, imm.toNat / 128 % 8, imm.toNat % 128⟩
  | .mul g d a b z w => some ⟨0x03, 0, Guard.code g, d.val, a.val, b.val, 0, Bool.toCode z * 4 + Width.code w⟩
  | .mulRL g d a z w _ => some ⟨0x03, 1, Guard.code g, d.val, a.val, 0, 0, Bool.toCode z * 4 + Width.code w⟩
  | .mulRK g d a w k => some ⟨0x03, 2, Guard.code g, d.val, a.val, 0, k.toNat / 32, k.toNat % 32 * 4 + Width.code w⟩
  | .mulRI g d a imm => some ⟨0x03, 3, Guard.code g, d.val, a.val, imm.toNat / 1024, imm.toNat / 128 % 8, imm.toNat % 128⟩
  | .mulh g d a b z w => some ⟨0x04, 0, Guard.code g, d.val, a.val, b.val, 0, Bool.toCode z * 4 + Width.code w⟩
  | .mulhRL g d a z w _ => some ⟨0x04, 1, Guard.code g, d.val, a.val, 0, 0, Bool.toCode z * 4 + Width.code w⟩
  | .mulhRK g d a w k => some ⟨0x04, 2, Guard.code g, d.val, a.val, 0, k.toNat / 32, k.toNat % 32 * 4 + Width.code w⟩
  | .mulhRI g d a imm => some ⟨0x04, 3, Guard.code g, d.val, a.val, imm.toNat / 1024, imm.toNat / 128 % 8, imm.toNat % 128⟩
  | .mulhu g d a b z w => some ⟨0x05, 0, Guard.code g, d.val, a.val, b.val, 0, Bool.toCode z * 4 + Width.code w⟩
  | .mulhuRL g d a z w _ => some ⟨0x05, 1, Guard.code g, d.val, a.val, 0, 0, Bool.toCode z * 4 + Width.code w⟩
  | .mulhuRK g d a w k => some ⟨0x05, 2, Guard.code g, d.val, a.val, 0, k.toNat / 32, k.toNat % 32 * 4 + Width.code w⟩
  | .mulhuRI g d a imm => some ⟨0x05, 3, Guard.code g, d.val, a.val, imm.toNat / 1024, imm.toNat / 128 % 8, imm.toNat % 128⟩
  | .div g d a b z w => some ⟨0x06, 0, Guard.code g, d.val, a.val, b.val, 0, Bool.toCode z * 4 + Width.code w⟩
  | .divRL g d a z w _ => some ⟨0x06, 1, Guard.code g, d.val, a.val, 0, 0, Bool.toCode z * 4 + Width.code w⟩
  | .divRK g d a w k => some ⟨0x06, 2, Guard.code g, d.val, a.val, 0, k.toNat / 32, k.toNat % 32 * 4 + Width.code w⟩
  | .divRI g d a imm => some ⟨0x06, 3, Guard.code g, d.val, a.val, imm.toNat / 1024, imm.toNat / 128 % 8, imm.toNat % 128⟩
  | .divu g d a b z w => some ⟨0x07, 0, Guard.code g, d.val, a.val, b.val, 0, Bool.toCode z * 4 + Width.code w⟩
  | .divuRL g d a z w _ => some ⟨0x07, 1, Guard.code g, d.val, a.val, 0, 0, Bool.toCode z * 4 + Width.code w⟩
  | .divuRK g d a w k => some ⟨0x07, 2, Guard.code g, d.val, a.val, 0, k.toNat / 32, k.toNat % 32 * 4 + Width.code w⟩
  | .divuRI g d a imm => some ⟨0x07, 3, Guard.code g, d.val, a.val, imm.toNat / 1024, imm.toNat / 128 % 8, imm.toNat % 128⟩
  | .rem g d a b z w => some ⟨0x08, 0, Guard.code g, d.val, a.val, b.val, 0, Bool.toCode z * 4 + Width.code w⟩
  | .remRL g d a z w _ => some ⟨0x08, 1, Guard.code g, d.val, a.val, 0, 0, Bool.toCode z * 4 + Width.code w⟩
  | .remRK g d a w k => some ⟨0x08, 2, Guard.code g, d.val, a.val, 0, k.toNat / 32, k.toNat % 32 * 4 + Width.code w⟩
  | .remRI g d a imm => some ⟨0x08, 3, Guard.code g, d.val, a.val, imm.toNat / 1024, imm.toNat / 128 % 8, imm.toNat % 128⟩
  | .remu g d a b z w => some ⟨0x09, 0, Guard.code g, d.val, a.val, b.val, 0, Bool.toCode z * 4 + Width.code w⟩
  | .remuRL g d a z w _ => some ⟨0x09, 1, Guard.code g, d.val, a.val, 0, 0, Bool.toCode z * 4 + Width.code w⟩
  | .remuRK g d a w k => some ⟨0x09, 2, Guard.code g, d.val, a.val, 0, k.toNat / 32, k.toNat % 32 * 4 + Width.code w⟩
  | .remuRI g d a imm => some ⟨0x09, 3, Guard.code g, d.val, a.val, imm.toNat / 1024, imm.toNat / 128 % 8, imm.toNat % 128⟩
  | .and g d a b z w => some ⟨0x0A, 0, Guard.code g, d.val, a.val, b.val, 0, Bool.toCode z * 4 + Width.code w⟩
  | .andRL g d a z w _ => some ⟨0x0A, 1, Guard.code g, d.val, a.val, 0, 0, Bool.toCode z * 4 + Width.code w⟩
  | .andRK g d a w k => some ⟨0x0A, 2, Guard.code g, d.val, a.val, 0, k.toNat / 32, k.toNat % 32 * 4 + Width.code w⟩
  | .andRI g d a imm => some ⟨0x0A, 3, Guard.code g, d.val, a.val, imm.toNat / 1024, imm.toNat / 128 % 8, imm.toNat % 128⟩
  | .or g d a b z w => some ⟨0x0B, 0, Guard.code g, d.val, a.val, b.val, 0, Bool.toCode z * 4 + Width.code w⟩
  | .orRL g d a z w _ => some ⟨0x0B, 1, Guard.code g, d.val, a.val, 0, 0, Bool.toCode z * 4 + Width.code w⟩
  | .orRK g d a w k => some ⟨0x0B, 2, Guard.code g, d.val, a.val, 0, k.toNat / 32, k.toNat % 32 * 4 + Width.code w⟩
  | .orRI g d a imm => some ⟨0x0B, 3, Guard.code g, d.val, a.val, imm.toNat / 1024, imm.toNat / 128 % 8, imm.toNat % 128⟩
  | .xor g d a b z w => some ⟨0x0C, 0, Guard.code g, d.val, a.val, b.val, 0, Bool.toCode z * 4 + Width.code w⟩
  | .xorRL g d a z w _ => some ⟨0x0C, 1, Guard.code g, d.val, a.val, 0, 0, Bool.toCode z * 4 + Width.code w⟩
  | .xorRK g d a w k => some ⟨0x0C, 2, Guard.code g, d.val, a.val, 0, k.toNat / 32, k.toNat % 32 * 4 + Width.code w⟩
  | .xorRI g d a imm => some ⟨0x0C, 3, Guard.code g, d.val, a.val, imm.toNat / 1024, imm.toNat / 128 % 8, imm.toNat % 128⟩
  | .andn g d a b z w => some ⟨0x0D, 0, Guard.code g, d.val, a.val, b.val, 0, Bool.toCode z * 4 + Width.code w⟩
  | .andnRL g d a z w _ => some ⟨0x0D, 1, Guard.code g, d.val, a.val, 0, 0, Bool.toCode z * 4 + Width.code w⟩
  | .andnRK g d a w k => some ⟨0x0D, 2, Guard.code g, d.val, a.val, 0, k.toNat / 32, k.toNat % 32 * 4 + Width.code w⟩
  | .andnRI g d a imm => some ⟨0x0D, 3, Guard.code g, d.val, a.val, imm.toNat / 1024, imm.toNat / 128 % 8, imm.toNat % 128⟩
  | .orn g d a b z w => some ⟨0x0E, 0, Guard.code g, d.val, a.val, b.val, 0, Bool.toCode z * 4 + Width.code w⟩
  | .ornRL g d a z w _ => some ⟨0x0E, 1, Guard.code g, d.val, a.val, 0, 0, Bool.toCode z * 4 + Width.code w⟩
  | .ornRK g d a w k => some ⟨0x0E, 2, Guard.code g, d.val, a.val, 0, k.toNat / 32, k.toNat % 32 * 4 + Width.code w⟩
  | .ornRI g d a imm => some ⟨0x0E, 3, Guard.code g, d.val, a.val, imm.toNat / 1024, imm.toNat / 128 % 8, imm.toNat % 128⟩
  | .shl g d a b z w => some ⟨0x0F, 0, Guard.code g, d.val, a.val, b.val, 0, Bool.toCode z * 4 + Width.code w⟩
  | .shlRL g d a z w _ => some ⟨0x0F, 1, Guard.code g, d.val, a.val, 0, 0, Bool.toCode z * 4 + Width.code w⟩
  | .shlRK g d a w k => some ⟨0x0F, 2, Guard.code g, d.val, a.val, 0, k.toNat / 32, k.toNat % 32 * 4 + Width.code w⟩
  | .shlRI g d a imm => some ⟨0x0F, 3, Guard.code g, d.val, a.val, imm.toNat / 1024, imm.toNat / 128 % 8, imm.toNat % 128⟩
  | .shr g d a b z w => some ⟨0x10, 0, Guard.code g, d.val, a.val, b.val, 0, Bool.toCode z * 4 + Width.code w⟩
  | .shrRL g d a z w _ => some ⟨0x10, 1, Guard.code g, d.val, a.val, 0, 0, Bool.toCode z * 4 + Width.code w⟩
  | .shrRK g d a w k => some ⟨0x10, 2, Guard.code g, d.val, a.val, 0, k.toNat / 32, k.toNat % 32 * 4 + Width.code w⟩
  | .shrRI g d a imm => some ⟨0x10, 3, Guard.code g, d.val, a.val, imm.toNat / 1024, imm.toNat / 128 % 8, imm.toNat % 128⟩
  | .sar g d a b z w => some ⟨0x11, 0, Guard.code g, d.val, a.val, b.val, 0, Bool.toCode z * 4 + Width.code w⟩
  | .sarRL g d a z w _ => some ⟨0x11, 1, Guard.code g, d.val, a.val, 0, 0, Bool.toCode z * 4 + Width.code w⟩
  | .sarRK g d a w k => some ⟨0x11, 2, Guard.code g, d.val, a.val, 0, k.toNat / 32, k.toNat % 32 * 4 + Width.code w⟩
  | .sarRI g d a imm => some ⟨0x11, 3, Guard.code g, d.val, a.val, imm.toNat / 1024, imm.toNat / 128 % 8, imm.toNat % 128⟩
  | .rol g d a b z w => some ⟨0x12, 0, Guard.code g, d.val, a.val, b.val, 0, Bool.toCode z * 4 + Width.code w⟩
  | .rolRL g d a z w _ => some ⟨0x12, 1, Guard.code g, d.val, a.val, 0, 0, Bool.toCode z * 4 + Width.code w⟩
  | .rolRK g d a w k => some ⟨0x12, 2, Guard.code g, d.val, a.val, 0, k.toNat / 32, k.toNat % 32 * 4 + Width.code w⟩
  | .rolRI g d a imm => some ⟨0x12, 3, Guard.code g, d.val, a.val, imm.toNat / 1024, imm.toNat / 128 % 8, imm.toNat % 128⟩
  | .ror g d a b z w => some ⟨0x13, 0, Guard.code g, d.val, a.val, b.val, 0, Bool.toCode z * 4 + Width.code w⟩
  | .rorRL g d a z w _ => some ⟨0x13, 1, Guard.code g, d.val, a.val, 0, 0, Bool.toCode z * 4 + Width.code w⟩
  | .rorRK g d a w k => some ⟨0x13, 2, Guard.code g, d.val, a.val, 0, k.toNat / 32, k.toNat % 32 * 4 + Width.code w⟩
  | .rorRI g d a imm => some ⟨0x13, 3, Guard.code g, d.val, a.val, imm.toNat / 1024, imm.toNat / 128 % 8, imm.toNat % 128⟩
  | .min g d a b z w => some ⟨0x14, 0, Guard.code g, d.val, a.val, b.val, 0, Bool.toCode z * 4 + Width.code w⟩
  | .minRL g d a z w _ => some ⟨0x14, 1, Guard.code g, d.val, a.val, 0, 0, Bool.toCode z * 4 + Width.code w⟩
  | .minRK g d a w k => some ⟨0x14, 2, Guard.code g, d.val, a.val, 0, k.toNat / 32, k.toNat % 32 * 4 + Width.code w⟩
  | .minRI g d a imm => some ⟨0x14, 3, Guard.code g, d.val, a.val, imm.toNat / 1024, imm.toNat / 128 % 8, imm.toNat % 128⟩
  | .max g d a b z w => some ⟨0x15, 0, Guard.code g, d.val, a.val, b.val, 0, Bool.toCode z * 4 + Width.code w⟩
  | .maxRL g d a z w _ => some ⟨0x15, 1, Guard.code g, d.val, a.val, 0, 0, Bool.toCode z * 4 + Width.code w⟩
  | .maxRK g d a w k => some ⟨0x15, 2, Guard.code g, d.val, a.val, 0, k.toNat / 32, k.toNat % 32 * 4 + Width.code w⟩
  | .maxRI g d a imm => some ⟨0x15, 3, Guard.code g, d.val, a.val, imm.toNat / 1024, imm.toNat / 128 % 8, imm.toNat % 128⟩
  | .minu g d a b z w => some ⟨0x16, 0, Guard.code g, d.val, a.val, b.val, 0, Bool.toCode z * 4 + Width.code w⟩
  | .minuRL g d a z w _ => some ⟨0x16, 1, Guard.code g, d.val, a.val, 0, 0, Bool.toCode z * 4 + Width.code w⟩
  | .minuRK g d a w k => some ⟨0x16, 2, Guard.code g, d.val, a.val, 0, k.toNat / 32, k.toNat % 32 * 4 + Width.code w⟩
  | .minuRI g d a imm => some ⟨0x16, 3, Guard.code g, d.val, a.val, imm.toNat / 1024, imm.toNat / 128 % 8, imm.toNat % 128⟩
  | .maxu g d a b z w => some ⟨0x17, 0, Guard.code g, d.val, a.val, b.val, 0, Bool.toCode z * 4 + Width.code w⟩
  | .maxuRL g d a z w _ => some ⟨0x17, 1, Guard.code g, d.val, a.val, 0, 0, Bool.toCode z * 4 + Width.code w⟩
  | .maxuRK g d a w k => some ⟨0x17, 2, Guard.code g, d.val, a.val, 0, k.toNat / 32, k.toNat % 32 * 4 + Width.code w⟩
  | .maxuRI g d a imm => some ⟨0x17, 3, Guard.code g, d.val, a.val, imm.toNat / 1024, imm.toNat / 128 % 8, imm.toNat % 128⟩
  | .abs g d a s z w => some ⟨0x18, 0, Guard.code g, d.val, a.val, 0, 0, Bool.toCode s * 8 + Bool.toCode z * 4 + Width.code w⟩
  | .clz g d a w => some ⟨0x18, 0, Guard.code g, d.val, a.val, 1, 0, Width.code w⟩
  | .ctz g d a w => some ⟨0x18, 0, Guard.code g, d.val, a.val, 2, 0, Width.code w⟩
  | .popc g d a w => some ⟨0x18, 0, Guard.code g, d.val, a.val, 3, 0, Width.code w⟩
  | .bswap g d a z w => some ⟨0x18, 0, Guard.code g, d.val, a.val, 4, 0, Bool.toCode z * 4 + Width.code w⟩
  | .brev g d a z w => some ⟨0x18, 0, Guard.code g, d.val, a.val, 5, 0, Bool.toCode z * 4 + Width.code w⟩
  | .sext g d a w => some ⟨0x18, 0, Guard.code g, d.val, a.val, 6, 0, Width.code w⟩
  | .zext g d a w => some ⟨0x18, 0, Guard.code g, d.val, a.val, 7, 0, Width.code w⟩
  | .ext g d a b => some ⟨0x19, 0, Guard.code g, d.val, a.val, b.val, 0, 0⟩
  | .extRL g d a _ => some ⟨0x19, 1, Guard.code g, d.val, a.val, 0, 0, 0⟩
  | .extRK g d a k => some ⟨0x19, 2, Guard.code g, d.val, a.val, 0, k.toNat / 32, k.toNat % 32 * 4⟩
  | .extRI g d a imm => some ⟨0x19, 3, Guard.code g, d.val, a.val, imm.toNat / 1024, imm.toNat / 128 % 8, imm.toNat % 128⟩
  | .ins g d a b => some ⟨0x1A, 0, Guard.code g, d.val, a.val, b.val, 0, 0⟩
  | .insRL g d a _ => some ⟨0x1A, 1, Guard.code g, d.val, a.val, 0, 0, 0⟩
  | .insRK g d a k => some ⟨0x1A, 2, Guard.code g, d.val, a.val, 0, k.toNat / 32, k.toNat % 32 * 4⟩
  | .insRI g d a imm => some ⟨0x1A, 3, Guard.code g, d.val, a.val, imm.toNat / 1024, imm.toNat / 128 % 8, imm.toNat % 128⟩
  | .cmp g p a b z w n => some ⟨0x1B, 0, Guard.code g, p.val, a.val, b.val, 0, Bool.toCode z * 64 + Width.code w * 16 + Cond.code n⟩
  | .cmpRL g p a z w n _ => some ⟨0x1B, 1, Guard.code g, p.val, a.val, 0, 0, Bool.toCode z * 64 + Width.code w * 16 + Cond.code n⟩
  | .cmpRK g p a n k => some ⟨0x1B, 2, Guard.code g, p.val, a.val, 0, k.toNat / 32, k.toNat % 32 * 4 + Cond.code n⟩
  | .cmpRI g p a imm => some ⟨0x1B, 3, Guard.code g, p.val, a.val, imm.toNat / 1024, imm.toNat / 128 % 8, imm.toNat % 128⟩
  | .tst g p a b z n => some ⟨0x1C, 0, Guard.code g, p.val, a.val, b.val, 0, Bool.toCode z * 2 + Bool.toCode n⟩
  | .tstRL g p a z n _ => some ⟨0x1C, 1, Guard.code g, p.val, a.val, 0, 0, Bool.toCode z * 2 + Bool.toCode n⟩
  | .tstRK g p a z n k => some ⟨0x1C, 2, Guard.code g, p.val, a.val, 0, k.toNat / 32, k.toNat % 32 * 4 + Bool.toCode z * 2 + Bool.toCode n⟩
  | .tstRI g p a imm => some ⟨0x1C, 3, Guard.code g, p.val, a.val, imm.toNat / 1024, imm.toNat / 128 % 8, imm.toNat % 128⟩
  | .sel g d a b q n => some ⟨0x1D, 0, Guard.code g, d.val, a.val, b.val, q.val, Bool.toCode n⟩
  | .selRL g d a q n _ => some ⟨0x1D, 1, Guard.code g, d.val, a.val, 0, q.val, Bool.toCode n⟩
  | .mov g d b z => some ⟨0x1E, 0, Guard.code g, d.val, 0, b.val, 0, Bool.toCode z⟩
  | .movRL g d z _ => some ⟨0x1E, 1, Guard.code g, d.val, 0, 0, 0, Bool.toCode z⟩
  | .movRK g d z k => some ⟨0x1E, 2, Guard.code g, d.val, 0, 0, k.toNat / 32, k.toNat % 32 * 4 + Bool.toCode z⟩
  | .movRI g d imm => some ⟨0x1E, 3, Guard.code g, d.val, 0, imm.toNat / 1024, imm.toNat / 128 % 8, imm.toNat % 128⟩
  | .movi g d imm => some ⟨0x1F, 3, Guard.code g, d.val, 0, imm.toNat / 1024, imm.toNat / 128 % 8, imm.toNat % 128⟩
  | .movh g d imm => some ⟨0x1F, 3, Guard.code g, d.val, 1, imm.toNat / 1024, imm.toNat / 128 % 8, imm.toNat % 128⟩
  | .pset g p pa pb o => some ⟨0x2E, 0, Guard.code g, p.val, pa.val, pb.val, 0, PsetOp.code o⟩
  | .rdp g d => some ⟨0x2F, 0, Guard.code g, d.val, 0, 0, 0, 0⟩
  | .wrp g a b => some ⟨0x2F, 0, Guard.code g, 0, a.val, b.val, 0, 64⟩
  | .wrpRL g a _ => some ⟨0x2F, 1, Guard.code g, 0, a.val, 0, 0, 64⟩
  | .vadd g d a b s z l => some ⟨0x20, 0, Guard.code g, d.val, a.val, b.val, 0, Bool.toCode s * 8 + Bool.toCode z * 4 + Lane.code l⟩
  | .vaddRL g d a s z l _ => some ⟨0x20, 1, Guard.code g, d.val, a.val, 0, 0, Bool.toCode s * 8 + Bool.toCode z * 4 + Lane.code l⟩
  | .vaddRK g d a l k => some ⟨0x20, 2, Guard.code g, d.val, a.val, 0, k.toNat / 32, k.toNat % 32 * 4 + Lane.code l⟩
  | .vsub g d a b s z l => some ⟨0x21, 0, Guard.code g, d.val, a.val, b.val, 0, Bool.toCode s * 8 + Bool.toCode z * 4 + Lane.code l⟩
  | .vsubRL g d a s z l _ => some ⟨0x21, 1, Guard.code g, d.val, a.val, 0, 0, Bool.toCode s * 8 + Bool.toCode z * 4 + Lane.code l⟩
  | .vsubRK g d a l k => some ⟨0x21, 2, Guard.code g, d.val, a.val, 0, k.toNat / 32, k.toNat % 32 * 4 + Lane.code l⟩
  | .vmul g d a b s z l => some ⟨0x22, 0, Guard.code g, d.val, a.val, b.val, 0, Bool.toCode s * 8 + Bool.toCode z * 4 + Lane.code l⟩
  | .vmulRL g d a s z l _ => some ⟨0x22, 1, Guard.code g, d.val, a.val, 0, 0, Bool.toCode s * 8 + Bool.toCode z * 4 + Lane.code l⟩
  | .vmulRK g d a l k => some ⟨0x22, 2, Guard.code g, d.val, a.val, 0, k.toNat / 32, k.toNat % 32 * 4 + Lane.code l⟩
  | .vmin g d a b z l => some ⟨0x23, 0, Guard.code g, d.val, a.val, b.val, 0, Bool.toCode z * 4 + Lane.code l⟩
  | .vminRL g d a z l _ => some ⟨0x23, 1, Guard.code g, d.val, a.val, 0, 0, Bool.toCode z * 4 + Lane.code l⟩
  | .vminRK g d a l k => some ⟨0x23, 2, Guard.code g, d.val, a.val, 0, k.toNat / 32, k.toNat % 32 * 4 + Lane.code l⟩
  | .vmax g d a b z l => some ⟨0x24, 0, Guard.code g, d.val, a.val, b.val, 0, Bool.toCode z * 4 + Lane.code l⟩
  | .vmaxRL g d a z l _ => some ⟨0x24, 1, Guard.code g, d.val, a.val, 0, 0, Bool.toCode z * 4 + Lane.code l⟩
  | .vmaxRK g d a l k => some ⟨0x24, 2, Guard.code g, d.val, a.val, 0, k.toNat / 32, k.toNat % 32 * 4 + Lane.code l⟩
  | .vavg g d a b z l => some ⟨0x25, 0, Guard.code g, d.val, a.val, b.val, 0, Bool.toCode z * 4 + Lane.code l⟩
  | .vavgRL g d a z l _ => some ⟨0x25, 1, Guard.code g, d.val, a.val, 0, 0, Bool.toCode z * 4 + Lane.code l⟩
  | .vavgRK g d a l k => some ⟨0x25, 2, Guard.code g, d.val, a.val, 0, k.toNat / 32, k.toNat % 32 * 4 + Lane.code l⟩
  | .vabsd g d a b z l => some ⟨0x26, 0, Guard.code g, d.val, a.val, b.val, 0, Bool.toCode z * 4 + Lane.code l⟩
  | .vabsdRL g d a z l _ => some ⟨0x26, 1, Guard.code g, d.val, a.val, 0, 0, Bool.toCode z * 4 + Lane.code l⟩
  | .vabsdRK g d a l k => some ⟨0x26, 2, Guard.code g, d.val, a.val, 0, k.toNat / 32, k.toNat % 32 * 4 + Lane.code l⟩
  | .vdot g d a b c z l => some ⟨0x27, 0, Guard.code g, d.val, a.val, b.val, c.val, Bool.toCode z * 4 + Lane.code l⟩
  | .vdotRL g d a b z l _ => some ⟨0x27, 1, Guard.code g, d.val, a.val, b.val, 0, Bool.toCode z * 4 + Lane.code l⟩
  | .vdotRK g d a b l k => some ⟨0x27, 2, Guard.code g, d.val, a.val, b.val, k.toNat / 32, k.toNat % 32 * 4 + Lane.code l⟩
  | .vsum g d a z l => some ⟨0x28, 0, Guard.code g, d.val, a.val, 0, 0, Bool.toCode z * 4 + Lane.code l⟩
  | .vsplat g d a l => some ⟨0x28, 0, Guard.code g, d.val, a.val, 1, 0, Lane.code l⟩
  | .vshf g d a b l => some ⟨0x29, 0, Guard.code g, d.val, a.val, b.val, 0, Lane.code l⟩
  | .vshfRL g d a l _ => some ⟨0x29, 1, Guard.code g, d.val, a.val, 0, 0, Lane.code l⟩
  | .vpack g d a b s z l => some ⟨0x29, 0, Guard.code g, d.val, a.val, b.val, 0, Bool.toCode s * 8 + Bool.toCode z * 4 + Lane.code l + 64⟩
  | .vpackRL g d a s z l _ => some ⟨0x29, 1, Guard.code g, d.val, a.val, 0, 0, Bool.toCode s * 8 + Bool.toCode z * 4 + Lane.code l + 64⟩
  | .vcmp g d a b n z l => some ⟨0x2A, 0, Guard.code g, d.val, a.val, b.val, 0, VCond.code n * 16 + Bool.toCode z * 4 + Lane.code l⟩
  | .vcmpRL g d a n z l _ => some ⟨0x2A, 1, Guard.code g, d.val, a.val, 0, 0, VCond.code n * 16 + Bool.toCode z * 4 + Lane.code l⟩
  | .vcmpRK g d a l k => some ⟨0x2A, 2, Guard.code g, d.val, a.val, 0, k.toNat / 32, k.toNat % 32 * 4 + Lane.code l⟩
  | .vsel g d a b c => some ⟨0x2B, 0, Guard.code g, d.val, a.val, b.val, c.val, 0⟩
  | .vselRL g d a b _ => some ⟨0x2B, 1, Guard.code g, d.val, a.val, b.val, 0, 0⟩
  | .vselRK g d a b k => some ⟨0x2B, 2, Guard.code g, d.val, a.val, b.val, k.toNat / 32, k.toNat % 32 * 4⟩
  | .rand g d a b z => some ⟨0x2C, 0, Guard.code g, d.val, a.val, b.val, 0, Bool.toCode z⟩
  | .randRL g d a z _ => some ⟨0x2C, 1, Guard.code g, d.val, a.val, 0, 0, Bool.toCode z⟩
  | .randRK g d a z k => some ⟨0x2C, 2, Guard.code g, d.val, a.val, 0, k.toNat / 32, k.toNat % 32 * 4 + Bool.toCode z⟩
  | .randRI g d a imm => some ⟨0x2C, 3, Guard.code g, d.val, a.val, imm.toNat / 1024, imm.toNat / 128 % 8, imm.toNat % 128⟩
  | .randf g d a b z => some ⟨0x2D, 0, Guard.code g, d.val, a.val, b.val, 0, Bool.toCode z⟩
  | .randfRL g d a z _ => some ⟨0x2D, 1, Guard.code g, d.val, a.val, 0, 0, Bool.toCode z⟩
  | .randfRK g d a z k => some ⟨0x2D, 2, Guard.code g, d.val, a.val, 0, k.toNat / 32, k.toNat % 32 * 4 + Bool.toCode z⟩
  | .randfRI g d a imm => some ⟨0x2D, 3, Guard.code g, d.val, a.val, imm.toNat / 1024, imm.toNat / 128 % 8, imm.toNat % 128⟩
  | .fadd g d a b r f => some ⟨0x30, 0, Guard.code g, d.val, a.val, b.val, 0, Rm.code r * 4 + FFmt.code f⟩
  | .faddRL g d a r f _ => some ⟨0x30, 1, Guard.code g, d.val, a.val, 0, 0, Rm.code r * 4 + FFmt.code f⟩
  | .faddRK g d a f k => some ⟨0x30, 2, Guard.code g, d.val, a.val, 0, k.toNat / 32, k.toNat % 32 * 4 + FFmt.code f⟩
  | .fsub g d a b r f => some ⟨0x31, 0, Guard.code g, d.val, a.val, b.val, 0, Rm.code r * 4 + FFmt.code f⟩
  | .fsubRL g d a r f _ => some ⟨0x31, 1, Guard.code g, d.val, a.val, 0, 0, Rm.code r * 4 + FFmt.code f⟩
  | .fsubRK g d a f k => some ⟨0x31, 2, Guard.code g, d.val, a.val, 0, k.toNat / 32, k.toNat % 32 * 4 + FFmt.code f⟩
  | .fmul g d a b r f => some ⟨0x32, 0, Guard.code g, d.val, a.val, b.val, 0, Rm.code r * 4 + FFmt.code f⟩
  | .fmulRL g d a r f _ => some ⟨0x32, 1, Guard.code g, d.val, a.val, 0, 0, Rm.code r * 4 + FFmt.code f⟩
  | .fmulRK g d a f k => some ⟨0x32, 2, Guard.code g, d.val, a.val, 0, k.toNat / 32, k.toNat % 32 * 4 + FFmt.code f⟩
  | .fdiv g d a b r f => some ⟨0x34, 0, Guard.code g, d.val, a.val, b.val, 0, Rm.code r * 4 + FFmt.code f⟩
  | .fdivRL g d a r f _ => some ⟨0x34, 1, Guard.code g, d.val, a.val, 0, 0, Rm.code r * 4 + FFmt.code f⟩
  | .fdivRK g d a f k => some ⟨0x34, 2, Guard.code g, d.val, a.val, 0, k.toNat / 32, k.toNat % 32 * 4 + FFmt.code f⟩
  | .fma g d a b c r f => some ⟨0x33, 0, Guard.code g, d.val, a.val, b.val, c.val, Rm.code r * 4 + FFmt.code f⟩
  | .fmaRL g d a b r f _ => some ⟨0x33, 1, Guard.code g, d.val, a.val, b.val, 0, Rm.code r * 4 + FFmt.code f⟩
  | .fmaRK g d a b f k => some ⟨0x33, 2, Guard.code g, d.val, a.val, b.val, k.toNat / 32, k.toNat % 32 * 4 + FFmt.code f⟩
  | .fsqrt g d a r f => some ⟨0x35, 0, Guard.code g, d.val, a.val, 0, 0, Rm.code r * 4 + FFmt.code f⟩
  | .fmin g d a b f => some ⟨0x36, 0, Guard.code g, d.val, a.val, b.val, 0, FFmt.code f⟩
  | .fminRL g d a f _ => some ⟨0x36, 1, Guard.code g, d.val, a.val, 0, 0, FFmt.code f⟩
  | .fminRK g d a f k => some ⟨0x36, 2, Guard.code g, d.val, a.val, 0, k.toNat / 32, k.toNat % 32 * 4 + FFmt.code f⟩
  | .fmax g d a b f => some ⟨0x37, 0, Guard.code g, d.val, a.val, b.val, 0, FFmt.code f⟩
  | .fmaxRL g d a f _ => some ⟨0x37, 1, Guard.code g, d.val, a.val, 0, 0, FFmt.code f⟩
  | .fmaxRK g d a f k => some ⟨0x37, 2, Guard.code g, d.val, a.val, 0, k.toNat / 32, k.toNat % 32 * 4 + FFmt.code f⟩
  | .fabs g d a f => some ⟨0x38, 0, Guard.code g, d.val, a.val, 0, 0, FFmt.code f⟩
  | .fneg g d a f => some ⟨0x39, 0, Guard.code g, d.val, a.val, 0, 0, FFmt.code f⟩
  | .fcmp g p a b n f => some ⟨0x3A, 0, Guard.code g, p.val, a.val, b.val, 0, FCond.code n * 4 + FFmt.code f⟩
  | .fcmpRL g p a n f _ => some ⟨0x3A, 1, Guard.code g, p.val, a.val, 0, 0, FCond.code n * 4 + FFmt.code f⟩
  | .fcmpRK g p a f k => some ⟨0x3A, 2, Guard.code g, p.val, a.val, 0, k.toNat / 32, k.toNat % 32 * 4 + FFmt.code f⟩
  | .fclass g d a f => some ⟨0x3B, 0, Guard.code g, d.val, a.val, 0, 0, FFmt.code f⟩
  | .fcvt g d a b c => some ⟨0x3C, 0, Guard.code g, d.val, a.val, b.val, c.val, 0⟩
  | .fcvtRL g d a b _ => some ⟨0x3C, 1, Guard.code g, d.val, a.val, b.val, 0, 0⟩
  | .fcvtRK g d a b k => some ⟨0x3C, 2, Guard.code g, d.val, a.val, b.val, k.toNat / 32, k.toNat % 32 * 4⟩
  | .fround g d a r f => some ⟨0x3D, 0, Guard.code g, d.val, a.val, 0, 0, Rm.code r * 4 + FFmt.code f⟩
  | .vfma g d a b c r f => some ⟨0x3E, 0, Guard.code g, d.val, a.val, b.val, c.val, Rm.code r * 4 + FFmt.code f⟩
  | .vfmaRL g d a b r f _ => some ⟨0x3E, 1, Guard.code g, d.val, a.val, b.val, 0, Rm.code r * 4 + FFmt.code f⟩
  | .vfmaRK g d a b f k => some ⟨0x3E, 2, Guard.code g, d.val, a.val, b.val, k.toNat / 32, k.toNat % 32 * 4 + FFmt.code f⟩
  | .xcvt g d a => some ⟨0x3F, 0, Guard.code g, d.val, a.val, 0, 0, 0⟩
  | .tdesc g d a b pf => some ⟨0x40, 0, Guard.code g, d.val, a.val, b.val, 0, pf.val⟩
  | .tdescRL g d a pf _ => some ⟨0x40, 1, Guard.code g, d.val, a.val, 0, 0, pf.val⟩
  | .tdescRK g d a pf k => some ⟨0x40, 2, Guard.code g, d.val, a.val, 0, k.toNat / 32, k.toNat % 32 * 4 + pf.val⟩
  | .tdescRI g d a imm => some ⟨0x40, 3, Guard.code g, d.val, a.val, imm.toNat / 1024, imm.toNat / 128 % 8, imm.toNat % 128⟩
  | .tfree g a => some ⟨0x41, 0, Guard.code g, 0, a.val, 0, 0, 0⟩
  | .tinfo g d a b => some ⟨0x42, 0, Guard.code g, d.val, a.val, b.val, 0, 0⟩
  | .tinfoRI g d a imm => some ⟨0x42, 3, Guard.code g, d.val, a.val, imm.toNat / 1024, imm.toNat / 128 % 8, imm.toNat % 128⟩
  | .tadd g d a b c r o => some ⟨0x43, 0, Guard.code g, d.val, a.val, b.val, c.val, Rm.code r * 2 + Bool.toCode o⟩
  | .tsub g d a b c r o => some ⟨0x44, 0, Guard.code g, d.val, a.val, b.val, c.val, Rm.code r * 2 + Bool.toCode o⟩
  | .tmul g d a b c r o => some ⟨0x45, 0, Guard.code g, d.val, a.val, b.val, c.val, Rm.code r * 2 + Bool.toCode o⟩
  | .tmax g d a b c r o => some ⟨0x47, 0, Guard.code g, d.val, a.val, b.val, c.val, Rm.code r * 2 + Bool.toCode o⟩
  | .tmin g d a b c r o => some ⟨0x48, 0, Guard.code g, d.val, a.val, b.val, c.val, Rm.code r * 2 + Bool.toCode o⟩
  | .tfma g d a b c r o => some ⟨0x46, 0, Guard.code g, d.val, a.val, b.val, c.val, Rm.code r * 2 + Bool.toCode o⟩
  | .tscale g d a b c r o => some ⟨0x49, 0, Guard.code g, d.val, a.val, b.val, c.val, Rm.code r * 2 + Bool.toCode o⟩
  | .tscaleRL g d a b r o _ => some ⟨0x49, 1, Guard.code g, d.val, a.val, b.val, 0, Rm.code r * 2 + Bool.toCode o⟩
  | .tscaleRK g d a b r o k => some ⟨0x49, 2, Guard.code g, d.val, a.val, b.val, k.toNat / 32, k.toNat % 32 * 4 + Rm.code r * 2 + Bool.toCode o⟩
  | .tcvt g d a b r o => some ⟨0x4A, 0, Guard.code g, d.val, a.val, b.val, 0, Rm.code r * 2 + Bool.toCode o⟩
  | .tredmax g d a x y r => some ⟨0x4B, 0, Guard.code g, d.val, a.val, 0, 0, Bool.toCode x * 32 + Bool.toCode y * 16 + Rm.code r * 2⟩
  | .tredsum g d a x r => some ⟨0x4B, 0, Guard.code g, d.val, a.val, 0, 0, Bool.toCode x * 32 + Rm.code r * 2 + 64⟩
  | .ttrans g d a r o => some ⟨0x4C, 0, Guard.code g, d.val, a.val, 0, 0, Rm.code r * 2 + Bool.toCode o⟩
  | .tfill g d b n r o => some ⟨0x4D, 0, Guard.code g, d.val, 0, b.val, 0, Bool.toCode n * 32 + Rm.code r * 2 + Bool.toCode o⟩
  | .tfillRL g d n r o _ => some ⟨0x4D, 1, Guard.code g, d.val, 0, 0, 0, Bool.toCode n * 32 + Rm.code r * 2 + Bool.toCode o⟩
  | .tfillRK g d r o k => some ⟨0x4D, 2, Guard.code g, d.val, 0, 0, k.toNat / 32, k.toNat % 32 * 4 + Rm.code r * 2 + Bool.toCode o⟩
  | .tget g d a b => some ⟨0x4E, 0, Guard.code g, d.val, a.val, b.val, 0, 0⟩
  | .tgetRL g d a _ => some ⟨0x4E, 1, Guard.code g, d.val, a.val, 0, 0, 0⟩
  | .tgetRK g d a k => some ⟨0x4E, 2, Guard.code g, d.val, a.val, 0, k.toNat / 32, k.toNat % 32 * 4⟩
  | .tgetRI g d a imm => some ⟨0x4E, 3, Guard.code g, d.val, a.val, imm.toNat / 1024, imm.toNat / 128 % 8, imm.toNat % 128⟩
  | .tset g d a b => some ⟨0x4F, 0, Guard.code g, d.val, a.val, b.val, 0, 0⟩
  | .tsetRL g d a _ => some ⟨0x4F, 1, Guard.code g, d.val, a.val, 0, 0, 0⟩
  | .tsetRK g d a k => some ⟨0x4F, 2, Guard.code g, d.val, a.val, 0, k.toNat / 32, k.toNat % 32 * 4⟩
  | .tsetRI g d a imm => some ⟨0x4F, 3, Guard.code g, d.val, a.val, imm.toNat / 1024, imm.toNat / 128 % 8, imm.toNat % 128⟩
  | .mxm g d a b c t n => some ⟨0x50, 0, Guard.code g, d.val, a.val, b.val, c.val, Bool.toCode t * 2 + Bool.toCode n⟩
  | .mxmRL g d a b t n _ => some ⟨0x50, 1, Guard.code g, d.val, a.val, b.val, 0, Bool.toCode t * 2 + Bool.toCode n⟩
  | .mxmRK g d a b t n k => some ⟨0x50, 2, Guard.code g, d.val, a.val, b.val, k.toNat / 32, k.toNat % 32 * 4 + Bool.toCode t * 2 + Bool.toCode n⟩
  | .mxmz g d a b c t n => some ⟨0x51, 0, Guard.code g, d.val, a.val, b.val, c.val, Bool.toCode t * 2 + Bool.toCode n⟩
  | .mxmzRL g d a b t n _ => some ⟨0x51, 1, Guard.code g, d.val, a.val, b.val, 0, Bool.toCode t * 2 + Bool.toCode n⟩
  | .mxmzRK g d a b t n k => some ⟨0x51, 2, Guard.code g, d.val, a.val, b.val, k.toNat / 32, k.toNat % 32 * 4 + Bool.toCode t * 2 + Bool.toCode n⟩
  | .mxflush g a l => some ⟨0x52, 0, Guard.code g, 0, a.val, 0, 0, Bool.toCode l⟩
  | .mxnorm g d a b => some ⟨0x53, 0, Guard.code g, d.val, a.val, b.val, 0, 0⟩
  | .mxnormRL g d a _ => some ⟨0x53, 1, Guard.code g, d.val, a.val, 0, 0, 0⟩
  | .mxexp g d a l => some ⟨0x53, 0, Guard.code g, d.val, a.val, 0, 0, Bool.toCode l + 64⟩
  | .ld g d a b o y z w => some ⟨0x54, 0, Guard.code g, d.val, a.val, b.val, Scope.accessCode o, Space.code y * 8 + Bool.toCode z * 4 + Width.code w⟩
  | .ldRL g d a o y z w _ => some ⟨0x54, 1, Guard.code g, d.val, a.val, 0, Scope.accessCode o, Space.code y * 8 + Bool.toCode z * 4 + Width.code w⟩
  | .ldRK g d a w k => some ⟨0x54, 2, Guard.code g, d.val, a.val, 0, k.toNat / 32, k.toNat % 32 * 4 + Width.code w⟩
  | .ldRI g d a imm => some ⟨0x54, 3, Guard.code g, d.val, a.val, imm.toNat / 1024, imm.toNat / 128 % 8, imm.toNat % 128⟩
  | .st g d a b o y w => some ⟨0x55, 0, Guard.code g, d.val, a.val, b.val, Scope.accessCode o, Space.code y * 8 + Width.code w⟩
  | .stRL g d a o y w _ => some ⟨0x55, 1, Guard.code g, d.val, a.val, 0, Scope.accessCode o, Space.code y * 8 + Width.code w⟩
  | .stRK g d a w k => some ⟨0x55, 2, Guard.code g, d.val, a.val, 0, k.toNat / 32, k.toNat % 32 * 4 + Width.code w⟩
  | .stRI g d a imm => some ⟨0x55, 3, Guard.code g, d.val, a.val, imm.toNat / 1024, imm.toNat / 128 % 8, imm.toNat % 128⟩
  | .ld2 g d a b o y => some ⟨0x56, 0, Guard.code g, d.val, a.val, b.val, Scope.accessCode o, Space.code y * 8⟩
  | .ld2RL g d a o y _ => some ⟨0x56, 1, Guard.code g, d.val, a.val, 0, Scope.accessCode o, Space.code y * 8⟩
  | .ld2RK g d a k => some ⟨0x56, 2, Guard.code g, d.val, a.val, 0, k.toNat / 32, k.toNat % 32 * 4⟩
  | .ld2RI g d a imm => some ⟨0x56, 3, Guard.code g, d.val, a.val, imm.toNat / 1024, imm.toNat / 128 % 8, imm.toNat % 128⟩
  | .st2 g d a b o y => some ⟨0x57, 0, Guard.code g, d.val, a.val, b.val, Scope.accessCode o, Space.code y * 8⟩
  | .st2RL g d a o y _ => some ⟨0x57, 1, Guard.code g, d.val, a.val, 0, Scope.accessCode o, Space.code y * 8⟩
  | .st2RK g d a k => some ⟨0x57, 2, Guard.code g, d.val, a.val, 0, k.toNat / 32, k.toNat % 32 * 4⟩
  | .st2RI g d a imm => some ⟨0x57, 3, Guard.code g, d.val, a.val, imm.toNat / 1024, imm.toNat / 128 % 8, imm.toNat % 128⟩
  | .ldq g d a b o u f => some ⟨0x58, 0, Guard.code g, d.val, a.val, b.val, Scope.accessCode o, Bool.toCode u * 64 + Fmt.code f⟩
  | .ldqRL g d a o u f _ => some ⟨0x58, 1, Guard.code g, d.val, a.val, 0, Scope.accessCode o, Bool.toCode u * 64 + Fmt.code f⟩
  | .ldb g d a b c y z w => some ⟨0x59, 0, Guard.code g, d.val, a.val, b.val, c.val, Space.code y * 8 + Bool.toCode z * 4 + Width.code w⟩
  | .ldbRL g d a b y z w _ => some ⟨0x59, 1, Guard.code g, d.val, a.val, b.val, 0, Space.code y * 8 + Bool.toCode z * 4 + Width.code w⟩
  | .ldbRK g d a b w k => some ⟨0x59, 2, Guard.code g, d.val, a.val, b.val, k.toNat / 32, k.toNat % 32 * 4 + Width.code w⟩
  | .ldfe g d a b z y => some ⟨0x5A, 0, Guard.code g, d.val, a.val, b.val, 0, Bool.toCode z * 4 + Space.code y⟩
  | .ldfeRL g d a z y _ => some ⟨0x5A, 1, Guard.code g, d.val, a.val, 0, 0, Bool.toCode z * 4 + Space.code y⟩
  | .ldfeRK g d a y k => some ⟨0x5A, 2, Guard.code g, d.val, a.val, 0, k.toNat / 32, k.toNat % 32 * 4 + Space.code y⟩
  | .ldfeRI g d a imm => some ⟨0x5A, 3, Guard.code g, d.val, a.val, imm.toNat / 1024, imm.toNat / 128 % 8, imm.toNat % 128⟩
  | .stfe g d a b y => some ⟨0x5B, 0, Guard.code g, d.val, a.val, b.val, 0, Space.code y⟩
  | .stfeRL g d a y _ => some ⟨0x5B, 1, Guard.code g, d.val, a.val, 0, 0, Space.code y⟩
  | .stfeRK g d a y k => some ⟨0x5B, 2, Guard.code g, d.val, a.val, 0, k.toNat / 32, k.toNat % 32 * 4 + Space.code y⟩
  | .stfeRI g d a imm => some ⟨0x5B, 3, Guard.code g, d.val, a.val, imm.toNat / 1024, imm.toNat / 128 % 8, imm.toNat % 128⟩
  | .feset g a b u y => some ⟨0x5C, 0, Guard.code g, 0, a.val, b.val, 0, Bool.toCode u * 4 + Space.code y⟩
  | .fesetRL g a u y _ => some ⟨0x5C, 1, Guard.code g, 0, a.val, 0, 0, Bool.toCode u * 4 + Space.code y⟩
  | .fesetRK g a y k => some ⟨0x5C, 2, Guard.code g, 0, a.val, 0, k.toNat / 32, k.toNat % 32 * 4 + Space.code y⟩
  | .fesetRI g a imm => some ⟨0x5C, 3, Guard.code g, 0, a.val, imm.toNat / 1024, imm.toNat / 128 % 8, imm.toNat % 128⟩
  | .pref g a b x => some ⟨0x5D, 0, Guard.code g, 0, a.val, b.val, 0, Bool.toCode x⟩
  | .prefRL g a x _ => some ⟨0x5D, 1, Guard.code g, 0, a.val, 0, 0, Bool.toCode x⟩
  | .prefRK g a x k => some ⟨0x5D, 2, Guard.code g, 0, a.val, 0, k.toNat / 32, k.toNat % 32 * 4 + Bool.toCode x⟩
  | .prefRI g a imm => some ⟨0x5D, 3, Guard.code g, 0, a.val, imm.toNat / 1024, imm.toNat / 128 % 8, imm.toNat % 128⟩
  | .cwb g a b => some ⟨0x5E, 0, Guard.code g, 0, a.val, b.val, 0, 0⟩
  | .cwbRL g a _ => some ⟨0x5E, 1, Guard.code g, 0, a.val, 0, 0, 0⟩
  | .cwbRK g a k => some ⟨0x5E, 2, Guard.code g, 0, a.val, 0, k.toNat / 32, k.toNat % 32 * 4⟩
  | .cwbRI g a imm => some ⟨0x5E, 3, Guard.code g, 0, a.val, imm.toNat / 1024, imm.toNat / 128 % 8, imm.toNat % 128⟩
  | .cinv g a b => some ⟨0x5F, 0, Guard.code g, 0, a.val, b.val, 0, 0⟩
  | .cinvRL g a _ => some ⟨0x5F, 1, Guard.code g, 0, a.val, 0, 0, 0⟩
  | .cinvRK g a k => some ⟨0x5F, 2, Guard.code g, 0, a.val, 0, k.toNat / 32, k.toNat % 32 * 4⟩
  | .cinvRI g a imm => some ⟨0x5F, 3, Guard.code g, 0, a.val, imm.toNat / 1024, imm.toNat / 128 % 8, imm.toNat % 128⟩
  | .aadd g d a b o w => some ⟨0x60, 0, Guard.code g, d.val, a.val, b.val, 0, AOrd.code o * 4 + AWidth.code w⟩
  | .aaddRL g d a o w _ => some ⟨0x60, 1, Guard.code g, d.val, a.val, 0, 0, AOrd.code o * 4 + AWidth.code w⟩
  | .aand g d a b o w => some ⟨0x61, 0, Guard.code g, d.val, a.val, b.val, 0, AOrd.code o * 4 + AWidth.code w⟩
  | .aandRL g d a o w _ => some ⟨0x61, 1, Guard.code g, d.val, a.val, 0, 0, AOrd.code o * 4 + AWidth.code w⟩
  | .aor g d a b o w => some ⟨0x61, 0, Guard.code g, d.val, a.val, b.val, 0, AOrd.code o * 4 + AWidth.code w + 32⟩
  | .aorRL g d a o w _ => some ⟨0x61, 1, Guard.code g, d.val, a.val, 0, 0, AOrd.code o * 4 + AWidth.code w + 32⟩
  | .axor g d a b o w => some ⟨0x61, 0, Guard.code g, d.val, a.val, b.val, 0, AOrd.code o * 4 + AWidth.code w + 64⟩
  | .axorRL g d a o w _ => some ⟨0x61, 1, Guard.code g, d.val, a.val, 0, 0, AOrd.code o * 4 + AWidth.code w + 64⟩
  | .amin g d a b o w => some ⟨0x62, 0, Guard.code g, d.val, a.val, b.val, 0, AOrd.code o * 4 + AWidth.code w⟩
  | .aminRL g d a o w _ => some ⟨0x62, 1, Guard.code g, d.val, a.val, 0, 0, AOrd.code o * 4 + AWidth.code w⟩
  | .amax g d a b o w => some ⟨0x62, 0, Guard.code g, d.val, a.val, b.val, 0, AOrd.code o * 4 + AWidth.code w + 64⟩
  | .amaxRL g d a o w _ => some ⟨0x62, 1, Guard.code g, d.val, a.val, 0, 0, AOrd.code o * 4 + AWidth.code w + 64⟩
  | .aminu g d a b o w => some ⟨0x63, 0, Guard.code g, d.val, a.val, b.val, 0, AOrd.code o * 4 + AWidth.code w⟩
  | .aminuRL g d a o w _ => some ⟨0x63, 1, Guard.code g, d.val, a.val, 0, 0, AOrd.code o * 4 + AWidth.code w⟩
  | .amaxu g d a b o w => some ⟨0x63, 0, Guard.code g, d.val, a.val, b.val, 0, AOrd.code o * 4 + AWidth.code w + 64⟩
  | .amaxuRL g d a o w _ => some ⟨0x63, 1, Guard.code g, d.val, a.val, 0, 0, AOrd.code o * 4 + AWidth.code w + 64⟩
  | .aswp g d a b o w => some ⟨0x64, 0, Guard.code g, d.val, a.val, b.val, 0, AOrd.code o * 4 + AWidth.code w⟩
  | .aswpRL g d a o w _ => some ⟨0x64, 1, Guard.code g, d.val, a.val, 0, 0, AOrd.code o * 4 + AWidth.code w⟩
  | .acas g d a b c o w => some ⟨0x65, 0, Guard.code g, d.val, a.val, b.val, c.val, AOrd.code o * 4 + CasWidth.code w⟩
  | .acasRL g d a b o w _ => some ⟨0x65, 1, Guard.code g, d.val, a.val, b.val, 0, AOrd.code o * 4 + CasWidth.code w⟩
  | .afadd g d a b o f => some ⟨0x66, 0, Guard.code g, d.val, a.val, b.val, 0, AOrd.code o * 4 + AFmt.code f⟩
  | .afaddRL g d a o f _ => some ⟨0x66, 1, Guard.code g, d.val, a.val, 0, 0, AOrd.code o * 4 + AFmt.code f⟩
  | .axadd g d a b o f => some ⟨0x67, 0, Guard.code g, d.val, a.val, b.val, 0, AOrd.code o * 4 + AFmt.code f⟩
  | .axaddRL g d a o f _ => some ⟨0x67, 1, Guard.code g, d.val, a.val, 0, 0, AOrd.code o * 4 + AFmt.code f⟩
  | .fence g s => some ⟨0x68, 0, Guard.code g, 0, 0, 0, 0, Scope.fenceCode s⟩
  | .bara g d a b => some ⟨0x69, 0, Guard.code g, d.val, a.val, b.val, 0, 0⟩
  | .baraRL g d a _ => some ⟨0x69, 1, Guard.code g, d.val, a.val, 0, 0, 0⟩
  | .barc g d a b => some ⟨0x69, 0, Guard.code g, d.val, a.val, b.val, 0, 64⟩
  | .barcRL g d a _ => some ⟨0x69, 1, Guard.code g, d.val, a.val, 0, 0, 64⟩
  | .swait g d a b => some ⟨0x6A, 0, Guard.code g, d.val, a.val, b.val, 0, 0⟩
  | .swaitRL g d a _ => some ⟨0x6A, 1, Guard.code g, d.val, a.val, 0, 0, 0⟩
  | .swaitRK g d a k => some ⟨0x6A, 2, Guard.code g, d.val, a.val, 0, k.toNat / 32, k.toNat % 32 * 4⟩
  | .swaitRI g d a imm => some ⟨0x6A, 3, Guard.code g, d.val, a.val, imm.toNat / 1024, imm.toNat / 128 % 8, imm.toNat % 128⟩
  | .sarm g d a b c y f pf => some ⟨0x6B, 0, Guard.code g, d.val, a.val, b.val, c.val, Space.code y * 16 + Bool.toCode f * 8 + pf.val⟩
  | .sarmRL g d a b y f pf _ => some ⟨0x6B, 1, Guard.code g, d.val, a.val, b.val, 0, Space.code y * 16 + Bool.toCode f * 8 + pf.val⟩
  | .cpy g d a b c pf => some ⟨0x6C, 0, Guard.code g, d.val, a.val, b.val, c.val, pf.val⟩
  | .cpyRL g d a b pf _ => some ⟨0x6C, 1, Guard.code g, d.val, a.val, b.val, 0, pf.val⟩
  | .cpy2 g d a b c pf => some ⟨0x6C, 0, Guard.code g, d.val, a.val, b.val, c.val, pf.val + 32⟩
  | .cpy2RL g d a b pf _ => some ⟨0x6C, 1, Guard.code g, d.val, a.val, b.val, 0, pf.val + 32⟩
  | .cpyg g d a b c pf => some ⟨0x6C, 0, Guard.code g, d.val, a.val, b.val, c.val, pf.val + 64⟩
  | .tload g d a b c s pf => some ⟨0x6D, 0, Guard.code g, d.val, a.val, b.val, c.val, Bool.toCode s * 8 + pf.val⟩
  | .tloadRL g d a b s pf _ => some ⟨0x6D, 1, Guard.code g, d.val, a.val, b.val, 0, Bool.toCode s * 8 + pf.val⟩
  | .tstore g d a b c pf => some ⟨0x6D, 0, Guard.code g, d.val, a.val, b.val, c.val, pf.val + 64⟩
  | .tstoreRL g d a b pf _ => some ⟨0x6D, 1, Guard.code g, d.val, a.val, b.val, 0, pf.val + 64⟩
  | .jpoll g d a pf => some ⟨0x6E, 0, Guard.code g, d.val, a.val, 0, 0, pf.val⟩
  | .jwait g d a => some ⟨0x6E, 0, Guard.code g, d.val, a.val, 0, 0, 64⟩
  | .jcancel g d a => some ⟨0x6F, 0, Guard.code g, d.val, a.val, 0, 0, 0⟩
  | .b g disp => some ⟨0x70, 0, Guard.code g, disp.toNat / 65536, disp.toNat / 8192 % 8, disp.toNat / 1024 % 8, disp.toNat / 128 % 8, disp.toNat % 128⟩
  | .call g disp => some ⟨0x71, 0, Guard.code g, disp.toNat / 65536, disp.toNat / 8192 % 8, disp.toNat / 1024 % 8, disp.toNat / 128 % 8, disp.toNat % 128⟩
  | .dbnz g r disp => some ⟨0x72, 0, Guard.code g, r.val, disp.toNat / 8192, disp.toNat / 1024 % 8, disp.toNat / 128 % 8, disp.toNat % 128⟩
  | .jmp g b => some ⟨0x73, 0, Guard.code g, 0, 0, b.val, 0, 0⟩
  | .jmpRL g _ => some ⟨0x73, 1, Guard.code g, 0, 0, 0, 0, 0⟩
  | .callr g b => some ⟨0x73, 0, Guard.code g, 0, 0, b.val, 0, 32⟩
  | .callrRL g _ => some ⟨0x73, 1, Guard.code g, 0, 0, 0, 0, 32⟩
  | .ret g k => some ⟨0x73, 0, Guard.code g, 0, 0, 0, 0, Bool.toCode k + 64⟩
  | .spawn g d a b c s pf => some ⟨0x74, 0, Guard.code g, d.val, a.val, b.val, c.val, Steal.code s * 16 + pf.val⟩
  | .spawnRL g d a b s pf _ => some ⟨0x74, 1, Guard.code g, d.val, a.val, b.val, 0, Steal.code s * 16 + pf.val⟩
  | .launch g d a b pf => some ⟨0x74, 0, Guard.code g, d.val, a.val, b.val, 0, pf.val + 64⟩
  | .launchRL g d a pf _ => some ⟨0x74, 1, Guard.code g, d.val, a.val, 0, 0, pf.val + 64⟩
  | .qpush g d a b pf => some ⟨0x75, 0, Guard.code g, d.val, a.val, b.val, 0, pf.val⟩
  | .qpushRL g d a pf _ => some ⟨0x75, 1, Guard.code g, d.val, a.val, 0, 0, pf.val⟩
  | .qpop g d a pf => some ⟨0x75, 0, Guard.code g, d.val, a.val, 0, 0, pf.val + 64⟩
  | .done g => some ⟨0x76, 0, Guard.code g, 0, 0, 0, 0, 0⟩
  | .waitc g => some ⟨0x76, 0, Guard.code g, 0, 0, 0, 0, 32⟩
  | .yield g => some ⟨0x76, 0, Guard.code g, 0, 0, 0, 0, 64⟩
  | .halt g a r => some ⟨0x76, 0, Guard.code g, 0, a.val, 0, 0, Bool.toCode r + 96⟩
  | .sleep g b => some ⟨0x77, 0, Guard.code g, 0, 0, b.val, 0, 0⟩
  | .sleepRL g _ => some ⟨0x77, 1, Guard.code g, 0, 0, 0, 0, 0⟩
  | .prio g d b => some ⟨0x77, 0, Guard.code g, d.val, 0, b.val, 0, 64⟩
  | .prioRL g d _ => some ⟨0x77, 1, Guard.code g, d.val, 0, 0, 0, 64⟩
  | .rsr g d n => some ⟨0x78, 0, Guard.code g, d.val, 0, 0, 0, SReg.code n⟩
  | .wsr g b n => some ⟨0x78, 0, Guard.code g, 0, 0, b.val, 0, SReg.code n + 64⟩
  | .wsrRL g n _ => some ⟨0x78, 1, Guard.code g, 0, 0, 0, 0, SReg.code n + 64⟩
  | .trap g b => some ⟨0x79, 0, Guard.code g, 0, 0, b.val, 0, 0⟩
  | .trapRL g _ => some ⟨0x79, 1, Guard.code g, 0, 0, 0, 0, 0⟩
  | .wake g a => some ⟨0x79, 0, Guard.code g, 0, a.val, 0, 0, 32⟩
  | .kill g d a => some ⟨0x79, 0, Guard.code g, d.val, a.val, 0, 0, 64⟩
  | .resume g d a => some ⟨0x79, 0, Guard.code g, d.val, a.val, 0, 0, 96⟩
  | .slotw g a b => some ⟨0x7A, 0, Guard.code g, 0, a.val, b.val, 0, 0⟩
  | .slotwRL g a _ => some ⟨0x7A, 1, Guard.code g, 0, a.val, 0, 0, 0⟩
  | .plbi g a b => some ⟨0x7A, 0, Guard.code g, 0, a.val, b.val, 0, 32⟩
  | .plbiRL g a _ => some ⟨0x7A, 1, Guard.code g, 0, a.val, 0, 0, 32⟩
  | .tlbi g b => some ⟨0x7A, 0, Guard.code g, 0, 0, b.val, 0, 64⟩
  | .tlbiRL g _ => some ⟨0x7A, 1, Guard.code g, 0, 0, 0, 0, 64⟩
  | .pmig g d a b pf => some ⟨0x7A, 0, Guard.code g, d.val, a.val, b.val, 0, pf.val + 96⟩
  | .pmigRL g d a pf _ => some ⟨0x7A, 1, Guard.code g, d.val, a.val, 0, 0, pf.val + 96⟩
  | .ovl g a n => some ⟨0x7B, 0, Guard.code g, 0, a.val, 0, 0, Bool.toCode n⟩
  | .ovlq g d b => some ⟨0x7B, 0, Guard.code g, d.val, 0, b.val, 0, 64⟩
  | .ovlqRL g d _ => some ⟨0x7B, 1, Guard.code g, d.val, 0, 0, 0, 64⟩
  | .fmai d a imm => some ⟨0x7E + d.val / 4, d.val % 4, a.val * 2 + imm.toNat / 524288, imm.toNat / 65536 % 8,
      imm.toNat / 8192 % 8, imm.toNat / 1024 % 8, imm.toNat / 128 % 8, imm.toNat % 128⟩
  | .registerWrite _ => none
  | .launchQueueTailWrite _ => none
  | .launchRecordDiscard _ => none
  | .chunkRequest _ => none
  | .chunkGrant _ => none
  | .readyEntryAging _ _ => none
  | .dispatchOffer _ => none
  | .contextClaim _ => none
  | .claimLost _ => none
  | .contextFill _ => none
  | .contextEviction _ _ => none
  | .contextWritebackPerformed _ _ => none
  | .contextWritebackRetry _ => none
  | .claimPageFaultReoffer _ _ => none
  | .stealRequest _ => none
  | .stealServe _ => none
  | .dequeSiblingSteal _ => none
  | .gangReserve _ => none
  | .issueCycle _ => none
  | .contextMessageApply _ => none
  | .joinMessage _ => none
  | .wakeMessage _ => none
  | .nackMessage _ => none
  | .killAtHome _ => none
  | .resumeAtHome _ => none
  | .sleepWake _ => none
  | .pageFaultTimedWake _ => none
  | .faultRecordAppend _ => none
  | .handlerWakeRetry _ => none
  | .errorLogAppend _ => none
  | .elogLostClear _ => none
  | .plbRefill _ => none
  | .plbiCoreInvalidate _ _ => none
  | .translationLookup _ => none
  | .pfqMessageAccept _ _ => none
  | .pfqHeadWrite _ => none
  | .tlbiBrickInvalidate _ _ => none
  | .migrationRound _ => none
  | .migrationFreeze _ => none
  | .migrationFreezeAbandon _ => none
  | .partRectWrite _ => none
  | .clmTspBankAccess _ => none
  | .feWaitTimeout _ _ => none
  | .feNoentRetry _ => none
  | .barWaitTimeout _ _ => none
  | .storeBufferAccept _ => none
  | .fenceProbe _ => none
  | .probeEcho _ => none
  | .readRequest _ => none
  | .subscribeRequest _ => none
  | .precisionChange _ => none
  | .storeRequest _ => none
  | .homeAtomic _ => none
  | .writeBack _ => none
  | .dropNotice _ => none
  | .snoopShare _ => none
  | .snoopInvalidate _ => none
  | .update _ => none
  | .homeEntryLeaseExpiry _ => none
  | .heldWriteLeaseExpiry _ => none
  | .combineEntryClose _ => none
  | .hostCxlMemRead _ => none
  | .hostCxlMemWrite _ _ => none
  | .hostSnoop _ _ => none
  | .pcieCompletion _ _ => none
  | .pcieCompletionTimeout _ => none
  | .talakGet _ _ _ => none
  | .talakGetLease _ _ => none
  | .talakRenew _ _ _ => none
  | .talakPut _ _ _ => none
  | .talakAtomic _ _ _ _ _ _ => none
  | .talakAck _ => none
  | .talakNack _ _ => none
  | .overlayLoadComplete _ _ => none
  | .overlayLoadFail _ _ => none
  | .jobSubmission _ => none
  | .jobStart _ => none
  | .copyLineWrite _ _ => none
  | .tileRefreshStart _ => none
  | .tileRefreshComplete _ _ => none
  | .tileRefreshFail _ _ => none
  | .tileZeroingComplete _ _ => none
  | .tileOpArrival _ => none
  | .tileOpExecute _ => none
  | .tdescDiscardNotice _ => none
  | .geyserAdmission _ => none
  | .geyserHoldExpire _ _ => none
  | .geyserRetryReissue _ => none
  | .engineSelect _ => none
  | .stackFire _ => none
  | .engineNormOp _ => none
  | .ctCommit _ => none
  | .circuitTuningComplete => none
  | .circuitTuneTimeout _ => none
  | .brickQuiesce _ => none
  | .brickQuiesceComplete => none
  | .brickLinkTrained => none
  | .attGo _ => none
  | .attestationComplete => none
  | .coldBoot => none
  | .recoveryImageWrite _ => none
  | .ucieRetrainFail _ _ => none
  | .eccError _ => none
  | .thermalThrottle _ _ _ => none
  | .talakReply _ _ => none
  | .talakFlitCrcRetry _ => none
  | .ucieLinkRetraining _ _ => none
  | .backInvalidateResponse _ _ => none
  | .cxlCacheGrant _ _ _ => none

/-- The trailing literal of an instruction; 0 where its format carries none (R143). -/
def literalOf : Instr → BitVec 32
  | .add _ _ _ _ _ _ _ => 0
  | .addRL _ _ _ _ _ _ lit => lit
  | .addRK _ _ _ _ _ => 0
  | .addRI _ _ _ _ => 0
  | .sub _ _ _ _ _ _ _ => 0
  | .subRL _ _ _ _ _ _ lit => lit
  | .subRK _ _ _ _ _ => 0
  | .subRI _ _ _ _ => 0
  | .mul _ _ _ _ _ _ => 0
  | .mulRL _ _ _ _ _ lit => lit
  | .mulRK _ _ _ _ _ => 0
  | .mulRI _ _ _ _ => 0
  | .mulh _ _ _ _ _ _ => 0
  | .mulhRL _ _ _ _ _ lit => lit
  | .mulhRK _ _ _ _ _ => 0
  | .mulhRI _ _ _ _ => 0
  | .mulhu _ _ _ _ _ _ => 0
  | .mulhuRL _ _ _ _ _ lit => lit
  | .mulhuRK _ _ _ _ _ => 0
  | .mulhuRI _ _ _ _ => 0
  | .div _ _ _ _ _ _ => 0
  | .divRL _ _ _ _ _ lit => lit
  | .divRK _ _ _ _ _ => 0
  | .divRI _ _ _ _ => 0
  | .divu _ _ _ _ _ _ => 0
  | .divuRL _ _ _ _ _ lit => lit
  | .divuRK _ _ _ _ _ => 0
  | .divuRI _ _ _ _ => 0
  | .rem _ _ _ _ _ _ => 0
  | .remRL _ _ _ _ _ lit => lit
  | .remRK _ _ _ _ _ => 0
  | .remRI _ _ _ _ => 0
  | .remu _ _ _ _ _ _ => 0
  | .remuRL _ _ _ _ _ lit => lit
  | .remuRK _ _ _ _ _ => 0
  | .remuRI _ _ _ _ => 0
  | .and _ _ _ _ _ _ => 0
  | .andRL _ _ _ _ _ lit => lit
  | .andRK _ _ _ _ _ => 0
  | .andRI _ _ _ _ => 0
  | .or _ _ _ _ _ _ => 0
  | .orRL _ _ _ _ _ lit => lit
  | .orRK _ _ _ _ _ => 0
  | .orRI _ _ _ _ => 0
  | .xor _ _ _ _ _ _ => 0
  | .xorRL _ _ _ _ _ lit => lit
  | .xorRK _ _ _ _ _ => 0
  | .xorRI _ _ _ _ => 0
  | .andn _ _ _ _ _ _ => 0
  | .andnRL _ _ _ _ _ lit => lit
  | .andnRK _ _ _ _ _ => 0
  | .andnRI _ _ _ _ => 0
  | .orn _ _ _ _ _ _ => 0
  | .ornRL _ _ _ _ _ lit => lit
  | .ornRK _ _ _ _ _ => 0
  | .ornRI _ _ _ _ => 0
  | .shl _ _ _ _ _ _ => 0
  | .shlRL _ _ _ _ _ lit => lit
  | .shlRK _ _ _ _ _ => 0
  | .shlRI _ _ _ _ => 0
  | .shr _ _ _ _ _ _ => 0
  | .shrRL _ _ _ _ _ lit => lit
  | .shrRK _ _ _ _ _ => 0
  | .shrRI _ _ _ _ => 0
  | .sar _ _ _ _ _ _ => 0
  | .sarRL _ _ _ _ _ lit => lit
  | .sarRK _ _ _ _ _ => 0
  | .sarRI _ _ _ _ => 0
  | .rol _ _ _ _ _ _ => 0
  | .rolRL _ _ _ _ _ lit => lit
  | .rolRK _ _ _ _ _ => 0
  | .rolRI _ _ _ _ => 0
  | .ror _ _ _ _ _ _ => 0
  | .rorRL _ _ _ _ _ lit => lit
  | .rorRK _ _ _ _ _ => 0
  | .rorRI _ _ _ _ => 0
  | .min _ _ _ _ _ _ => 0
  | .minRL _ _ _ _ _ lit => lit
  | .minRK _ _ _ _ _ => 0
  | .minRI _ _ _ _ => 0
  | .max _ _ _ _ _ _ => 0
  | .maxRL _ _ _ _ _ lit => lit
  | .maxRK _ _ _ _ _ => 0
  | .maxRI _ _ _ _ => 0
  | .minu _ _ _ _ _ _ => 0
  | .minuRL _ _ _ _ _ lit => lit
  | .minuRK _ _ _ _ _ => 0
  | .minuRI _ _ _ _ => 0
  | .maxu _ _ _ _ _ _ => 0
  | .maxuRL _ _ _ _ _ lit => lit
  | .maxuRK _ _ _ _ _ => 0
  | .maxuRI _ _ _ _ => 0
  | .abs _ _ _ _ _ _ => 0
  | .clz _ _ _ _ => 0
  | .ctz _ _ _ _ => 0
  | .popc _ _ _ _ => 0
  | .bswap _ _ _ _ _ => 0
  | .brev _ _ _ _ _ => 0
  | .sext _ _ _ _ => 0
  | .zext _ _ _ _ => 0
  | .ext _ _ _ _ => 0
  | .extRL _ _ _ lit => lit
  | .extRK _ _ _ _ => 0
  | .extRI _ _ _ _ => 0
  | .ins _ _ _ _ => 0
  | .insRL _ _ _ lit => lit
  | .insRK _ _ _ _ => 0
  | .insRI _ _ _ _ => 0
  | .cmp _ _ _ _ _ _ _ => 0
  | .cmpRL _ _ _ _ _ _ lit => lit
  | .cmpRK _ _ _ _ _ => 0
  | .cmpRI _ _ _ _ => 0
  | .tst _ _ _ _ _ _ => 0
  | .tstRL _ _ _ _ _ lit => lit
  | .tstRK _ _ _ _ _ _ => 0
  | .tstRI _ _ _ _ => 0
  | .sel _ _ _ _ _ _ => 0
  | .selRL _ _ _ _ _ lit => lit
  | .mov _ _ _ _ => 0
  | .movRL _ _ _ lit => lit
  | .movRK _ _ _ _ => 0
  | .movRI _ _ _ => 0
  | .movi _ _ _ => 0
  | .movh _ _ _ => 0
  | .pset _ _ _ _ _ => 0
  | .rdp _ _ => 0
  | .wrp _ _ _ => 0
  | .wrpRL _ _ lit => lit
  | .vadd _ _ _ _ _ _ _ => 0
  | .vaddRL _ _ _ _ _ _ lit => lit
  | .vaddRK _ _ _ _ _ => 0
  | .vsub _ _ _ _ _ _ _ => 0
  | .vsubRL _ _ _ _ _ _ lit => lit
  | .vsubRK _ _ _ _ _ => 0
  | .vmul _ _ _ _ _ _ _ => 0
  | .vmulRL _ _ _ _ _ _ lit => lit
  | .vmulRK _ _ _ _ _ => 0
  | .vmin _ _ _ _ _ _ => 0
  | .vminRL _ _ _ _ _ lit => lit
  | .vminRK _ _ _ _ _ => 0
  | .vmax _ _ _ _ _ _ => 0
  | .vmaxRL _ _ _ _ _ lit => lit
  | .vmaxRK _ _ _ _ _ => 0
  | .vavg _ _ _ _ _ _ => 0
  | .vavgRL _ _ _ _ _ lit => lit
  | .vavgRK _ _ _ _ _ => 0
  | .vabsd _ _ _ _ _ _ => 0
  | .vabsdRL _ _ _ _ _ lit => lit
  | .vabsdRK _ _ _ _ _ => 0
  | .vdot _ _ _ _ _ _ _ => 0
  | .vdotRL _ _ _ _ _ _ lit => lit
  | .vdotRK _ _ _ _ _ _ => 0
  | .vsum _ _ _ _ _ => 0
  | .vsplat _ _ _ _ => 0
  | .vshf _ _ _ _ _ => 0
  | .vshfRL _ _ _ _ lit => lit
  | .vpack _ _ _ _ _ _ _ => 0
  | .vpackRL _ _ _ _ _ _ lit => lit
  | .vcmp _ _ _ _ _ _ _ => 0
  | .vcmpRL _ _ _ _ _ _ lit => lit
  | .vcmpRK _ _ _ _ _ => 0
  | .vsel _ _ _ _ _ => 0
  | .vselRL _ _ _ _ lit => lit
  | .vselRK _ _ _ _ _ => 0
  | .rand _ _ _ _ _ => 0
  | .randRL _ _ _ _ lit => lit
  | .randRK _ _ _ _ _ => 0
  | .randRI _ _ _ _ => 0
  | .randf _ _ _ _ _ => 0
  | .randfRL _ _ _ _ lit => lit
  | .randfRK _ _ _ _ _ => 0
  | .randfRI _ _ _ _ => 0
  | .fadd _ _ _ _ _ _ => 0
  | .faddRL _ _ _ _ _ lit => lit
  | .faddRK _ _ _ _ _ => 0
  | .fsub _ _ _ _ _ _ => 0
  | .fsubRL _ _ _ _ _ lit => lit
  | .fsubRK _ _ _ _ _ => 0
  | .fmul _ _ _ _ _ _ => 0
  | .fmulRL _ _ _ _ _ lit => lit
  | .fmulRK _ _ _ _ _ => 0
  | .fdiv _ _ _ _ _ _ => 0
  | .fdivRL _ _ _ _ _ lit => lit
  | .fdivRK _ _ _ _ _ => 0
  | .fma _ _ _ _ _ _ _ => 0
  | .fmaRL _ _ _ _ _ _ lit => lit
  | .fmaRK _ _ _ _ _ _ => 0
  | .fsqrt _ _ _ _ _ => 0
  | .fmin _ _ _ _ _ => 0
  | .fminRL _ _ _ _ lit => lit
  | .fminRK _ _ _ _ _ => 0
  | .fmax _ _ _ _ _ => 0
  | .fmaxRL _ _ _ _ lit => lit
  | .fmaxRK _ _ _ _ _ => 0
  | .fabs _ _ _ _ => 0
  | .fneg _ _ _ _ => 0
  | .fcmp _ _ _ _ _ _ => 0
  | .fcmpRL _ _ _ _ _ lit => lit
  | .fcmpRK _ _ _ _ _ => 0
  | .fclass _ _ _ _ => 0
  | .fcvt _ _ _ _ _ => 0
  | .fcvtRL _ _ _ _ lit => lit
  | .fcvtRK _ _ _ _ _ => 0
  | .fround _ _ _ _ _ => 0
  | .vfma _ _ _ _ _ _ _ => 0
  | .vfmaRL _ _ _ _ _ _ lit => lit
  | .vfmaRK _ _ _ _ _ _ => 0
  | .xcvt _ _ _ => 0
  | .tdesc _ _ _ _ _ => 0
  | .tdescRL _ _ _ _ lit => lit
  | .tdescRK _ _ _ _ _ => 0
  | .tdescRI _ _ _ _ => 0
  | .tfree _ _ => 0
  | .tinfo _ _ _ _ => 0
  | .tinfoRI _ _ _ _ => 0
  | .tadd _ _ _ _ _ _ _ => 0
  | .tsub _ _ _ _ _ _ _ => 0
  | .tmul _ _ _ _ _ _ _ => 0
  | .tmax _ _ _ _ _ _ _ => 0
  | .tmin _ _ _ _ _ _ _ => 0
  | .tfma _ _ _ _ _ _ _ => 0
  | .tscale _ _ _ _ _ _ _ => 0
  | .tscaleRL _ _ _ _ _ _ lit => lit
  | .tscaleRK _ _ _ _ _ _ _ => 0
  | .tcvt _ _ _ _ _ _ => 0
  | .tredmax _ _ _ _ _ _ => 0
  | .tredsum _ _ _ _ _ => 0
  | .ttrans _ _ _ _ _ => 0
  | .tfill _ _ _ _ _ _ => 0
  | .tfillRL _ _ _ _ _ lit => lit
  | .tfillRK _ _ _ _ _ => 0
  | .tget _ _ _ _ => 0
  | .tgetRL _ _ _ lit => lit
  | .tgetRK _ _ _ _ => 0
  | .tgetRI _ _ _ _ => 0
  | .tset _ _ _ _ => 0
  | .tsetRL _ _ _ lit => lit
  | .tsetRK _ _ _ _ => 0
  | .tsetRI _ _ _ _ => 0
  | .mxm _ _ _ _ _ _ _ => 0
  | .mxmRL _ _ _ _ _ _ lit => lit
  | .mxmRK _ _ _ _ _ _ _ => 0
  | .mxmz _ _ _ _ _ _ _ => 0
  | .mxmzRL _ _ _ _ _ _ lit => lit
  | .mxmzRK _ _ _ _ _ _ _ => 0
  | .mxflush _ _ _ => 0
  | .mxnorm _ _ _ _ => 0
  | .mxnormRL _ _ _ lit => lit
  | .mxexp _ _ _ _ => 0
  | .ld _ _ _ _ _ _ _ _ => 0
  | .ldRL _ _ _ _ _ _ _ lit => lit
  | .ldRK _ _ _ _ _ => 0
  | .ldRI _ _ _ _ => 0
  | .st _ _ _ _ _ _ _ => 0
  | .stRL _ _ _ _ _ _ lit => lit
  | .stRK _ _ _ _ _ => 0
  | .stRI _ _ _ _ => 0
  | .ld2 _ _ _ _ _ _ => 0
  | .ld2RL _ _ _ _ _ lit => lit
  | .ld2RK _ _ _ _ => 0
  | .ld2RI _ _ _ _ => 0
  | .st2 _ _ _ _ _ _ => 0
  | .st2RL _ _ _ _ _ lit => lit
  | .st2RK _ _ _ _ => 0
  | .st2RI _ _ _ _ => 0
  | .ldq _ _ _ _ _ _ _ => 0
  | .ldqRL _ _ _ _ _ _ lit => lit
  | .ldb _ _ _ _ _ _ _ _ => 0
  | .ldbRL _ _ _ _ _ _ _ lit => lit
  | .ldbRK _ _ _ _ _ _ => 0
  | .ldfe _ _ _ _ _ _ => 0
  | .ldfeRL _ _ _ _ _ lit => lit
  | .ldfeRK _ _ _ _ _ => 0
  | .ldfeRI _ _ _ _ => 0
  | .stfe _ _ _ _ _ => 0
  | .stfeRL _ _ _ _ lit => lit
  | .stfeRK _ _ _ _ _ => 0
  | .stfeRI _ _ _ _ => 0
  | .feset _ _ _ _ _ => 0
  | .fesetRL _ _ _ _ lit => lit
  | .fesetRK _ _ _ _ => 0
  | .fesetRI _ _ _ => 0
  | .pref _ _ _ _ => 0
  | .prefRL _ _ _ lit => lit
  | .prefRK _ _ _ _ => 0
  | .prefRI _ _ _ => 0
  | .cwb _ _ _ => 0
  | .cwbRL _ _ lit => lit
  | .cwbRK _ _ _ => 0
  | .cwbRI _ _ _ => 0
  | .cinv _ _ _ => 0
  | .cinvRL _ _ lit => lit
  | .cinvRK _ _ _ => 0
  | .cinvRI _ _ _ => 0
  | .aadd _ _ _ _ _ _ => 0
  | .aaddRL _ _ _ _ _ lit => lit
  | .aand _ _ _ _ _ _ => 0
  | .aandRL _ _ _ _ _ lit => lit
  | .aor _ _ _ _ _ _ => 0
  | .aorRL _ _ _ _ _ lit => lit
  | .axor _ _ _ _ _ _ => 0
  | .axorRL _ _ _ _ _ lit => lit
  | .amin _ _ _ _ _ _ => 0
  | .aminRL _ _ _ _ _ lit => lit
  | .amax _ _ _ _ _ _ => 0
  | .amaxRL _ _ _ _ _ lit => lit
  | .aminu _ _ _ _ _ _ => 0
  | .aminuRL _ _ _ _ _ lit => lit
  | .amaxu _ _ _ _ _ _ => 0
  | .amaxuRL _ _ _ _ _ lit => lit
  | .aswp _ _ _ _ _ _ => 0
  | .aswpRL _ _ _ _ _ lit => lit
  | .acas _ _ _ _ _ _ _ => 0
  | .acasRL _ _ _ _ _ _ lit => lit
  | .afadd _ _ _ _ _ _ => 0
  | .afaddRL _ _ _ _ _ lit => lit
  | .axadd _ _ _ _ _ _ => 0
  | .axaddRL _ _ _ _ _ lit => lit
  | .fence _ _ => 0
  | .bara _ _ _ _ => 0
  | .baraRL _ _ _ lit => lit
  | .barc _ _ _ _ => 0
  | .barcRL _ _ _ lit => lit
  | .swait _ _ _ _ => 0
  | .swaitRL _ _ _ lit => lit
  | .swaitRK _ _ _ _ => 0
  | .swaitRI _ _ _ _ => 0
  | .sarm _ _ _ _ _ _ _ _ => 0
  | .sarmRL _ _ _ _ _ _ _ lit => lit
  | .cpy _ _ _ _ _ _ => 0
  | .cpyRL _ _ _ _ _ lit => lit
  | .cpy2 _ _ _ _ _ _ => 0
  | .cpy2RL _ _ _ _ _ lit => lit
  | .cpyg _ _ _ _ _ _ => 0
  | .tload _ _ _ _ _ _ _ => 0
  | .tloadRL _ _ _ _ _ _ lit => lit
  | .tstore _ _ _ _ _ _ => 0
  | .tstoreRL _ _ _ _ _ lit => lit
  | .jpoll _ _ _ _ => 0
  | .jwait _ _ _ => 0
  | .jcancel _ _ _ => 0
  | .b _ _ => 0
  | .call _ _ => 0
  | .dbnz _ _ _ => 0
  | .jmp _ _ => 0
  | .jmpRL _ lit => lit
  | .callr _ _ => 0
  | .callrRL _ lit => lit
  | .ret _ _ => 0
  | .spawn _ _ _ _ _ _ _ => 0
  | .spawnRL _ _ _ _ _ _ lit => lit
  | .launch _ _ _ _ _ => 0
  | .launchRL _ _ _ _ lit => lit
  | .qpush _ _ _ _ _ => 0
  | .qpushRL _ _ _ _ lit => lit
  | .qpop _ _ _ _ => 0
  | .done _ => 0
  | .waitc _ => 0
  | .yield _ => 0
  | .halt _ _ _ => 0
  | .sleep _ _ => 0
  | .sleepRL _ lit => lit
  | .prio _ _ _ => 0
  | .prioRL _ _ lit => lit
  | .rsr _ _ _ => 0
  | .wsr _ _ _ => 0
  | .wsrRL _ _ lit => lit
  | .trap _ _ => 0
  | .trapRL _ lit => lit
  | .wake _ _ => 0
  | .kill _ _ _ => 0
  | .resume _ _ _ => 0
  | .slotw _ _ _ => 0
  | .slotwRL _ _ lit => lit
  | .plbi _ _ _ => 0
  | .plbiRL _ _ lit => lit
  | .tlbi _ _ => 0
  | .tlbiRL _ lit => lit
  | .pmig _ _ _ _ _ => 0
  | .pmigRL _ _ _ _ lit => lit
  | .ovl _ _ _ => 0
  | .ovlq _ _ _ => 0
  | .ovlqRL _ _ lit => lit
  | .fmai _ _ _ => 0
  | .registerWrite _ => 0
  | .launchQueueTailWrite _ => 0
  | .launchRecordDiscard _ => 0
  | .chunkRequest _ => 0
  | .chunkGrant _ => 0
  | .readyEntryAging _ _ => 0
  | .dispatchOffer _ => 0
  | .contextClaim _ => 0
  | .claimLost _ => 0
  | .contextFill _ => 0
  | .contextEviction _ _ => 0
  | .contextWritebackPerformed _ _ => 0
  | .contextWritebackRetry _ => 0
  | .claimPageFaultReoffer _ _ => 0
  | .stealRequest _ => 0
  | .stealServe _ => 0
  | .dequeSiblingSteal _ => 0
  | .gangReserve _ => 0
  | .issueCycle _ => 0
  | .contextMessageApply _ => 0
  | .joinMessage _ => 0
  | .wakeMessage _ => 0
  | .nackMessage _ => 0
  | .killAtHome _ => 0
  | .resumeAtHome _ => 0
  | .sleepWake _ => 0
  | .pageFaultTimedWake _ => 0
  | .faultRecordAppend _ => 0
  | .handlerWakeRetry _ => 0
  | .errorLogAppend _ => 0
  | .elogLostClear _ => 0
  | .plbRefill _ => 0
  | .plbiCoreInvalidate _ _ => 0
  | .translationLookup _ => 0
  | .pfqMessageAccept _ _ => 0
  | .pfqHeadWrite _ => 0
  | .tlbiBrickInvalidate _ _ => 0
  | .migrationRound _ => 0
  | .migrationFreeze _ => 0
  | .migrationFreezeAbandon _ => 0
  | .partRectWrite _ => 0
  | .clmTspBankAccess _ => 0
  | .feWaitTimeout _ _ => 0
  | .feNoentRetry _ => 0
  | .barWaitTimeout _ _ => 0
  | .storeBufferAccept _ => 0
  | .fenceProbe _ => 0
  | .probeEcho _ => 0
  | .readRequest _ => 0
  | .subscribeRequest _ => 0
  | .precisionChange _ => 0
  | .storeRequest _ => 0
  | .homeAtomic _ => 0
  | .writeBack _ => 0
  | .dropNotice _ => 0
  | .snoopShare _ => 0
  | .snoopInvalidate _ => 0
  | .update _ => 0
  | .homeEntryLeaseExpiry _ => 0
  | .heldWriteLeaseExpiry _ => 0
  | .combineEntryClose _ => 0
  | .hostCxlMemRead _ => 0
  | .hostCxlMemWrite _ _ => 0
  | .hostSnoop _ _ => 0
  | .pcieCompletion _ _ => 0
  | .pcieCompletionTimeout _ => 0
  | .talakGet _ _ _ => 0
  | .talakGetLease _ _ => 0
  | .talakRenew _ _ _ => 0
  | .talakPut _ _ _ => 0
  | .talakAtomic _ _ _ _ _ _ => 0
  | .talakAck _ => 0
  | .talakNack _ _ => 0
  | .overlayLoadComplete _ _ => 0
  | .overlayLoadFail _ _ => 0
  | .jobSubmission _ => 0
  | .jobStart _ => 0
  | .copyLineWrite _ _ => 0
  | .tileRefreshStart _ => 0
  | .tileRefreshComplete _ _ => 0
  | .tileRefreshFail _ _ => 0
  | .tileZeroingComplete _ _ => 0
  | .tileOpArrival _ => 0
  | .tileOpExecute _ => 0
  | .tdescDiscardNotice _ => 0
  | .geyserAdmission _ => 0
  | .geyserHoldExpire _ _ => 0
  | .geyserRetryReissue _ => 0
  | .engineSelect _ => 0
  | .stackFire _ => 0
  | .engineNormOp _ => 0
  | .ctCommit _ => 0
  | .circuitTuningComplete => 0
  | .circuitTuneTimeout _ => 0
  | .brickQuiesce _ => 0
  | .brickQuiesceComplete => 0
  | .brickLinkTrained => 0
  | .attGo _ => 0
  | .attestationComplete => 0
  | .coldBoot => 0
  | .recoveryImageWrite _ => 0
  | .ucieRetrainFail _ _ => 0
  | .eccError _ => 0
  | .thermalThrottle _ _ _ => 0
  | .talakReply _ _ => 0
  | .talakFlitCrcRetry _ => 0
  | .ucieLinkRetraining _ _ => 0
  | .backInvalidateResponse _ _ => 0
  | .cxlCacheGrant _ _ _ => 0

/-- The words of an instruction: its word and, in RL format, its literal (R143, R146); none for a device step. -/
def encode (i : Instr) : List (BitVec 32) :=
  match fieldsOf i with
  | none => []
  | some f =>
    let w := BitVec.ofNat 32 (pack f)
    if takesLiteral w.toNat then [w, literalOf i] else [w]

/-- The bytes of an instruction as an image stores them (R6, R142). -/
def encodeBytes (i : Instr) : List Byte := (encode i).flatMap bytes32


end Sys2Proof
end

