-- ==== Sys2Proof/Config.lean ====
section
/-!
DEFINITION. Config.lean: what an implementation fixes and no program can choose. A value that the spec leaves open is
an opaque constant with no body, so that no proof can see what it is.
-/
namespace Sys2Proof.Config

/-- CONTEXT_SECRET: 32 bytes that the device draws from its entropy source at each cold boot; no agent can read it
(R134). The argument counts the cold boots. -/
opaque contextSecret : Nat → List Byte

/-- A value that the spec leaves open and that constrains nothing; the state counts the draws (`State.draws`). -/
opaque freeValue : Nat → BitVec 64

/-- The byte offset from CAPBASE of a block of a brick, by the ID of its record (R377, R378). -/
opaque blockOffset : Nat → Nat → Nat

/-- The 8-byte words that a brick's capability list leaves free after the record with an ID (R377), taken modulo 256. -/
opaque recordGap : Nat → Nat → Nat

/-- What the fuses of the device hold (R373, R376): the hash of the vendor key, the minimum security version, FUSE_CONFIG,
the public identity key. -/
opaque vendorKeyHash : List Byte
opaque minimumVersion : BitVec 32
opaque fuseConfig : BitVec 32
opaque deviceKey : List Byte

/-- Whether an Ed448 signature over a digest is valid under a public key (R373). -/
opaque ed448Valid : List Byte → List Byte → List Byte → Bool

/-- The Ed448 signature of the device over bytes, made with the private key that no agent can read (R376). -/
opaque ed448Sign : List Byte → List Byte

end Sys2Proof.Config
end

