-- ==== Sys2Proof/Machine/State.lean ====
section
/-!
DEFINITION. Machine/State.lean: the state of the device as plain data, the reasons a step can stop, and the state
right after reset. A register that software reads and writes whole stays a bit vector; queues, tables and tags that
live inside the device are lists and records. A table is a list of (number, item) pairs; an absent number stands for
the reset item, so that a device of 16,384 cores stays small.
-/
namespace Sys2Proof.Machine

/-- A table by number: pairs in rising order. -/
abbrev Table (α : Type) := List (Nat × α)

/-- Four values, one for each brick. -/
structure Quad (α : Type) where
  b0 : α
  b1 : α
  b2 : α
  b3 : α
  deriving DecidableEq, Repr

/-! ## The context line (R115) -/

/-- The general registers g0 to g7 (R115). -/
structure Regs where
  g0 : Word64
  g1 : Word64
  g2 : Word64
  g3 : Word64
  g4 : Word64
  g5 : Word64
  g6 : Word64
  g7 : Word64
  deriving DecidableEq, Repr

/-- A context line: the whole architectural state of a thread, 128 bytes (R115). The words that software can read
and write whole (R114) stay bit vectors: PRED (R116), STATUS (R117), CONTROL (R118), WAIT_TAG (R119). -/
structure Line where
  regs : Regs
  pc : BitVec 32
  pred : BitVec 32
  waitTag : BitVec 32
  status : BitVec 32
  control : BitVec 64
  link : BitVec 64
  parent : BitVec 64
  joinCount : BitVec 32
  deferredPc : BitVec 32
  user : BitVec 64
  tag : BitVec 32
  gen : BitVec 16
  rsvd : BitVec 16
  deriving DecidableEq, Repr

/-- The fault classes of R331 that make a record. -/
inductive FaultClass | sync | deferred | machine | tile
  deriving DecidableEq, Repr

/-- The fault codes of R333. -/
inductive FaultCode
  | illegalEncoding | protection | misaligned | bounds | branchToHeader | branchToLiteral | staleHandle
  | unsupportedAtomic | feTimeout | barTimeout | poisonedData | deferredStore | trap | contextPoisoned
  | refreshFailed | homeOffline | noCircuit
  deriving DecidableEq, Repr

/-- The ACCESS kinds of R50 and R332. -/
inductive AccessKind | load | store | atomic | subscribed | copySrc | copyDst | overlay | engine | none
  deriving DecidableEq, Repr

/-- A fault record (R332) before it is laid out in a fault queue. -/
structure FaultRec where
  pc : BitVec 32
  aux : BitVec 32
  code : FaultCode
  cls : FaultClass
  access : AccessKind
  domain : BitVec 16
  part : BitVec 8
  die : Nat
  gen : BitVec 16
  ctx : Nat
  va : Nat
  deriving DecidableEq, Repr

/-! ## Contexts wherever their lines live -/

/-- A context held in an entry of a context L1 (R121). `va` is its context VA, `parkedAt` and `issuedAt` the cycles at
which it parked and last issued; `draining` while its eviction drains (R128), after which `ending` says what becomes of
the line; `records` the fault records that wait for its write-back (R339); `fenced` the widest scope that a fence of it
has drained since the fence parked; `overran` when the sum of R144 reached 65,536; `skip` when its next POOL turn is
skipped (R327); `gang` while it is gang-resident (R318); `ports` the host port (8) and optical ports (0 to 7) that it
has written through since its last system fence (R263); `popped` the address and the bytes that the read of an instruction
which reissues has brought from where no cache holds them (assumption 17); `kept` its own wait tag while the tag in the line
reads KIND PAGE because the head of its store buffer holds up its eviction (R129); `observed` the sectors in which it has read a store
of its brick that its home had still to acknowledge, since its last fence of device or system scope (R293). -/
inductive Ending | toReady | kept | freed
  deriving DecidableEq, Repr

structure Held where
  va : Nat
  line : Line
  parkedAt : Nat
  issuedAt : Nat
  draining : Bool
  ending : Ending
  records : List FaultRec
  fenced : Option Scope
  overran : Bool
  skip : Bool
  gang : Bool
  ports : List Nat
  popped : Option (Nat × Nat)
  kept : Option (BitVec 32)
  observed : List Nat
  deriving DecidableEq, Repr

/-- What an entry of a context L1 holds: nothing (absent from the table), a context, the placeholder of a claim (R127),
a victim whose entry is reserved for a claim that waits for its eviction (R127), or the placeholder of a gang
reservation (R318), with its ticket and the context VA of the member. -/
inductive L1Entry
  | held (h : Held)
  | claiming (va : Nat)
  | victim (h : Held) (next : Nat)
  | gang (ticket member : Nat)
  | gangVictim (h : Held) (ticket member : Nat)
  deriving DecidableEq, Repr

/-- A context line in a context L2 (R122): the line, the order in which it entered its set, and whether its write-back
waits because its pool page faulted (R113). -/
structure L2Ctx where
  line : Line
  order : Nat
  wbWait : Bool
  retryAt : Nat
  deriving DecidableEq, Repr

/-- The instruction in the barrel and the context that issued it: the core and its entry, the context, the slot that
holds its overlay (window address of its first byte, LENGTH and CONST_WORDS, R140), the word, and the sum n of R144. -/
structure Barrel where
  core : Nat
  entry : Nat
  held : Held
  image : Nat
  length : Nat
  constWords : Nat
  word : BitVec 32
  next : Nat
  deriving DecidableEq, Repr

/-! ## Memory accesses on their way -/

/-- The read-modify-write of an atomic (R272, R273, R326, R274). -/
inductive AtomicFn
  | add | and | or | xor | min | max | minu | maxu | swap
  | cas (expected : Nat)
  | fadd (f : AFmt)
  | xadd (f : AFmt)
  | qpush | qpop
  deriving DecidableEq, Repr

/-- What a reply writes into the context line (R132): nothing, a register with the extension of its load, a register
pair, the result and predicate of a queue operation, the PC and
LINK after a call, or the instruction reissues when it is woken. -/
inductive ReplyTo
  | nothing
  | reg (d : Reg) (size : Nat) (z : Bool)
  | pair (d : Reg)
  | subscribed (d : Reg) (f : Fmt)
  | queue (d : Reg) (pf : PReg)
  | jump (pc : BitVec 32) (link : BitVec 64)
  | reissue
  deriving DecidableEq, Repr

/-- What an access does. -/
inductive AccessOp
  | load
  | subscribe (f : Fmt) (upd : Bool)
  | store (bytes : List Byte)
  | atomic (fn : AtomicFn) (operand : Nat)
  | feset (full : Bool)
  | ldfe
  | stfe (v : BitVec 32)
  | barrier (wait : Bool) (x : BitVec 64)
  | swait (gen : BitVec 32)
  | sarm (off : Bool) (start len : Nat) (pf : PReg)
  | cwb
  | cinv
  | prefetch (ex : Bool)
  | notice (dirty : Quad (Option (BitVec 512)))
  deriving DecidableEq, Repr

/-- The work of a copy unit on whose behalf an access leaves the device: a job, an overlay load, a tile refresh;
or the access of a peer. -/
inductive CopyAgent
  | job (cluster slot seq : Nat)
  | overlay (core domain overlay : Nat)
  | refresh (cluster index gen : Nat)
  | peer (port : Nat)
  deriving DecidableEq, Repr

/-- How far a request has come: to the translation unit of its brick; to its home (with the physical address, WR and
MASTER of its page); performed there and waiting for the acknowledgements of its messages, with the value and flags of
its reply; or held by a migration freeze. Or it is the place that an access of the host (no agent), a peer or a copy unit has in the
order of a home, with the cycle in which it last asked for its turn (R66). -/
inductive ReqPhase
  | xlat
  | home (pa : Nat) (wr : Bool) (master : Nat)
  | acks (pa : Nat) (value : Nat) (flags : BitVec 32)
  | frozen (pa : Nat)
  | turn (agent : Option CopyAgent) (pa asked : Nat)
  deriving DecidableEq, Repr

/-- A request that left its core for the paged space; `via` is the circuit that carried it to the home of another brick,
by its index among the circuits of the pair (R33). -/
structure Req where
  who : Who
  va : Nat
  size : Nat
  op : AccessOp
  reply : ReplyTo
  phase : ReqPhase
  posted : Bool
  acq : Bool
  heldUntil : Nat
  via : Option Nat
  deriving DecidableEq, Repr

/-- A request to a bank of a CLM or TSP, or to a register block (R30, R31). -/
structure BankReq where
  who : Who
  addr : Nat
  size : Nat
  op : AccessOp
  reply : ReplyTo
  posted : Bool
  acq : Bool
  deriving DecidableEq, Repr

/-- The target of an entry of a store buffer: what it does and where. -/
structure SbEntry where
  who : Who
  va : Nat
  size : Nat
  op : AccessOp
  reply : ReplyTo
  posted : Bool
  acq : Bool
  deriving DecidableEq, Repr

/-- The head of a store buffer: not sent, sent to its target, or held for a page (R52), with the CLASS of R49 under which
the thread waits for it: 2 or 5 for a page fault, 3 for a migration freeze. -/
inductive SbPhase
  | idle
  | sent
  | page (cls : Nat)
  deriving DecidableEq, Repr

/-! ## Caches and directories -/

/-- The state of a sector at a holder (R63). -/
inductive SecState | i | s | e | m | sub (f : Fmt) (upd : Bool)
  deriving DecidableEq, Repr

/-- A sector's copy: its state and its 64 bytes; in state SUB each master element's place holds the code of F. -/
structure SecCopy where
  st : SecState
  data : BitVec 512
  deriving DecidableEq, Repr

/-- A line of a data L1 (R60, R61). -/
structure L1Line where
  sectors : Quad SecCopy
  used : Nat
  deriving DecidableEq, Repr

/-- A line of an L2 slice (R60, R62): the physical line, WR and MASTER of the translation that filled it. -/
structure L2Line where
  pa : Nat
  wr : Bool
  master : Nat
  sectors : Quad SecCopy
  used : Nat
  deriving DecidableEq, Repr

/-- A brick's state for a sector in the home directory (R63, R65): at least as strong as that of any holder inside it. -/
inductive BrickState | i | s | e | m | sub
  deriving DecidableEq, Repr

/-- The host's state for a sector (R79). -/
inductive HostState | i | s | m
  deriving DecidableEq, Repr

/-- A sector of a home directory entry (R65): masters holds, for each brick in SUB, the master code under which it
subscribed (R76). -/
structure DirSector where
  bricks : Quad BrickState
  masters : Quad Nat
  formats : Quad (List (Fmt × Bool))
  host : HostState
  deriving DecidableEq, Repr

/-- A home directory entry, by physical line (R65). -/
structure DirEntry where
  vaLine : Nat
  sectors : Quad DirSector
  leaseExp : Nat
  version : BitVec 32
  compatLog2 : Nat
  written : Bool
  deriving DecidableEq, Repr

/-- Whom a snoop addresses: a brick, whose snoop filter passes it on to its holders, or the host. -/
inductive Holder
  | brick (d : Nat)
  | host
  deriving DecidableEq, Repr

/-- A snoop share; an invalidation of every copy of the sector, or of those at one format; an update of those at one
format with the new codes, each in the place of its master element. -/
inductive SnoopKind
  | share
  | inval
  | invalFmt (f : Fmt)
  | update (f : Fmt) (master : Nat) (data : BitVec 512)
  deriving DecidableEq, Repr

/-- A snoop of one sector, by virtual and physical sector address; acked once its holder has received it, removed once
it is applied (R291). -/
structure Snoop where
  target : Holder
  va : Nat
  pa : Nat
  kind : SnoopKind
  acked : Bool
  deriving DecidableEq, Repr

/-- An entry of the combining front end of an L2 slice (R87): the aligned word; the brick and the virtual address at a
caching slice, none at the home; the members of a group of atomics in the order they arrived, or the value that the first
load has read and how many loads have taken it; whether another access has asked it to close early. -/
structure CombineEntry where
  pa : Nat
  size : Nat
  openedAt : Nat
  members : List Req
  slice : Option (Nat × Nat)
  load : Option (BitVec 64 × Nat)
  closing : Bool
  deriving DecidableEq, Repr

/-- A subscribed tile's registration for one sector, with its format and mode (R77). -/
structure TileSub where
  cluster : Nat
  index : Nat
  va : Nat
  pa : Nat
  fmt : Fmt
  upd : Bool
  deriving DecidableEq, Repr

/-! ## Messages -/

/-- What a message into a context does (R132, R133): it completes the wait with register writes, a predicate and flags
to OR into the predicate word; it completes a `call` whose push is performed; it wakes the thread, which reissues; it makes
the context FAULTED; or it makes the child of a `spawn`, whose next PC and mark of R144 it carries (R323). -/
inductive MsgBody
  | done (writes : List (Reg × BitVec 64)) (pf : Option (PReg × Bool)) (flags : BitVec 32)
  | jump (pc : BitVec 32) (link : BitVec 64)
  | wake
  | fault (code : FaultCode) (access : AccessKind) (aux : BitVec 32) (fva die : Nat)
  | child (line : Line) (steal : Steal) (d : Reg) (pf : PReg) (next : BitVec 32) (wrapped : Bool)
  deriving DecidableEq, Repr

/-- A completion on its way to a context: the context VA, the GENERATION at issue, the wait KIND it completes, the PC
and length of its instruction, and for a `tdesc` the handle it returns (R232). -/
structure Msg where
  ctx : Nat
  gen : BitVec 16
  kind : Nat
  who : Who
  body : MsgBody
  handle : Option Nat
  deriving DecidableEq, Repr

/-! ## A core (R14, R89 to R91, R121, R124, R316, R320) -/

inductive SlotState | empty | loading | executable
  deriving DecidableEq, Repr

/-- A slot entry, kept at its first granule (R91, R140): lastFetch is the cycle of the core's last fetch from it. -/
structure Slot where
  domain : Nat
  overlay : Nat
  count : Nat
  first : Nat
  state : SlotState
  length : Nat
  constWords : Nat
  lastFetch : Nat
  deriving DecidableEq, Repr

/-- A PLB entry: the 128 bits of R37 with DOMAIN in [127:112]. -/
abbrev PlbEntry := BitVec 128

/-- A PLB refill of a context that found no usable entry: the reissued access to the address takes the violation (R39). -/
structure Denied where
  ctx : Nat
  gen : BitVec 16
  domain : Nat
  va : Nat
  deriving DecidableEq, Repr

/-- A deque entry (R316). -/
structure DequeEntry where
  va : Nat
  steal : Steal
  deriving DecidableEq, Repr

/-- A core. Entries, PLB places and slots that hold nothing are absent from their tables. -/
structure CoreState where
  entries : Table L1Entry
  storeBuf : List SbEntry
  sbPhase : SbPhase
  sbWaiters : List Who
  ctxl1Limit : Nat
  codeGranules : Nat
  slots : Table Slot
  slotTab : BitVec 128
  slotTabNext : Option (BitVec 128)
  lastPool : Nat
  plb : Table PlbEntry
  plbNext : Nat
  denied : List Denied
  deque : List DequeEntry
  deriving DecidableEq, Repr

/-! ## A cluster (R61, R96, R106, R108, R122, R223, R240, R246) -/

/-- What an entry of the full/empty wait table waits for (R96, R107, R276). -/
inductive WaitCond
  | full
  | empty
  | sync (gen : BitVec 32)
  | bar (gen : Nat) (d : Reg)
  deriving DecidableEq, Repr

structure WaitEntry where
  who : Who
  addr : Nat
  cond : WaitCond
  since : Nat
  limit : Nat
  deriving DecidableEq, Repr

/-- A guard (R106): a range of the TSP data part and the offset of its sync word. -/
structure GuardRange where
  start : Nat
  len : Nat
  sync : Nat
  deriving DecidableEq, Repr

inductive JobStatus
  | ok | cancelled | protection | bounds | poisoned | homeOffline | noCircuit | migAbort | expired
  deriving DecidableEq, Repr

/-- What a queued job moves (R279 to R281, R356). -/
inductive JobKind
  | copy (dst src len : Nat)
  | copy2 (dst src rows bytes dpitch spitch : Nat)
  | gather (dst src list count log2size : Nat)
  | tload (handle : Nat) (src : Nat) (pitch : Int)
  | tloadSub (handle : Nat)
  | tstore (handle : Nat) (dst : Nat) (pitch : Int)
  | migrate (page frame : Nat)
  deriving DecidableEq, Repr

inductive JobState
  | queued
  | active
  | pageWait
  | done (st : JobStatus)
  deriving DecidableEq, Repr

/-- A slot of a copy unit's queue (R108, R109): progress counts the destination lines already written; held names the
physical line whose lease holds the next one (R84); ending the status that the job ends with once its writes are performed
(R298). -/
structure JobSlot where
  seq : Nat
  state : JobState
  order : Nat
  who : Who
  kind : JobKind
  progress : Nat
  held : Option Nat
  ending : Option JobStatus
  waiters : List (Who × Reg)
  deriving DecidableEq, Repr

/-- An overlay load (R94): the directory entry as the load found it when it started and the descriptor as it read it (R138,
R139); the slot it has chosen and the address of the image then; and the contexts parked on it. -/
structure OverlayLoad where
  core : Nat
  domain : Nat
  overlay : Nat
  who : Who
  dirEntry : Option Nat
  desc : Option Nat
  slot : Option Nat
  image : Nat
  pageWait : Bool
  waiters : List Who
  deriving DecidableEq, Repr

/-- A refresh of a subscribed tile (R112): running, hit again by a message (R78), and the `tload.sub` jobs it absorbed. -/
structure Refresh where
  index : Nat
  running : Bool
  again : Bool
  pageWait : Bool
  who : Who
  jobs : List Nat
  deriving DecidableEq, Repr

/-- A freed tile whose rows wait to be zeroed (R104): the thread that waits, if any. -/
structure Zeroing where
  index : Nat
  addr : Nat
  pitch : Nat
  rows : Nat
  rowBytes : Nat
  waiter : Option Who
  deriving DecidableEq, Repr

/-- What a tile instruction does (R225). -/
inductive TileKind
  | add | sub | mul | fma | max | min
  | scale (x : BitVec 32)
  | cvt
  | redMax (byRow abs : Bool)
  | redSum (byRow : Bool)
  | trans
  | fill (int : Bool) (v : BitVec 64)
  | get (index : BitVec 64)
  | set (index v : BitVec 64)
  | info (n : Nat)
  | free
  | desc (template : BitVec 256) (pf : PReg)
  deriving DecidableEq, Repr

/-- A tile operation sent to its home cluster: the handles by operand field (d, a, b, c), the rounding, the key, and the
register it writes. -/
structure TileOp where
  who : Who
  cluster : Nat
  kind : TileKind
  handles : List (Nat × Nat)
  rm : Rm
  sat : Bool
  key : BitVec 64
  dest : Option Reg
  deriving DecidableEq, Repr

/-- A request of the matrix engine (R235, R241, R254 to R256). -/
inductive MxKind
  | mxm (zero trans neg : Bool) (sa sb : Int) (tailBad : Bool)
  | flush (all : Bool)
  | norm (t : BitVec 64)
  | exp (clear : Bool)
  deriving DecidableEq, Repr

structure MxReq where
  who : Who
  cluster : Nat
  kind : MxKind
  handles : List (Nat × Nat)
  priority : Nat
  holdClass : Nat
  dest : Option Reg
  arrived : Nat
  deriving DecidableEq, Repr

/-- The key of a stack (R240). -/
structure StackKey where
  handle : Nat
  version : Nat
  bFmt : Nat
  aFmt : Nat
  trans : Bool
  neg : Bool
  deriving DecidableEq, Repr

inductive StackState | opened | ready | firing
  deriving DecidableEq, Repr

/-- A stack of Geyser that is not FREE (R240): its members in admission order, each with its row count. -/
structure Stack where
  state : StackState
  key : StackKey
  members : List (MxReq × Nat)
  deadline : Nat
  admitted : Nat
  latched : Bool
  deriving DecidableEq, Repr

/-- The stationary latch (R238): its key, the codes of B row by row, and where the rows of B lie: their addresses and bytes; spoiled
when a write has met those rows while the stack that uses the codes is FIRING (R239). -/
structure Latch where
  handle : Nat
  version : Nat
  fmt : Nat
  trans : Bool
  codes : List (List Nat)
  rows : List (Nat × Nat)
  spoiled : Bool
  deriving DecidableEq, Repr

/-- The banks that the port of a unit has asked for without getting them: since which cycle it has asked, and when last (R99). -/
structure BankWish where
  port : Nat
  since : Nat
  asked : Nat
  banks : List Nat
  deriving DecidableEq, Repr

/-- The arbiters of the banks of a TSP (R99): the banks that have granted in a cycle, each with its port; for each group of four
banks, which one 16-byte access takes together, the port that it granted last; and what units wait for. Ports 0 to 7 are the cores,
8 the tile unit, 9 the copy unit, 10 the matrix engine, 11 the router. -/
structure BankArbiter where
  cycle : Nat
  granted : List (Nat × Nat)
  last : Table Nat
  wishes : List BankWish
  deriving DecidableEq, Repr

/-- A cluster: `serving` holds the requests of its pending list that the present pass over the list has still to try, and
`admittedAt` the cycle of the last admission to a stack (R244); `submitAt` the cycle of the last submission that the job queue took,
and `submitPort` its port, 8 the router's (R108). -/
structure ClusterState where
  arb : BankArbiter
  l1d : Table L1Line
  waits : Table WaitEntry
  guards : Table GuardRange
  tileLast : Nat
  zeroing : List Zeroing
  jobs : Table JobSlot
  jobOrder : Nat
  submitAt : Option Nat
  submitPort : Nat
  loads : List OverlayLoad
  refreshes : List Refresh
  tileQ : List TileOp
  tileAside : List TileOp
  mxStacks : Table Stack
  pendingMx : List MxReq
  serving : List MxReq
  admittedAt : Option Nat
  engineQ : List MxReq
  latch : Option Latch
  ctxL2 : Table L2Ctx
  feLimit : BitVec 32
  barLimit : BitVec 32
  holdLimit0 : BitVec 16
  holdLimit1 : BitVec 16
  holdLimit2 : BitVec 16
  holdLimit3 : BitVec 16
  noHoldPriority : BitVec 6
  deriving DecidableEq, Repr

/-! ## A brick (R46, R51, R56, R83, R86, R304, R311, R337, R369) -/

/-- A cached translation (R43, R46): the entry's 256 bits and the derived die of a TILED page. -/
structure TlbEntry where
  entry : BitVec 256
  die : Nat
  deriving DecidableEq, Repr

/-- A page-fault message (R50) before it is laid out. -/
structure PfMsg where
  who : Who
  cause : Nat
  access : Nat
  die : Nat
  va : Nat
  deriving DecidableEq, Repr

/-- A ready-queue entry (R311): offered marks an entry whose claim is outstanding; notBefore the cycle before which a
refused entry is not offered again (R314); tried the cores that have refused it in the present round of offers; refused
one that no core of the brick could accept, which the error log holds (R314). -/
structure ReadyEntry where
  va : Nat
  level : Nat
  gain : Nat
  steal : Steal
  since : Nat
  offered : Bool
  notBefore : Nat
  tried : List Nat
  refused : Bool
  deriving DecidableEq, Repr

/-- A gang on its way to its cores (R318): its ticket and its members with the entry reserved for each. -/
structure Gang where
  ticket : Nat
  priority : Nat
  members : List (Nat × Option (Nat × Nat))
  deriving DecidableEq, Repr

/-- What one brick holds for itself: its Caldera, translation cache, page-fault places, partition
rectangles, error log, lease registers, spill area, free map, UCIe modules and lease versions. -/
structure Brick where
  tlb : Table TlbEntry
  pfHeld : List PfMsg
  rects : Table (BitVec 64)
  ready : List ReadyEntry
  lastOffer : Nat
  gangs : List Gang
  stealAt : Nat
  spillBase : BitVec 64
  freemapBase : BitVec 64
  elogBase : BitVec 64
  elogHead : BitVec 32
  elogTail : BitVec 32
  elogLost : BitVec 32
  cohLease : BitVec 32
  cohLeaseMin : BitVec 32
  cohLeaseMax : BitVec 32
  portCompat : BitVec 32
  versions : Table (BitVec 32)
  ucieOut : List Nat
  ucieRetraining : List Nat
  linkTrained : Bool
  withheld : List Withhold
  ctxL2Order : Nat
  deriving DecidableEq, Repr

/-- An error-log entry (R338) before it is laid out, for the log of a brick. -/
structure LogEntry where
  die : Nat
  event : Nat
  detail : Nat
  pc : BitVec 32
  domain : BitVec 16
  part : BitVec 8
  sourceDie : Nat
  ctx : Nat
  addr : Nat
  deriving DecidableEq, Repr

/-! ## Queues of the device -/

/-- A claim on its way to the line's home (R125): with the GENERATION and the domain that the claimant expects; `child` is the
steal domain of a child that a core has taken from a deque (R316). -/
structure Claim where
  va : Nat
  gen : BitVec 16
  domain : BitVec 16
  core : Nat
  entry : Nat
  die : Nat
  gang : Bool
  child : Option Steal
  deriving DecidableEq, Repr

/-- A granted line on its way to the claimant (R125). -/
structure Transfer where
  va : Nat
  line : Line
  core : Nat
  entry : Nat
  gang : Bool
  deriving DecidableEq, Repr

/-- A chunk request of a Caldera (R308): the queue and the reserved pool lines it names. -/
structure ChunkReq where
  die : Nat
  queue : Nat
  lines : List Nat
  deriving DecidableEq, Repr

/-- A round of steal requests of an idle Caldera (R315): the bricks still to ask, in order, and the partitions it names. -/
structure StealReq where
  thief : Nat
  left : List Nat
  parts : List Nat
  deriving DecidableEq, Repr

/-- A `kill` or `resume` on its way to the target's home (R343, R344, R352). -/
structure HomeCmd where
  who : Who
  target : Nat
  d : Reg
  found : Option Nat
  deriving DecidableEq, Repr

/-- A `plbi` or `tlbi` that waits for acknowledgements (R40, R46): the cores or bricks still to act. -/
structure InvReq where
  who : Who
  domain : Option Nat
  base : Nat
  log2 : Nat
  left : List Nat
  deriving DecidableEq, Repr

/-- A fence that waits for its probes (R263): each probe is a brick and a slice group, or the host port (100) or an
optical port (101 + p). -/
structure FenceProbe where
  who : Who
  scope : Scope
  probes : List (Nat × Nat)
  echoed : List (Nat × Nat)
  deriving DecidableEq, Repr

/-- A PLB refill in progress (R39). -/
structure PlbFill where
  core : Nat
  who : Who
  va : Nat
  deriving DecidableEq, Repr

/-- A migration in progress (R53, R54): `pending` holds the lines that the present round has still to copy. -/
structure Migration where
  job : Nat × Nat
  who : Who
  page : Nat
  size : Nat
  oldFrame : Nat
  newFrame : Nat
  marked : List Nat
  pending : List Nat
  rounds : Nat
  frozenAt : Option Nat
  abandoned : Nat
  deriving DecidableEq, Repr

/-- A handler that shall be woken (R336): the arbiter's brick, the queue, when the wake is sent again, whether it has been
sent, and the state of the handler that its error log already holds. -/
structure HandlerWake where
  die : Nat
  fault : Bool
  queue : Nat
  handler : Nat
  retryAt : Nat
  sent : Bool
  logged : Option Nat
  deriving DecidableEq, Repr

/-- A submission on its way to a copy unit's queue (R108). -/
structure JobReq where
  who : Who
  cluster : Nat
  kind : JobKind
  d : Reg
  pf : PReg
  deriving DecidableEq, Repr

/-- An access outside the device that waits for its reply: a PCIe read or AtomicOp, or a Talak request; bit i of `mask` is set for
byte i of a write (R359, R361). -/
structure OutReq where
  who : Who
  va : Nat
  pa : Nat
  size : Nat
  op : AccessOp
  reply : ReplyTo
  master : Nat
  posted : Bool
  acq : Bool
  unit : Option CopyAgent
  mask : Nat
  sentAt : Nat
  deriving DecidableEq, Repr

/-- What an access of a copy unit outside the device has brought: the bytes read, or the status it failed with. -/
structure Inflow where
  unit : CopyAgent
  va : Nat
  bytes : List Byte
  bad : Option JobStatus
  deriving DecidableEq, Repr

/-- What the device has answered an agent outside it, oldest first: a host read of memory or of a register, a host write, a back-invalidate or snoop response, a
Talak reply with its code, or an MSI-X vector (R358, R361). -/
inductive OutMsg
  | hostData (pa : Nat) (data : Option (BitVec 512))
  | hostRegister (offset : Nat) (value : Option (BitVec 64))
  | hostWritten (pa : Nat)
  | hostSnooped (pa : Nat) (data : Option (BitVec 512))
  | hostBackInval (pa : Nat)
  | cxlCacheRead (pa : Nat) (excl : Bool)
  | cxlCacheWrite (pa : Nat) (data : BitVec 512)
  | talakData (port : Nat) (v : Nat) (len : Nat)
  | talakLease (port : Nat) (data : Option Nat) (duration : Nat) (version : BitVec 32)
  | talakAck (port : Nat)
  | talakNack (port : Nat) (code : Nat)
  | msix (vector : Nat)
  | pcie (r : OutReq)
  | talak (port : Nat) (r : OutReq)
  deriving DecidableEq, Repr

/-- What the host or a peer asks for: the host's read of a sector, or its write; a GET, GET_LEASE, RENEW, PUT or ATOMIC
(R79, R361). -/
inductive OuterOp
  | hostRead
  | hostWrite (bytes : List (Option Byte))
  | get (len : Nat)
  | lease
  | renew (version : BitVec 32)
  | put (bytes : List (Option Byte))
  | atomic (op : TalakAtomicOp) (size : Nat) (x e : Nat)
  deriving DecidableEq, Repr

/-- A request of the host or of the peer on an optical port that has reached the device: its address, physical for the
host and virtual for a peer; the line whose lease holds its write (R84); and whether its write is performed and waits for
its acknowledgements (R69, R363). -/
structure OuterReq where
  port : Option Nat
  addr : Nat
  op : OuterOp
  held : Option Nat
  performed : Bool
  deriving DecidableEq, Repr

/-! ## Registers held once for the device -/

/-- The translation, context, code, scheduling, fault, HBM and host-port registers of brick 0 (R17, R42, R113, R138,
R304, R337, R379). Queue registers stand in tables by queue number; lqOpened holds the HEAD of a queue whose record has
been handed out in part (R307, R308). -/
structure DevRegs where
  hashedSize : BitVec 64
  ctxPoolBase : BitVec 64
  ctxPoolCount : BitVec 64
  launchLocked : Bool
  ovtDirBase : BitVec 64
  ovtWritten : Bool
  ptBase : BitVec 64
  ptLog2b : BitVec 64
  drtBase : BitVec 64
  drtWritten : Bool
  fqDirBase : BitVec 64
  fqWritten : Bool
  pfqBase : Table (BitVec 64)
  pfqHead : Table (BitVec 32)
  pfqTail : Table (BitVec 32)
  pfqHandler : Table (BitVec 64)
  lqBase : Table (BitVec 64)
  lqHead : Table (BitVec 32)
  lqTail : Table (BitVec 32)
  lqPrio : Table (BitVec 64)
  lqOpened : Table (BitVec 32)
  prioCap : Table (BitVec 64)
  expandLow : BitVec 64
  powerLimit : BitVec 64
  gangTicket : Nat
  deriving DecidableEq, Repr

/-- The state of a brick in BRICK_STATEd (R364). -/
inductive DieState | live | quiescing | reset | admitting
  deriving DecidableEq, Repr

/-- Mortar (R364 to R368): the tables by entry, the cycle at which a commit in progress began, the pairs of bricks whose
messages wait for its end (R33), the brick states, the optical-port registers. -/
structure Mortar where
  shadow : Table (BitVec 64)
  active : Table (BitVec 64)
  ctStatus : BitVec 64
  commitAt : Option Nat
  holding : List (Nat × Nat)
  bricks : Quad DieState
  talakVbase : Table (BitVec 64)
  talakCfg : Table (BitVec 64)
  deriving DecidableEq, Repr

/-- The attestation block (R376). -/
structure Attestation where
  nonce : Table (BitVec 64)
  done : Bool
  busy : Bool
  report : List Byte
  deriving DecidableEq, Repr

/-- Boot (R373 to R375): whether an image runs, whether recovery is asked for, READY, HBM trained, the running image, the
flash, and the number of cold boots. -/
structure BootState where
  running : Bool
  recovery : Bool
  ready : Bool
  hbmTrained : Bool
  image : Option FirmwareImage
  flash : Option FirmwareImage
  boots : Nat
  deriving DecidableEq, Repr

/-! ## The machine -/

/-- Why the machine stops. -/
inductive Fault
  /-- the machine stops at an address; no operation of the model raises it, because the spec gives every address outside
  the memory map an effect (the PROTECTION fault of R27, or an error-log entry); safe. -/
  | noSuchAddress (addr : Nat)
  deriving DecidableEq, Repr

/-- Why an instruction has no meaning here. -/
inductive Refusal
  /-- the arm of an instruction whose meaning is not written yet; safe. -/
  | notModelled (mnemonic : String)
  /-- an instruction of an overlay is executed and no context is in the barrel, so nothing issues it; raised by
  `withBarrel`; safe. -/
  | noIssuingContext
  deriving DecidableEq, Repr

/-- The whole device. The queues hold what is on its way, oldest first; `agenda` says which device steps come next; `joins`
holds the parents that join messages name, each with the brick that sent it; `overruns`, `skips` and `gangOut` the contexts outside
every context L1 whose sum of R144 reached 65,536, whose next POOL turn is skipped (R327), and which are gang-resident again when
they are filled (R318); `badCopies` the copies in the caches of a brick, by brick and physical sector, and `badCtxs` the contexts
whose line, held in a context cache or in transfer, an uncorrectable error has hit (R341). -/
structure State where
  mem : List Host.Cell
  full : List Nat
  poison : List Nat
  badCopies : List (Nat × Nat)
  badCtxs : List Nat
  cycle : Nat
  draws : Nat
  barrel : Option Barrel
  latch : Option (Nat × Nat)
  agenda : List Instr
  cores : Table CoreState
  clusters : Table ClusterState
  bricks : Quad Brick
  l2 : Quad (Table L2Line)
  dir : Table DirEntry
  dca : Table DirEntry
  dcaOwn : Table (Quad HostState)
  snoops : List Snoop
  combine : List CombineEntry
  tileSubs : List TileSub
  reqs : List Req
  bankQ : List BankReq
  msgs : List Msg
  noents : List (Who × Nat × Nat)
  nacks : List (Nat × BitVec 16 × BitVec 32)
  joins : List (Nat × Nat)
  overruns : List Nat
  skips : List Nat
  gangOut : List Nat
  wakes : List Nat
  claims : List Claim
  claimsLost : List (Claim × Nat)
  transfers : List Transfer
  chunks : List ChunkReq
  steals : List StealReq
  kills : List HomeCmd
  resumes : List HomeCmd
  timers : List (Who × Nat × Nat)
  invs : List InvReq
  fences : List FenceProbe
  plbFills : List PlbFill
  migrations : List Migration
  jobReqs : List JobReq
  tileArrivals : List TileOp
  mxArrivals : List MxReq
  mxRetries : List (Who × Nat)
  discards : List Nat
  faultQ : List FaultRec
  elogQ : List LogEntry
  handlerWakes : List HandlerWake
  outReqs : List OutReq
  outers : List OuterReq
  inflow : List Inflow
  outbox : List OutMsg
  quarantine : List Nat
  regs : DevRegs
  mortar : Mortar
  att : Attestation
  boot : BootState
  deriving DecidableEq, Repr

/-! ## Reset -/

/-- A core right after reset: nothing resident, CTXL1_LIMIT 16 (R124), CODE_GRANULES 2 (R90), sixteen POOL entries of
class 0 (R320). -/
def CoreState.reset : CoreState :=
  { entries := [], storeBuf := [], sbPhase := .idle, sbWaiters := [], ctxl1Limit := 16, codeGranules := 2, slots := [],
    slotTab := 0x40404040404040404040404040404040#128, slotTabNext := none, lastPool := 15, plb := [], plbNext := 0,
    denied := [], deque := [] }

/-- A cluster right after reset: FE_LIMIT 2^20 and BAR_LIMIT 2^24 (R347), the hold limits and NO_HOLD_PRIORITY of
R246. -/
def ClusterState.reset : ClusterState :=
  { arb := { cycle := 0, granted := [], last := [], wishes := [] }, l1d := [], waits := [], guards := [], tileLast := 1023, zeroing := [], jobs := [], jobOrder := 0, submitAt := none,
    submitPort := 8, loads := [],
    refreshes := [], tileQ := [], tileAside := [], mxStacks := [], pendingMx := [], serving := [], admittedAt := none, engineQ := [], latch := none,
    ctxL2 := [], feLimit := 0x100000#32, barLimit := 0x1000000#32, holdLimit0 := 0#16, holdLimit1 := 64#16,
    holdLimit2 := 256#16, holdLimit3 := 1024#16, noHoldPriority := 28#6 }

/-- A brick right after reset: the lease registers of R86, everything else zero or empty. -/
def Brick.reset (die : Nat) : Brick :=
  { tlb := [], pfHeld := [], rects := [], ready := [], lastOffer := die * 4096 + 4095, gangs := [],
    stealAt := 0, spillBase := 0#64, freemapBase := 0#64, elogBase := 0#64, elogHead := 0#32, elogTail := 0#32,
    elogLost := 0#32, cohLease := 10000#32, cohLeaseMin := 1024#32, cohLeaseMax := 262144#32, portCompat := 0#32,
    versions := [], ucieOut := [], ucieRetraining := [], linkTrained := false, withheld := [], ctxL2Order := 0 }

/-- The registers held once, at reset: HBM_HASHED_SIZE 24 (R17), EXPAND_LOW 4,096 and the priority caps 31 (an absent
cap reads 31, R304), PKG_POWER_LIMIT 3,000 (R379), zero where no default is stated (R375). -/
def DevRegs.reset : DevRegs :=
  { hashedSize := 24#64, ctxPoolBase := 0#64, ctxPoolCount := 0#64, launchLocked := false, ovtDirBase := 0#64,
    ovtWritten := false, ptBase := 0#64, ptLog2b := 0#64, drtBase := 0#64, drtWritten := false, fqDirBase := 0#64,
    fqWritten := false, pfqBase := [], pfqHead := [], pfqTail := [], pfqHandler := [], lqBase := [], lqHead := [],
    lqTail := [], lqPrio := [], lqOpened := [], prioCap := [], expandLow := 4096#64, powerLimit := 3000#64, gangTicket := 0 }

/-- Mortar before the cold boot loads the default table (R366, R373). -/
def Mortar.reset : Mortar :=
  { shadow := [], active := [], ctStatus := 0#64, commitAt := none, holding := [], bricks := ⟨.live, .live, .live, .live⟩,
    talakVbase := [], talakCfg := [] }

/-- Nothing runs before the mask ROM has accepted an image (R373, R374). -/
def BootState.reset : BootState :=
  { running := false, recovery := false, ready := false, hbmTrained := false, image := none, flash := none,
    boots := 0 }

/-- The machine right after reset (R375): memory lists nothing, every full/empty bit is EMPTY, no context exists, every
register has its default or zero, and the cold boot has not run. -/
def State.reset : State :=
  { mem := [], full := [], poison := [], badCopies := [], badCtxs := [], cycle := 0, draws := 0, barrel := none, latch := none, agenda := [], cores := [],
    clusters := [], bricks := ⟨Brick.reset 0, Brick.reset 1, Brick.reset 2, Brick.reset 3⟩, l2 := ⟨[], [], [], []⟩,
    dir := [], dca := [], dcaOwn := [], snoops := [], combine := [], tileSubs := [], reqs := [], bankQ := [], msgs := [],
    noents := [], nacks := [], joins := [], overruns := [], skips := [], gangOut := [], wakes := [], claims := [], claimsLost := [], transfers := [], chunks := [], steals := [],
    kills := [],
    resumes := [], timers := [], invs := [], fences := [], plbFills := [], migrations := [], jobReqs := [],
    tileArrivals := [], mxArrivals := [], mxRetries := [], discards := [], faultQ := [], elogQ := [], handlerWakes := [],
    outReqs := [], outers := [], inflow := [], outbox := [], quarantine := [], regs := DevRegs.reset,
    mortar := Mortar.reset,
    att := { nonce := [], done := false, busy := false, report := [] },
    boot := BootState.reset }

end Sys2Proof.Machine
end

