-- ==== Sys2Proof/Machine/Bits.lean ====
section
/-!
DEFINITION. Machine/Bits.lean: bit fields, widths, lanes and extensions, by the notation of R185.
-/
namespace Sys2Proof.Machine

/-- Bits [hi:lo] of x as a number. -/
def bits (x hi lo : Nat) : Nat := x / 2 ^ lo % 2 ^ (hi + 1 - lo)

/-- Bit i of x. -/
def bit (x i : Nat) : Bool := x / 2 ^ i % 2 == 1

/-- x with bits [hi:lo] replaced by v. -/
def setBits (x hi lo v : Nat) : Nat :=
  x - bits x hi lo * 2 ^ lo + v % 2 ^ (hi + 1 - lo) * 2 ^ lo

def boolBit (b : Bool) : Nat := if b then 1 else 0

/-- The number of bits of a width modifier (R186). -/
def widthBits : Width → Nat | .w64 => 64 | .w32 => 32 | .w16 => 16 | .w8 => 8

/-- The number of bits of a lane (R199). -/
def laneBits : Lane → Nat | .l32 => 32 | .l16 => 16 | .l8 => 8

/-- uv_W(x): lo_W(x) as an unsigned number (R185). -/
def uv (w : Nat) (x : Word64) : Nat := x.toNat % 2 ^ w

/-- x mod 2^w, read as a two's-complement number. -/
def signed (w x : Nat) : Int :=
  let v := x % 2 ^ w
  if 2 * v < 2 ^ w then (v : Int) else (v : Int) - (2 ^ w : Nat)

/-- sv_W(x): lo_W(x) as a two's-complement number (R185). -/
def sv (w : Nat) (x : Word64) : Int := signed w x.toNat

/-- An exact number reduced to 64 bits of two's complement. -/
def word (r : Int) : Word64 := BitVec.ofInt 64 r

/-- ext_Z(r): lo_W(r) extended to 64 bits, with zeros when z, with copies of bit W − 1 otherwise (R185). -/
def extend (w : Nat) (z : Bool) (r : Int) : Word64 :=
  let v := (r % (2 ^ w : Nat)).toNat
  if z then BitVec.ofNat 64 v else word (signed w v)

/-- The number read by the signedness of `.z`. -/
def readLane (w : Nat) (z : Bool) (x : Nat) : Int := if z then ((x % 2 ^ w : Nat) : Int) else signed w x

/-- r clamped to the w-bit range of its signedness (R188, R200). -/
def clamp (w : Nat) (unsig : Bool) (r : Int) : Int :=
  if unsig then min (max r 0) (2 ^ w - 1) else min (max r (-(2 ^ (w - 1)))) (2 ^ (w - 1) - 1)

/-- The n lanes of w bits of x, lane 0 first (R199). -/
def lanes (w n x : Nat) : List Nat := (List.range n).map fun i => x / 2 ^ (w * i) % 2 ^ w

/-- Join lanes of w bits, lane 0 first. -/
def joinLanes (w : Nat) : List Nat → Nat
  | [] => 0
  | x :: xs => x % 2 ^ w + 2 ^ w * joinLanes w xs

/-- The number of one bits among the low n bits. -/
def popCount : Nat → Nat → Nat
  | 0, _ => 0
  | n + 1, x => x % 2 + popCount n (x / 2)

/-- The number of trailing zero bits among the low n bits; n when they are all zero. -/
def trailingZeros : Nat → Nat → Nat
  | 0, _ => 0
  | n + 1, x => if x % 2 = 1 then 0 else 1 + trailingZeros n (x / 2)

/-- The low n bits in reverse order. -/
def reverseBits : Nat → Nat → Nat
  | 0, _ => 0
  | n + 1, x => x % 2 * 2 ^ n + reverseBits n (x / 2)

/-- The number of leading zero bits of the low n bits; n when they are all zero. -/
def leadingZeros (n x : Nat) : Nat := trailingZeros n (reverseBits n x)

/-- The n low bytes in reverse order. -/
def reverseBytes : Nat → Nat → Nat
  | 0, _ => 0
  | n + 1, x => x % 256 * 256 ^ n + reverseBytes n (x / 256)

/-- floor(log2 x), for x > 0, by halving at most n times. -/
def log2Fuel : Nat → Nat → Nat
  | 0, _ => 0
  | n + 1, x => if x ≤ 1 then 0 else 1 + log2Fuel n (x / 2)

/-- The XOR of the n lowest groups of w bits of x (R18 to R20, R62). -/
def xorGroups (w : Nat) : Nat → Nat → Nat
  | 0, _ => 0
  | n + 1, x => (x % 2 ^ w) ^^^ xorGroups w n (x / 2 ^ w)

/-- The n bytes of x, the least significant first (R5). -/
def toBytes : Nat → Nat → List Byte
  | 0, _ => []
  | n + 1, x => BitVec.ofNat 8 x :: toBytes n (x / 256)

/-- The number of a list of bytes, the least significant first (R5). -/
def ofBytes : List Byte → Nat
  | [] => 0
  | b :: bs => b.toNat + 256 * ofBytes bs

/-! ### Tables by number -/

def Table.get? {α : Type} : Table α → Nat → Option α
  | [], _ => none
  | (k, v) :: t, n => if n = k then some v else if n < k then none else Table.get? t n

def Table.set {α : Type} : Table α → Nat → α → Table α
  | [], n, x => [(n, x)]
  | (k, v) :: t, n, x =>
    if n = k then (k, x) :: t else if n < k then (n, x) :: (k, v) :: t else (k, v) :: Table.set t n x

def Table.erase {α : Type} : Table α → Nat → Table α
  | [], _ => []
  | (k, v) :: t, n =>
    if n = k then Table.erase t n else if n < k then (k, v) :: t else (k, v) :: Table.erase t n

def Table.modify {α : Type} (t : Table α) (n : Nat) (f : α → α) : Table α :=
  t.map fun (k, x) => if k = n then (k, f x) else (k, x)

def Quad.get {α : Type} (q : Quad α) (d : Nat) : α :=
  match d with | 0 => q.b0 | 1 => q.b1 | 2 => q.b2 | _ => q.b3

def Quad.set {α : Type} (q : Quad α) (d : Nat) (x : α) : Quad α :=
  match d with | 0 => { q with b0 := x } | 1 => { q with b1 := x } | 2 => { q with b2 := x } | _ => { q with b3 := x }

def Quad.modify {α : Type} (q : Quad α) (d : Nat) (f : α → α) : Quad α := q.set d (f (q.get d))

def Quad.all {α : Type} (x : α) : Quad α := ⟨x, x, x, x⟩

/-- Replace item n of a list. -/
def listSet {α : Type} : List α → Nat → α → List α
  | [], _, _ => []
  | _ :: xs, 0, y => y :: xs
  | x :: xs, n + 1, y => x :: listSet xs n y

/-- Remove item n of a list. -/
def listErase {α : Type} : List α → Nat → List α
  | [], _ => []
  | _ :: xs, 0 => xs
  | x :: xs, n + 1 => x :: listErase xs n

/-- The least of a list by an order. -/
def leastBy {α : Type} (better : α → α → Bool) : List α → Option α
  | [] => none
  | x :: xs => match leastBy better xs with
    | some y => if better y x then some y else some x
    | none => some x

end Sys2Proof.Machine
end

