-- ==== Sys2Proof/Machine/Ops.lean ====
section
/-!
DEFINITION. Machine/Ops.lean: the named operations over memory, registers, the context line and the program counter,
and taking a fault.
-/
namespace Sys2Proof.Machine

/-! ## Memory

One list of cells holds every byte that differs from zero, by its memory key: a physical address of HBM, host or peer
memory (below 2^48), or the window address of a byte of a CLM or a TSP (R28, R29). -/

/-- The byte at a key: zero where the list has no cell (R375 for CLM and TSP; DESIGN CHOICE for HBM and host memory,
assumption 3). -/
def memByte : List Host.Cell → Nat → Byte
  | [], _ => 0
  | (k, v) :: m, a => if a = k then v else if a < k then 0 else memByte m a

/-- Write one byte, keeping the canonical form: keys rise and no cell holds zero. -/
def memPut : List Host.Cell → Nat → Byte → List Host.Cell
  | [], a, b => if b = 0 then [] else [(a, b)]
  | (k, v) :: m, a, b =>
    if a = k then (if b = 0 then m else (k, b) :: m)
    else if a < k then (if b = 0 then (k, v) :: m else (a, b) :: (k, v) :: m)
    else (k, v) :: memPut m a b

/-- Read n bytes from a key up. -/
def memBytes (m : List Host.Cell) : Nat → Nat → List Byte
  | _, 0 => []
  | a, n + 1 => memByte m a :: memBytes m (a + 1) n

/-- Write bytes from a key up. -/
def memPuts (m : List Host.Cell) : Nat → List Byte → List Host.Cell
  | _, [] => m
  | a, b :: bs => memPuts (memPut m a b) (a + 1) bs

/-- Write zero to n bytes from a key up. -/
def memZero (m : List Host.Cell) (a n : Nat) : List Host.Cell :=
  m.filter fun (k, _) => !(decide (a ≤ k) && decide (k < a + n))

/-- Read n bytes as a number, the least significant byte first (R5). -/
def memNat (m : List Host.Cell) (a n : Nat) : Nat := ofBytes (memBytes m a n)

/-- A unit of memory is poisoned: 64 bytes by physical or window address (R341). -/
def State.isPoisoned (s : State) (a : Nat) : Bool := s.poison.contains (a / 64 * 64)

/-- The canonical form: keys rise strictly from lo, and no cell equals what an unlisted key reads as. -/
def memWfFrom : Nat → List Host.Cell → Bool
  | _, [] => true
  | lo, (k, v) :: m => decide (lo ≤ k) && decide (v ≠ 0) && memWfFrom (k + 1) m

def Memory.wf (m : List Host.Cell) : Bool := memWfFrom 0 m

/-! ## Registers of the context line -/

def Regs.get (r : Regs) (i : Reg) : Word64 :=
  match i.val with
  | 0 => r.g0 | 1 => r.g1 | 2 => r.g2 | 3 => r.g3 | 4 => r.g4 | 5 => r.g5 | 6 => r.g6 | _ => r.g7

def Regs.set (r : Regs) (i : Reg) (x : Word64) : Regs :=
  match i.val with
  | 0 => { r with g0 := x } | 1 => { r with g1 := x } | 2 => { r with g2 := x } | 3 => { r with g3 := x }
  | 4 => { r with g4 := x } | 5 => { r with g5 := x } | 6 => { r with g6 := x } | _ => { r with g7 := x }

/-- Register i + 1 of a pair whose first register is even (R264). -/
def pairOf (i : Reg) : Reg := Fin.ofNat 8 (i.val + 1)

/-- A predicate: p0 reads 1 (R116). -/
def Line.predicate (l : Line) (p : PReg) : Bool := p.val == 0 || l.pred.toNat / 2 ^ p.val % 2 == 1

/-- Write a predicate: a write of p0 has no effect (R116, R184). -/
def Line.setPredicate (l : Line) (p : PReg) (v : Bool) : Line :=
  if p.val = 0 then l else { l with pred := BitVec.ofNat 32 (setBits l.pred.toNat p.val p.val (boolBit v)) }

def Line.reg (l : Line) (i : Reg) : Word64 := l.regs.get i
def Line.setReg (l : Line) (i : Reg) (x : Word64) : Line := { l with regs := l.regs.set i x }

/-- STATE of the status word (R117): 0 FREE, 1 READY, 2 RESIDENT, 3 WAIT, 4 FAULTED, 5 POISONED, 6 HALTED. -/
inductive CtxState | free | ready | resident | wait | faulted | poisoned | halted
  deriving DecidableEq, Repr

def CtxState.code : CtxState → Nat
  | .free => 0 | .ready => 1 | .resident => 2 | .wait => 3 | .faulted => 4 | .poisoned => 5 | .halted => 6

def Line.stateCode (l : Line) : Nat := l.status.toNat % 16
def Line.inState (l : Line) (c : CtxState) : Bool := l.stateCode == c.code
def Line.setState (l : Line) (c : CtxState) : Line :=
  { l with status := BitVec.ofNat 32 (setBits l.status.toNat 3 0 c.code) }
def Line.priority (l : Line) : Nat := bits l.status.toNat 8 4
def Line.setPriority (l : Line) (p : Nat) : Line :=
  { l with status := BitVec.ofNat 32 (setBits l.status.toNat 8 4 p) }
def Line.retain (l : Line) : Bool := bit l.status.toNat 9
def Line.setLastFault (l : Line) (c : Nat) : Line :=
  { l with status := BitVec.ofNat 32 (setBits l.status.toNat 17 10 c) }
/-- CONTROL (R118). -/
def Line.domain (l : Line) : Nat := bits l.control.toNat 15 0
def Line.partition (l : Line) : Nat := bits l.control.toNat 23 16
def Line.affinity (l : Line) : Nat := bits l.control.toNat 27 24
def Line.slotClass (l : Line) : Nat := bits l.control.toNat 29 28
def Line.holdClass (l : Line) : Nat := bits l.control.toNat 31 30
def Line.touched (l : Line) : Nat := bits l.control.toNat 47 32
def Line.setTouched (l : Line) (t : Nat) : Line :=
  { l with control := BitVec.ofNat 64 (setBits l.control.toNat 47 32 t) }
/-- WAIT_TAG (R119): KIND and VALUE. -/
def Line.waitKind (l : Line) : Nat := bits l.waitTag.toNat 31 28
def Line.waitValue (l : Line) : Nat := bits l.waitTag.toNat 27 0
def Line.setWait (l : Line) (kind value : Nat) : Line := { l with waitTag := BitVec.ofNat 32 (kind * 2 ^ 28 + value) }
/-- PC: overlay ID and byte offset (R115). -/
def Line.pcOverlay (l : Line) : Nat := bits l.pc.toNat 31 16
def Line.pcOffset (l : Line) : Nat := bits l.pc.toNat 15 0

/-! ## The issuing context -/

/-- The words of R333 for a code. -/
def FaultCode.num : FaultCode → Nat
  | .illegalEncoding => 0x01 | .protection => 0x02 | .misaligned => 0x03 | .bounds => 0x04
  | .branchToHeader => 0x05 | .branchToLiteral => 0x06 | .staleHandle => 0x07 | .unsupportedAtomic => 0x08
  | .feTimeout => 0x09 | .barTimeout => 0x0A | .poisonedData => 0x0B | .deferredStore => 0x0C | .trap => 0x0D
  | .contextPoisoned => 0x0E | .refreshFailed => 0x0F | .homeOffline => 0x10 | .noCircuit => 0x11

/-- The brick of a core number (R14: 4,096 cores in each brick). -/
def dieOfCore (core : Nat) : Nat := core / 4096

/-- The outcome of an operation that goes on. -/
abbrev Result := Host.Outcome State Fault Refusal

/-- Run a meaning in the context that issued the instruction. -/
def withBarrel (s : State) (body : Barrel → Result) : Result :=
  match s.barrel with
  | none => .refused .noIssuingContext
  | some b => body b

/-- Put the issuing context back with its line changed. -/
def State.setLine (s : State) (b : Barrel) (l : Line) : State :=
  { s with barrel := some { b with held := { b.held with line := l } } }

/-- The PC after the instruction, by R144. -/
def Barrel.nextPc (b : Barrel) : BitVec 32 :=
  BitVec.ofNat 32 (b.held.line.pcOverlay * 2 ^ 16 + b.next % 2 ^ 16)

/-- The context with the mark of R144: the sum that its next PC comes from reached 65,536. -/
def Barrel.counted (b : Barrel) : Barrel :=
  { b with held := { b.held with overran := b.held.overran || decide (2 ^ 16 ≤ b.next) } }

/-- The instruction completes with line l and does not transfer control: the PC takes its next value (R144). -/
def State.complete (s : State) (b : Barrel) (l : Line) : State :=
  { s with barrel := some { b with held := { b.held with
      line := { l with pc := b.nextPc }, overran := b.held.overran || decide (2 ^ 16 ≤ b.next) } } }

/-- The instruction completes with line l and transfers control to pc (R145). -/
def State.jumpTo (s : State) (b : Barrel) (l : Line) (pc : BitVec 32) : State :=
  s.setLine b { l with pc := pc }

/-- The instruction parks: STATE WAIT with the wait tag, its PC kept, nothing else changed (R119, R120). -/
def State.park (s : State) (b : Barrel) (kind value : Nat) : State :=
  s.setLine b ((b.held.line.setWait kind value).setState .wait)

/-- The record of a fault of a context (R332). -/
def faultRecord (l : Line) (va : Nat) (pc : BitVec 32) (code : FaultCode) (cls : FaultClass) (acc : AccessKind)
    (aux : BitVec 32) (fva die : Nat) : FaultRec :=
  { pc := pc, aux := aux, code := code, cls := cls, access := acc, domain := BitVec.ofNat 16 l.domain,
    part := BitVec.ofNat 8 l.partition, die := die, gen := l.gen, ctx := va, va := fva % 2 ^ 56 }

/-- TAKING A SYNCHRONOUS ERROR (R339): the instruction has no effect; LAST_FAULT := the code and STATE := FAULTED in
line l, whose PC is the one the handler shall find; the record waits for the write-back of the eviction that starts
when the instruction leaves the barrel. -/
def State.takeFault (s : State) (b : Barrel) (l : Line) (code : FaultCode) (acc : AccessKind) (aux : BitVec 32)
    (fva : Nat) : State :=
  let r := faultRecord b.held.line b.held.va b.held.line.pc code .sync acc aux fva (dieOfCore b.core)
  { s with barrel := some { b with held := { b.held with
      line := (l.setLastFault code.num).setState .faulted,
      records := b.held.records ++ [r] } } }

/-- A synchronous error of the instruction in the barrel with its own word in AUX. -/
def State.fault (s : State) (b : Barrel) (code : FaultCode) (acc : AccessKind) (fva : Nat) : State :=
  s.takeFault b b.held.line code acc b.word fva

/-- The illegal-encoding fault (R153): AUX is the word, FAULT_VA is 0, ACCESS is 8. -/
def State.illegal (s : State) (b : Barrel) : State := s.fault b .illegalEncoding .none 0

end Sys2Proof.Machine
end

