-- ==== Sys2Proof/Machine/Operands.lean ====
section
/-!
DEFINITION. Machine/Operands.lean: the guard, every form of the tail operand and its widening (R147, R148), and the
shared frame in which an instruction of an overlay executes.
-/
namespace Sys2Proof.Machine

/-- The tail source of an instruction (R148): a register, the trailing literal, a constant-bank entry, or imm13. -/
inductive Tail
  | reg (r : Reg)
  | lit (v : BitVec 32)
  | const (k : BitVec 8)
  | imm (v : BitVec 13)
  deriving DecidableEq, Repr

/-- The guard holds when the selected predicate, inverted if the guard negates, reads 1 (R147). -/
def guardHolds (l : Line) (g : Guard) : Bool := l.predicate g.p != g.neg

/-- A constant index at or beyond CONST_WORDS makes the encoding illegal (R148, R153 case 8). -/
def Tail.indexBad (t : Tail) (b : Barrel) : Bool :=
  match t with
  | .const k => decide (b.constWords ≤ k.toNat)
  | .reg _ | .lit _ | .imm _ => false

/-- The window address of constant c[k]: slot byte LENGTH + 4k (R140). -/
def constAddr (b : Barrel) (k : BitVec 8) : Nat := b.image + b.length + 4 * k.toNat

/-- Constant c[k] (R140). -/
def constWord (s : State) (b : Barrel) (k : BitVec 8) : BitVec 32 := BitVec.ofNat 32 (memNat s.mem (constAddr b k) 4)

/-- The constant that the tail reads lies in a poisoned unit (R341): its address. -/
def Tail.poisonAt (t : Tail) (s : State) (b : Barrel) : Option Nat :=
  match t with
  | .const k => if s.isPoisoned (constAddr b k) then some (constAddr b k) else none
  | .reg _ | .lit _ | .imm _ => none

/-- The 32 bits of a literal or constant tail; none for a register and an immediate. -/
def Tail.raw? (t : Tail) (s : State) (b : Barrel) : Option (BitVec 32) :=
  match t with
  | .lit v => some v
  | .const k => some (constWord s b k)
  | .reg _ | .imm _ => none

/-- The value of the tail, widened under R148: sign-extended, or zero-extended in a `.z` form. An imm13 belongs to the
form with mod = 0 (R149), so it is always sign-extended. -/
def Tail.value (t : Tail) (s : State) (b : Barrel) (z : Bool) : Word64 :=
  match t with
  | .reg r => b.held.line.reg r
  | .lit v => if z then v.setWidth 64 else v.signExtend 64
  | .const k => if z then (constWord s b k).setWidth 64 else (constWord s b k).signExtend 64
  | .imm v => v.signExtend 64

/-- The tail of the short-vector instructions: a 32-bit literal or constant stands in both halves (R199). -/
def Tail.both (t : Tail) (s : State) (b : Barrel) : Word64 :=
  match t.raw? s b with
  | some v => v ++ v
  | none => t.value s b false

/-- The frame of an instruction: an illegal constant index first, then the guard, then its effect (R147, R148); a constant in a
poisoned unit is a read of poisoned data (R341, assumption 121). -/
def issue (g : Guard) (t : Tail) (s : State) (body : Barrel → Result) : Result :=
  withBarrel s fun b =>
    if t.indexBad b then .next (s.illegal b)
    else if !guardHolds b.held.line g then .next (s.complete b b.held.line)
    else match t.poisonAt s b with
      | some a => .next (s.takeFault b b.held.line .poisonedData .none 0 a)
      | none => body b

/-- The frame of an instruction with no tail. -/
def issue0 (g : Guard) (s : State) (body : Barrel → Result) : Result :=
  withBarrel s fun b =>
    if guardHolds b.held.line g then body b else .next (s.complete b b.held.line)

/-- An instruction that writes register d from its line and its tail and completes in the barrel. -/
def writeReg (g : Guard) (t : Tail) (z : Bool) (d : Reg) (s : State) (f : Line → Word64 → Word64) : Result :=
  issue g t s fun b =>
    let l := b.held.line
    .next (s.complete b (l.setReg d (f l (t.value s b z))))

/-- An instruction with no tail that writes register d and completes in the barrel. -/
def writeReg0 (g : Guard) (d : Reg) (s : State) (f : Line → Word64) : Result :=
  issue0 g s fun b => .next (s.complete b (b.held.line.setReg d (f b.held.line)))

/-- An instruction that writes predicate p and completes in the barrel. -/
def writePred (g : Guard) (t : Tail) (z : Bool) (p : PReg) (s : State) (f : Line → Word64 → Bool) : Result :=
  issue g t s fun b =>
    let l := b.held.line
    .next (s.complete b (l.setPredicate p (f l (t.value s b z))))

end Sys2Proof.Machine
end

