-- ==== Sys2Proof/Machine/Flags.lean ====
section
/-!
DEFINITION. Machine/Flags.lean: the predicate word's CARRY and sticky flags (R116), the carry and saturation rules of
`add` and `sub` (R188) and the masks of `rdp` and `wrp` (R198).
-/
namespace Sys2Proof.Machine

/-- The flags that a rounding reports (R171): bits [12:8] of the predicate word. -/
structure FpFlags where
  fv : Bool
  fz : Bool
  fo : Bool
  fu : Bool
  fx : Bool
  deriving DecidableEq, Repr

def FpFlags.none : FpFlags := ⟨false, false, false, false, false⟩

def FpFlags.or (a b : FpFlags) : FpFlags :=
  ⟨a.fv || b.fv, a.fz || b.fz, a.fo || b.fo, a.fu || b.fu, a.fx || b.fx⟩

/-- The flags at bits [12:8] (R116): FV 8, FZ 9, FO 10, FU 11, FX 12. -/
def FpFlags.mask (f : FpFlags) : Nat :=
  boolBit f.fv * 2 ^ 8 + boolBit f.fz * 2 ^ 9 + boolBit f.fo * 2 ^ 10 + boolBit f.fu * 2 ^ 11 + boolBit f.fx * 2 ^ 12

/-- OR the flags into the sticky flags of the predicate word (R171). -/
def Line.raise (l : Line) (f : FpFlags) : Line := { l with pred := l.pred ||| BitVec.ofNat 32 f.mask }

/-- CARRY (R116). -/
def Line.carry (l : Line) : Bool := bit l.pred.toNat 13
def Line.setCarry (l : Line) (c : Bool) : Line :=
  { l with pred := BitVec.ofNat 32 (setBits l.pred.toNat 13 13 (boolBit c)) }

/-- The exact result of `add` and `sub` and the new CARRY, if one is written (R188). -/
def addSub (isAdd : Bool) (m : CarryMode) (z : Bool) (w : Nat) (x y : Word64) (carry : Bool) : Int × Option Bool :=
  match m with
  | .sat =>
    let a : Int := if z then uv w x else sv w x
    let c : Int := if z then uv w y else sv w y
    (clamp w z (if isAdd then a + c else a - c), Option.none)
  | .none => (if isAdd then (uv w x : Int) + uv w y else (uv w x : Int) - uv w y, Option.none)
  | .co =>
    let r : Int := if isAdd then (uv w x : Int) + uv w y else (uv w x : Int) - uv w y
    (r, some (if isAdd then decide ((2 ^ w : Nat) ≤ r) else decide (r < 0)))
  | .cio =>
    let cin : Int := boolBit carry
    let r : Int := if isAdd then (uv w x : Int) + uv w y + cin else (uv w x : Int) - uv w y - cin
    (r, some (if isAdd then decide ((2 ^ w : Nat) ≤ r) else decide (r < 0)))

/-- The predicate word as `rdp` reads it: bit 0 reads 1 (R198). -/
def Line.readPred (l : Line) : BitVec 32 := l.pred ||| 1

/-- The bits that `wrp` can write: p1 to p7, the sticky flags and CARRY (R198). -/
def wrpMask : BitVec 32 := 0x3FFE#32

end Sys2Proof.Machine
end

