-- ==== Sys2Proof/Machine/Formats.lean ====
section
/-!
DEFINITION. Machine/Formats.lean: the number formats (R161 to R168), exact values, the one rounding function (R169 to
R173) and exact arithmetic on values (R174).
-/
namespace Sys2Proof

/-- The parameters of a floating-point format (R163, R165): its bits, its fraction bits T, its bias, whether it is
unsigned, the magnitude code of MAXF, the magnitude code of infinity where it has one, the NaN code produced, and
whether its zero has one code. -/
structure FParams where
  size : Nat
  t : Nat
  bias : Nat
  unsig : Bool
  maxMag : Nat
  infMag : Option Nat
  nan : Nat
  oneZero : Bool
  deriving DecidableEq, Repr

/-- The parameters of a floating-point format; those of binary32 for a format that is none. -/
def Fmt.params (f : Fmt) : FParams :=
  match f with
  | .f64 => ⟨64, 52, 1023, false, 0x7FEFFFFFFFFFFFFF, some 0x7FF0000000000000, 0x7FF8000000000000, false⟩
  | .f16 => ⟨16, 10, 15, false, 0x7BFF, some 0x7C00, 0x7E00, false⟩
  | .bf16 => ⟨16, 7, 127, false, 0x7F7F, some 0x7F80, 0x7FC0, false⟩
  | .e4m3 => ⟨8, 3, 7, false, 0x7E, none, 0x7F, false⟩
  | .e5m2 => ⟨8, 2, 15, false, 0x7B, some 0x7C, 0x7E, false⟩
  | .b8 p false x =>
    ⟨8, p.val, 2 ^ (6 - p.val), false, if x then 0x7E else 0x7F, if x then some 0x7F else none, 0x80, true⟩
  | .b8 p true x =>
    ⟨8, p.val, 2 ^ (7 - p.val), true, if x then 0xFD else 0xFE, if x then some 0xFE else none, 0xFF, true⟩
  | .f32 | .i8 | .z8 | .i16 | .z16 | .i32 | .z32 | .i64 | .z64 | .acc =>
    ⟨32, 23, 127, false, 0x7F7FFFFF, some 0x7F800000, 0x7FC00000, false⟩

/-- Bytes of an element (R161). -/
def Fmt.size (f : Fmt) : Nat :=
  match f with
  | .i8 | .z8 | .e4m3 | .e5m2 | .b8 _ _ _ => 1
  | .i16 | .z16 | .f16 | .bf16 => 2
  | .i32 | .z32 | .f32 => 4
  | .i64 | .z64 | .f64 | .acc => 8

/-- The bits and signedness of an integer format (R161). -/
def Fmt.int? (f : Fmt) : Option (Nat × Bool) :=
  match f with
  | .i8 => some (8, true) | .z8 => some (8, false) | .i16 => some (16, true) | .z16 => some (16, false)
  | .i32 => some (32, true) | .z32 => some (32, false) | .i64 => some (64, true) | .z64 => some (64, false)
  | .f64 | .f32 | .f16 | .bf16 | .e4m3 | .e5m2 | .acc | .b8 _ _ _ => none

def FFmt.fmt : FFmt → Fmt | .f32 => .f32 | .f64 => .f64 | .f16 => .f16 | .bf16 => .bf16

end Sys2Proof

namespace Sys2Proof.Machine

/-- An exact value: NaN, an infinity, a zero with its sign, or (−1)^neg × n / d × 2^e with n and d positive. -/
inductive XVal
  | nan
  | inf (neg : Bool)
  | zero (neg : Bool)
  | fin (neg : Bool) (n d : Nat) (e : Int)
  deriving DecidableEq, Repr

/-- An exact integer as a value. -/
def XVal.ofInt (i : Int) : XVal := if i = 0 then .zero false else .fin (decide (i < 0)) i.natAbs 1 0

/-- An exact i × 2^e as a value. -/
def XVal.ofScaled (i : Int) (e : Int) : XVal := if i = 0 then .zero false else .fin (decide (i < 0)) i.natAbs 1 e

/-- The magnitude of a magnitude code: significand and exponent (R163, R165). -/
def magOf (p : FParams) (k : Nat) : Nat × Int :=
  let e := k / 2 ^ p.t
  let f := k % 2 ^ p.t
  if e = 0 then (f, 1 - (p.bias : Int) - p.t) else (2 ^ p.t + f, (e : Int) - p.bias - p.t)

/-- Decode a code of a floating-point format (R163 to R165). -/
def decodeFloat (p : FParams) (code : Nat) : XVal :=
  let c := code % 2 ^ p.size
  let neg := !p.unsig && decide (2 ^ (p.size - 1) ≤ c)
  let k := if p.unsig then c else c % 2 ^ (p.size - 1)
  if p.oneZero && c == p.nan then .nan
  else match p.infMag with
    | some i =>
      if k = i then .inf neg
      else if p.maxMag < k then .nan
      else if k = 0 then .zero neg
      else .fin neg (magOf p k).1 1 (magOf p k).2
    | none =>
      if p.maxMag < k then .nan
      else if k = 0 then .zero neg
      else .fin neg (magOf p k).1 1 (magOf p k).2

/-- Decode a code of any format of `fcvt` (R161). -/
def decodeFmt (f : Fmt) (code : Nat) : XVal :=
  match f.int? with
  | some (w, true) => XVal.ofInt (signed w code)
  | some (w, false) => XVal.ofInt (code % 2 ^ w : Nat)
  | none => decodeFloat f.params code

/-- floor(log2 (n / d)) for positive n and d. -/
def floorLog2 (n d : Nat) : Int :=
  let k : Int := (Nat.log2 n : Int) - Nat.log2 d
  if k < 0 then (if d ≤ n * 2 ^ k.natAbs then k else k - 1)
  else (if d * 2 ^ k.natAbs ≤ n then k else k - 1)

/-- n / d × 2^e as a quotient of two numbers, in units of 2^q. -/
def inUnits (n d : Nat) (e q : Int) : Nat × Nat :=
  if q ≤ e then (n * 2 ^ (e - q).natAbs, d) else (n, d * 2 ^ (q - e).natAbs)

/-- Round the quotient num / den to an integer by the mode (R169, R170); draw is rsto_draw. -/
def roundQuot (neg : Bool) (num den : Nat) (mode : Rm) (draw : Nat) : Nat :=
  let lo := num / den
  let r := num % den
  let up := match mode with
    | .rne => decide (den < 2 * r) || (decide (2 * r = den) && lo % 2 == 1)
    | .rtz => false
    | .rup => !neg && decide (r ≠ 0)
    | .rdn => neg && decide (r ≠ 0)
    | .rsto => decide (r ≠ 0) && decide (2 ^ 32 ≤ r * 2 ^ 32 / den + draw)
  if up then lo + 1 else lo

/-- The sign bit of a code. -/
def signBit (p : FParams) (neg : Bool) : Nat := if neg && !p.unsig then 2 ^ (p.size - 1) else 0

/-- The zero of a format with a sign (R170). -/
def zeroCode (p : FParams) (neg : Bool) : Nat := if p.oneZero then 0 else signBit p neg

/-- m × 2^q as a magnitude code, for m × 2^q at most MAXF on the format's grid (R163). -/
def magCode (p : FParams) (m : Nat) (q : Int) : Nat :=
  if m < 2 ^ p.t then m
  else
    let (m, q) := if m = 2 ^ (p.t + 1) then (2 ^ p.t, q + 1) else (m, q)
    (q + p.bias + p.t).natAbs * 2 ^ p.t + (m - 2 ^ p.t)

/-- m × 2^q > MAXF. -/
def beyondMax (p : FParams) (m : Nat) (q : Int) : Bool :=
  let (mm, qm) := magOf p p.maxMag
  if qm ≤ q then decide (mm < m * 2 ^ (q - qm).natAbs) else decide (mm * 2 ^ (qm - q).natAbs < m)

/-- round_F(x, mode, ov) with the flags it reports (R170, R171); sat is OV = SAT, draw is rsto_draw. A NaN or an infinity that the
operand itself is sets no FX (assumption 30). -/
def roundF (p : FParams) (x : XVal) (mode : Rm) (sat : Bool) (draw : Nat) : Nat × FpFlags :=
  match x with
  | .nan => (p.nan, .none)
  | .zero neg => (zeroCode p neg, .none)
  | .inf neg =>
    if p.unsig && neg then
      (if sat then (0, { FpFlags.none with fv := true, fx := true })
       else (p.nan, { FpFlags.none with fv := true, fx := true }))
    else match p.infMag with
      | some i => (signBit p neg + i, .none)
      | none =>
        if sat then (signBit p neg + p.maxMag, { FpFlags.none with fx := true })
        else (p.nan, { FpFlags.none with fv := true, fx := true })
  | .fin neg n d e =>
    if p.unsig && neg then
      (if sat then 0 else p.nan, { FpFlags.none with fv := true, fx := true })
    else
      let emin : Int := 1 - (p.bias : Int)
      let lg := floorLog2 n d + e
      let q := max lg emin - p.t
      let (num, den) := inUnits n d e q
      let m := roundQuot neg num den mode draw
      let inexact := decide (num % den ≠ 0)
      let tiny := decide (lg < emin)
      if beyondMax p m q then
        let toInf := match mode with
          | .rne | .rsto => true
          | .rup => !neg
          | .rdn => neg
          | .rtz => false
        let fl : FpFlags := { FpFlags.none with fo := true, fx := true }
        if sat || !toInf then (signBit p neg + p.maxMag, fl)
        else match p.infMag with
          | some i => (signBit p neg + i, fl)
          | none => (p.nan, { fl with fv := true })
      else
        let fl : FpFlags := { FpFlags.none with fu := tiny && inexact, fx := inexact }
        if m = 0 then (zeroCode p neg, fl) else (signBit p neg + magCode p m q, fl)

/-- The conversion to an integer of w bits (R172): out of range, NaN and infinities set FV alone. -/
def roundToInt (w : Nat) (sgn : Bool) (x : XVal) (mode : Rm) (draw : Nat) : Int × FpFlags :=
  let lo : Int := if sgn then -(2 ^ (w - 1)) else 0
  let hi : Int := if sgn then 2 ^ (w - 1) - 1 else 2 ^ w - 1
  let invalid : FpFlags := { FpFlags.none with fv := true }
  match x with
  | .nan => (0, invalid)
  | .zero _ => (0, .none)
  | .inf neg => (if neg then lo else hi, invalid)
  | .fin neg n d e =>
    let (num, den) := inUnits n d e 0
    let m := roundQuot neg num den mode draw
    let v : Int := if neg then -(m : Int) else m
    if v < lo then (lo, invalid)
    else if hi < v then (hi, invalid)
    else (v, { FpFlags.none with fx := decide (num % den ≠ 0) })

/-- RNE_int of i / 2^k for an integer i: ties to even (R180, R183). -/
def rneShift (i : Int) (k : Nat) : Int :=
  let m := roundQuot (decide (i < 0)) i.natAbs (2 ^ k) .rne 0
  if i < 0 then -(m : Int) else m

/-! ## Exact arithmetic (R174) -/

def XVal.neg : XVal → XVal
  | .nan => .nan
  | .inf n => .inf (!n)
  | .zero n => .zero (!n)
  | .fin n a b e => .fin (!n) a b e

def XVal.isNan : XVal → Bool | .nan => true | .inf _ | .zero _ | .fin _ _ _ _ => false
def XVal.isNeg : XVal → Bool | .nan => false | .inf n | .zero n | .fin n _ _ _ => n

/-- The exact product; none is the invalid 0 × ∞. -/
def XVal.mul (x y : XVal) : Option XVal :=
  match x, y with
  | .nan, _ => some .nan
  | _, .nan => some .nan
  | .inf _, .zero _ => none
  | .zero _, .inf _ => none
  | .inf s, .inf t => some (.inf (s != t))
  | .inf s, .fin t _ _ _ => some (.inf (s != t))
  | .fin s _ _ _, .inf t => some (.inf (s != t))
  | .zero s, .zero t => some (.zero (s != t))
  | .zero s, .fin t _ _ _ => some (.zero (s != t))
  | .fin s _ _ _, .zero t => some (.zero (s != t))
  | .fin s a b e, .fin t c d f => some (.fin (s != t) (a * c) (b * d) (e + f))

/-- The signed numerator of n / d × 2^e over the denominator, in units of 2^q for q at most e. -/
def scaledNum (neg : Bool) (n : Nat) (e q : Int) : Int :=
  let v : Int := (n * 2 ^ (e - q).natAbs : Nat)
  if neg then -v else v

/-- The exact sum; none is the invalid ∞ − ∞. rdn gives the sign of an exact zero sum of opposite signs. -/
def XVal.add (rdn : Bool) (x y : XVal) : Option XVal :=
  match x, y with
  | .nan, _ => some .nan
  | _, .nan => some .nan
  | .inf s, .inf t => if s = t then some (.inf s) else none
  | .inf s, .zero _ => some (.inf s)
  | .inf s, .fin _ _ _ _ => some (.inf s)
  | .zero _, .inf t => some (.inf t)
  | .fin _ _ _ _, .inf t => some (.inf t)
  | .zero s, .zero t => some (.zero (if s = t then s else rdn))
  | .zero _, .fin t c d f => some (.fin t c d f)
  | .fin s a b e, .zero _ => some (.fin s a b e)
  | .fin s a b e, .fin t c d f =>
    let q := min e f
    let v := scaledNum s a e q * d + scaledNum t c f q * b
    if v = 0 then some (.zero rdn) else some (.fin (decide (v < 0)) v.natAbs (b * d) q)

/-- The exact quotient: none is the invalid 0/0 and ∞/∞; the flag tells a division of a finite value by zero. -/
def XVal.div (x y : XVal) : Option XVal × Bool :=
  match x, y with
  | .nan, _ => (some .nan, false)
  | _, .nan => (some .nan, false)
  | .inf _, .inf _ => (none, false)
  | .zero _, .zero _ => (none, false)
  | .inf s, .zero t => (some (.inf (s != t)), false)
  | .inf s, .fin t _ _ _ => (some (.inf (s != t)), false)
  | .zero s, .inf t => (some (.zero (s != t)), false)
  | .zero s, .fin t _ _ _ => (some (.zero (s != t)), false)
  | .fin s _ _ _, .inf t => (some (.zero (s != t)), false)
  | .fin s _ _ _, .zero t => (some (.inf (s != t)), true)
  | .fin s a b e, .fin t c d f => (some (.fin (s != t) (a * d) (b * c) (e - f)), false)

/-- floor(sqrt n) by binary digits: k digits from 2^(k−1) down, on top of r. -/
def isqrtFrom (n : Nat) : Nat → Nat → Nat
  | 0, r => r
  | k + 1, r => let t := r + 2 ^ k; isqrtFrom n k (if t * t ≤ n then t else r)

def isqrt (n : Nat) : Nat := isqrtFrom n (Nat.log2 n / 2 + 1) 0

/-- The square root of a value, for rounding to at most 64 digits: the root's digits with one further digit that tells
whether the root goes on, so that every rounding of it is the rounding of the exact root. none is invalid. -/
def XVal.sqrt (x : XVal) : Option XVal :=
  match x with
  | .nan => some .nan
  | .zero s => some (.zero s)
  | .inf true => none
  | .inf false => some (.inf false)
  | .fin true _ _ _ => none
  | .fin false n d e =>
    -- n / d × 2^e = v × 2^(2k) with v carrying more than 140 bits
    let n := n * d
    let odd := e % 2
    let v := n * 2 ^ (140 + odd.natAbs)
    let k := (e - odd - 140) / 2
    let r := isqrt v
    some (.fin false (2 * r + (if r * r = v then 0 else 1)) (2 * d) k)

/-- A value of an operation that may be invalid: an invalid operation gives NaN and FV (R174). -/
def roundResult (p : FParams) (x : Option XVal) (mode : Rm) : Nat × FpFlags :=
  match x with
  | none => (p.nan, { FpFlags.none with fv := true })
  | some v => roundF p v mode false 0

/-- Compare two values that are not NaN: −0 equals +0 (R214). -/
def XVal.lt (x y : XVal) : Bool :=
  match x, y with
  | .nan, _ => false
  | _, .nan => false
  | .inf s, .inf t => s && !t
  | .inf s, .zero _ => s
  | .inf s, .fin _ _ _ _ => s
  | .zero _, .inf t => !t
  | .fin _ _ _ _, .inf t => !t
  | .zero _, .zero _ => false
  | .zero _, .fin t _ _ _ => !t
  | .fin s _ _ _, .zero _ => s
  | .fin s a b e, .fin t c d f =>
    let q := min e f
    decide (scaledNum s a e q * d < scaledNum t c f q * b)

/-- Two values that are not NaN are equal. -/
def XVal.same (x y : XVal) : Bool := !x.isNan && !y.isNan && !x.lt y && !y.lt x

/-- round_F(x, RNE, SAT): the conversion of a subscription (R75). -/
def subscribeCode (f : Fmt) (x : XVal) : Nat := (roundF f.params x .rne true 0).1

end Sys2Proof.Machine
end

