-- ==== Sys2Proof/Machine/Accum.lean ====
section
/-!
DEFINITION. Machine/Accum.lean: exact accumulation: the K-sum, the matrix accumulator and the exact accumulator word
(R178 to R183).
-/
namespace Sys2Proof.Machine

/-- An accumulator element (R178): SPECIAL (0 finite, 1 +∞, 2 −∞, 3 NaN) and the mantissa. -/
structure AccElem where
  special : Nat
  m : Int
  deriving DecidableEq, Repr

/-- The element that 8 bytes hold (R178); bits [63:50], and M where SPECIAL is not 00, are not looked at (assumption 130). -/
def accDecode (x : Nat) : AccElem := ⟨bits x 49 48, signed 48 x⟩

/-- The 8 bytes of an element: bits [63:50] are zero. -/
def accEncode (a : AccElem) : Nat := a.special * 2 ^ 48 + (a.m % (2 ^ 48 : Nat)).toNat

/-- The element that is never produced: M = −2^47 with SPECIAL 00 (R178). -/
def accBad (x : Nat) : Bool := bits x 49 48 == 0 && x % 2 ^ 48 == 2 ^ 47

/-- The value of an element of a tile with exponent e (R178). -/
def accValue (a : AccElem) (e : Int) : XVal :=
  match a.special with
  | 0 => XVal.ofScaled a.m e
  | 1 => .inf false
  | 2 => .inf true
  | _ => .nan

/-- Add two K-sums of no special value, or join special ones (R179). -/
def ksumAdd (x y : XVal) : XVal :=
  match XVal.add false x y with
  | some v => v
  | none => .nan

/-- The exact K-sum of products (R179): NaN for a NaN operand, 0 × ∞ or two infinities of opposite signs. -/
def ksum : List (XVal × XVal) → XVal
  | [] => .zero false
  | (a, b) :: ps =>
    match XVal.mul a b with
    | none => .nan
    | some p => ksumAdd p (ksum ps)

/-- special_add (R180). -/
def specialAdd (sp : Nat) (x : XVal) : Nat :=
  let t := match x with | .nan => 3 | .inf false => 1 | .inf true => 2 | .zero _ => 0 | .fin _ _ _ _ => 0
  if sp = 3 ∨ t = 3 then 3
  else if sp = 0 then t
  else if t = 0 ∨ t = sp then sp
  else 3

/-- v / 2^k rounded by RNE to an integer, for a dyadic v (R180). -/
def rneUnits (v : XVal) (k : Int) : Int :=
  match v with
  | .fin neg n d e =>
    let (num, den) := inUnits n d e k
    let m := roundQuot neg num den .rne 0
    if neg then -(m : Int) else m
  | .nan | .inf _ | .zero _ => 0

/-- The largest mantissa. -/
def accMax : Int := 2 ^ 47 - 1

/-- The smallest σ at which an element's quotient by 2^(e + σ) fits: the quotient shrinks as σ grows, and at
floor(log2 |v|) − 46 − e it is below 2^47 unless it rounds up to it (R180). -/
def accShift (v : XVal) (e : Int) : Nat :=
  match v with
  | .fin _ n d x =>
    let s := max (floorLog2 n d + x - 46 - e) 0
    let q := rneUnits v (e + s)
    if (q.natAbs : Int) ≤ accMax then s.natAbs else s.natAbs + 1
  | .nan | .inf _ | .zero _ => 0

/-- Exact values put on a grid: the least σ at which every finite element fits, at most 32,767 − e, and each element
rounded once (R180); the flag tells that σ > 0. A pair is SPECIAL and the exact value. -/
def accGrid (parts : List (Nat × XVal)) (e : Int) : List AccElem × Int × Bool :=
  let want := parts.foldl (fun n (_, v) => max n (accShift v e)) 0
  let sg := min want (max (32767 - e) 0).natAbs
  let e' := e + sg
  let out := parts.map fun (sp, v) =>
    if sp ≠ 0 then (⟨sp, 0⟩ : AccElem)
    else
      let m := rneUnits v e'
      if accMax < (m.natAbs : Int) then ⟨if m < 0 then 2 else 1, 0⟩ else ⟨0, m⟩
  (out, e', decide (0 < sg))

/-- A special value: NaN or an infinity. -/
def XVal.isSpecial : XVal → Bool | .nan => true | .inf _ => true | .zero _ => false | .fin _ _ _ _ => false

/-- acc_add: what it makes of a tile: the elements, the exponent, and whether it renormalised (R180). -/
def accAdd (elems : List AccElem) (e : Int) (sums : List XVal) : List AccElem × Int × Bool :=
  accGrid ((elems.zip sums).map fun (a, x) =>
    if a.special ≠ 0 ∨ x.isSpecial then (specialAdd a.special x, XVal.zero false)
    else (0, ksumAdd (XVal.ofScaled a.m e) x)) e

/-- `mxnorm` to the target exponent t (R255): the elements, the new exponent, and whether it differs from t. -/
def accNorm (elems : List AccElem) (e t : Int) : List AccElem × Int × Bool :=
  accGrid (elems.map fun a => (a.special, if a.special = 0 then XVal.ofScaled a.m e else .zero false)) t

/-- The exponent from which `mxmz` starts an empty tile (R181). -/
def accStartExp (sums : List XVal) : Int :=
  let logs := sums.filterMap fun x =>
    match x with
    | .fin _ n d e => some (floorLog2 n d + e)
    | .nan | .inf _ | .zero _ => none
  match logs with
  | [] => 0
  | l :: ls => ls.foldl max l - 46

/-- eaw_add: a value added into an exact accumulator word of 128 bits (R182, R183). -/
def eawAdd (w : Nat) (x : XVal) : Nat :=
  match x with
  | .nan => w ||| 2 ^ 122
  | .inf _ => w ||| 2 ^ 123
  | .zero _ => w
  | .fin neg n d e =>
    let (num, den) := inUnits n d e (-56)
    let m := roundQuot neg num den .rne 0
    let q : Int := if neg then -(m : Int) else m
    let w := if num % den ≠ 0 then w ||| 2 ^ 120 else w
    let w := if q < -(2 ^ 119) ∨ 2 ^ 119 - 1 < q then w ||| 2 ^ 121 else w
    let sum := (((w % 2 ^ 120 : Nat) : Int) + q) % (2 ^ 120 : Nat)
    w / 2 ^ 120 * 2 ^ 120 + sum.toNat

end Sys2Proof.Machine
end

