-- ==== Sys2Proof/Machine/Cores.lean ====
section
/-!
DEFINITION. Machine/Cores.lean: cores, clusters and bricks by number, the windows of their memories (R28, R29), the
slots of the code partition (R91, R140), fetching an instruction (R142 to R144) and what follows when it leaves the
barrel.
-/
namespace Sys2Proof.Machine

/-! ## Numbers and accessors

A core has its device-wide number die × 4096 + cluster × 8 + core, a cluster die × 512 + cluster (R14, R28). -/

def clusterOfCore (core : Nat) : Nat := core / 8
def dieOfCluster (cl : Nat) : Nat := cl / 512

def State.core (s : State) (c : Nat) : CoreState := (Table.get? s.cores c).getD CoreState.reset
def State.setCore (s : State) (c : Nat) (x : CoreState) : State := { s with cores := Table.set s.cores c x }
def State.cluster (s : State) (c : Nat) : ClusterState := (Table.get? s.clusters c).getD ClusterState.reset
def State.setCluster (s : State) (c : Nat) (x : ClusterState) : State := { s with clusters := Table.set s.clusters c x }
def State.brick (s : State) (d : Nat) : Brick := s.bricks.get d
def State.setBrick (s : State) (d : Nat) (x : Brick) : State := { s with bricks := s.bricks.set d x }

/-- A brick is LIVE (R364): otherwise it takes no context, and its homes refuse what is not part of its reset (R370). -/
def State.dieLive (s : State) (die : Nat) : Bool := s.mortar.bricks.get die == .live

/-- A fresh free value and the state that has drawn it. -/
def State.draw (s : State) : BitVec 64 × State := (Config.freeValue s.draws, { s with draws := s.draws + 1 })

/-! ## Windows (R27 to R30) -/

def clmWindow : Nat := 0x00FE000000000000
def tspWindow : Nat := 0x00FD000000000000
def regWindow : Nat := 0x00FC000000000000

/-- Window address of byte 0 of a core's CLM (R28). -/
def clmBase (core : Nat) : Nat :=
  clmWindow + core / 4096 * 2 ^ 32 + core / 8 % 512 * 2 ^ 23 + core % 8 * 2 ^ 20

/-- Window address of byte 0 of a cluster's TSP (R29). -/
def tspBase (cl : Nat) : Nat := tspWindow + cl / 512 * 2 ^ 32 + cl % 512 * 2 ^ 23

/-- CLM and TSP sizes (R89, R98), and where the descriptor table begins. -/
def clmSize : Nat := 0x18000
def tspSize : Nat := 0x80000
def descTable : Nat := 0x78000

/-- Where a virtual address points (R27 to R30, R259). -/
inductive Target
  | paged
  | clm (core offset : Nat)
  | tsp (cluster offset : Nat)
  | reg (die offset : Nat)
  | hole
  deriving DecidableEq, Repr

/-- Decode an address of 56 bits (R27 to R30): the windows are aligned to 2^48 bytes. -/
def targetOf (a : Nat) : Target :=
  if a < regWindow then .paged
  else if a < tspWindow then
    (let o := a % 2 ^ 48
     if o < 4 * 2 ^ 32 then .reg (o / 2 ^ 32) (o % 2 ^ 32) else .hole)
  else if a < clmWindow then
    (let o := a % 2 ^ 48
     if o < 4 * 2 ^ 32 ∧ o % 2 ^ 23 < tspSize then .tsp (o / 2 ^ 32 * 512 + o % 2 ^ 32 / 2 ^ 23) (o % 2 ^ 23) else .hole)
  else if a < 0x00FF000000000000 then
    (let o := a % 2 ^ 48
     if o < 4 * 2 ^ 32 ∧ o % 2 ^ 20 < clmSize then
       .clm (o / 2 ^ 32 * 4096 + o % 2 ^ 32 / 2 ^ 23 * 8 + o % 2 ^ 23 / 2 ^ 20) (o % 2 ^ 20)
     else .hole)
  else .hole

/-! ## Overlay slots (R91, R140) -/

/-- The slot of a core that holds an overlay of a domain, EXECUTABLE or LOADING. -/
def findSlot (c : CoreState) (domain overlay : Nat) : Option Slot :=
  (c.slots.map (·.2)).find? fun x => x.domain == domain && x.overlay == overlay && x.state != .empty

/-- The EXECUTABLE slot of a core for an overlay of a domain. -/
def execSlot (c : CoreState) (domain overlay : Nat) : Option Slot :=
  (findSlot c domain overlay).filter fun x => x.state == .executable

/-- Window address of a slot's first byte. -/
def slotBase (core : Nat) (x : Slot) : Nat := clmBase core + x.first * 0x4000

/-- The header word of the line that holds offset o of a slot. -/
def lineHeader (s : State) (base o : Nat) : Nat := memNat s.mem (base + o / 64 * 64) 4

/-- A header is valid (R142): CODE 1, [31:16] zero, LITMASK bit 1 clear, no two adjacent LITMASK bits. -/
def headerValid (h : Nat) : Bool :=
  h % 2 == 1 && h / 2 ^ 16 == 0 && !bit h 1 && (h / 2 &&& h / 4) % 2 ^ 15 == 0

/-- Word i of a line is a literal (R142). -/
def litBit (h i : Nat) : Bool := decide (0 < i) && decide (i < 16) && bit h i

/-- The sum n of R144 for an instruction at offset o. -/
def nextOffset (o : Nat) (lit : Bool) : Nat :=
  let n := if lit then o + 8 else o + 4
  if n % 64 = 0 then n + 4 else n

/-- What a fetch finds (R91, R142 to R144); `poisoned` with the address of a poisoned unit of the image (R341). -/
inductive Fetched
  | bounds
  | badEncoding (w : BitVec 32)
  | poisoned (a : Nat)
  | instr (i : Instr) (w : BitVec 32) (next : Nat)
  deriving Repr

/-- The bounds fault of a fetch: the PC lies beyond LENGTH, the sum n reached 65,536, or the PC names a header or a
literal (R144). DEDUCED: only a valid header says which words of its line are literals (R142). -/
def fetchBounds (s : State) (base len o : Nat) (overran : Bool) : Bool :=
  overran || decide (len ≤ o) || o % 64 == 0 ||
    (headerValid (lineHeader s base o) && litBit (lineHeader s base o) (o % 64 / 4))

/-- The literal pairing of R143 is broken. -/
def pairingBad (h i : Nat) (takes : Bool) : Bool :=
  if takes then i == 15 || !litBit h (i + 1) else i != 15 && litBit h (i + 1)

end Sys2Proof.Machine
end

