-- ==== Sys2Proof/Machine/Fetch.lean ====
section
/-!
DEFINITION. Machine/Fetch.lean: a context of a context L1 takes the barrel, its instruction is fetched and decoded
(R142 to R144, R153), and what follows when the instruction leaves the barrel.
-/
namespace Sys2Proof.Machine

noncomputable section

/-- Fetch and decode the instruction at a PC of an EXECUTABLE slot (R142 to R144, R153); its 64 bytes may be poisoned (R341,
assumption 121). -/
def fetchWord (s : State) (base len o : Nat) (overran : Bool) : Fetched :=
  let w := BitVec.ofNat 32 (memNat s.mem (base + o) 4)
  let h := lineHeader s base o
  if s.isPoisoned (base + o) && !overran && decide (o < len) && o % 64 != 0 then .poisoned (base + o)
  else if fetchBounds s base len o overran then .bounds
  else if !headerValid h || pairingBad h (o % 64 / 4) (takesLiteral w.toNat) then .badEncoding w
  else
    match decodeWords w (BitVec.ofNat 32 (memNat s.mem (base + o + 4) 4)) with
    | .error _ => .badEncoding w
    | .ok i => .instr i w (nextOffset o (takesLiteral w.toNat))

end

/-- The context in the barrel before its instruction is known. -/
def barrelOf (core entry : Nat) (h : Held) (x : Slot) (w : BitVec 32) (next : Nat) : Barrel :=
  { core := core, entry := entry, held := h, image := slotBase core x, length := x.length, constWords := x.constWords,
    word := w, next := next }

/-- The line of a context in an entry is eligible to issue: RESIDENT, not draining, and not kept by the head of the buffer (R129). -/
def L1Entry.issuable : L1Entry → Option Held
  | .held h => if h.line.inState .resident && !h.draining && h.kept.isNone then some h else none
  | .claiming _ | .victim _ _ | .gang _ _ | .gangVictim _ _ _ => none

/-- The held context of an entry, whatever waits for the entry. -/
def L1Entry.ctx? : L1Entry → Option Held
  | .held h => some h
  | .victim h _ => some h
  | .gangVictim h _ _ => some h
  | .claiming _ | .gang _ _ => none

/-- The same entry with its context replaced. -/
def L1Entry.withCtx (e : L1Entry) (h : Held) : L1Entry :=
  match e with
  | .held _ => .held h
  | .victim _ n => .victim h n
  | .gangVictim _ t m => .gangVictim h t m
  | .claiming v => .claiming v
  | .gang t m => .gang t m

/-- Put a context back into its entry. -/
def State.putHeld (s : State) (core entry : Nat) (h : Held) : State :=
  let c := s.core core
  match Table.get? c.entries entry with
  | some e => s.setCore core { c with entries := Table.set c.entries entry (e.withCtx h) }
  | none => s.setCore core { c with entries := Table.set c.entries entry (.held h) }

/-- The instruction leaves the barrel: the line goes back to its entry. A context that has parked keeps the cycle of its
park; one that is FAULTED, HALTED or FREE leaves its context L1 by an eviction (R120, R339). -/
def State.retire (s : State) : State :=
  match s.barrel with
  | none => s
  | some b =>
    let l := b.held.line
    let h : Held :=
      if l.inState .wait then { b.held with parkedAt := s.cycle, popped := none }
      else if l.inState .resident then { b.held with fenced := none, popped := none }
      else { b.held with draining := true, popped := none,
                         ending := if l.inState .free then .freed else if l.inState .ready then .toReady else .kept }
    { s with barrel := none }.putHeld b.core b.entry h

end Sys2Proof.Machine
end

