-- ==== Sys2Proof/Machine/Places.lean ====
section
/-!
DEFINITION. Machine/Places.lean: the physical map and the homes of lines (R16 to R20), coherent reads and writes of
physical memory, the hashed page table and the checks of an entry (R22 to R25, R43 to R45), the rights lists and the PLB
(R36 to R39), partitions (R56).
-/
namespace Sys2Proof.Machine

/-! ## The physical map (R16) -/

/-- HS: each stack's share of the hashed region in bytes (R16, R17). -/
def State.hs (s : State) : Nat := 2 ^ 30 * (s.regs.hashedSize.toNat % 64)

def stackBytes : Nat := 48 * 2 ^ 30

/-- The ranges of R16. -/
inductive Range
  | hashed
  | die (d : Nat)
  | hostCoherent
  | hostUncached
  | peer
  | hole
  deriving DecidableEq, Repr

/-- The range of a physical address where each stack gives hs bytes to the hashed region (R16). -/
def rangeAt (hs pa : Nat) : Range :=
  if pa < 12 * hs then .hashed
  else if pa < 0x010000000000 then .hole
  else if pa < 0x020000000000 then
    (if pa % 0x004000000000 < 3 * (stackBytes - hs) then .die (pa % 0x010000000000 / 0x004000000000) else .hole)
  else if pa < 0x400000000000 then .hole
  else if pa < 0x800000000000 then .hostCoherent
  else if pa < 0xC00000000000 then .hostUncached
  else if pa < 0x1000000000000 then .peer
  else .hole

/-- The range that holds a physical address. -/
def State.rangeOf (s : State) (pa : Nat) : Range := rangeAt s.hs pa

/-- The stack of a line and its place in the stack (R18, R19). -/
def State.stackOf (s : State) (pa : Nat) : Nat × Nat :=
  match s.rangeOf pa with
  | .die d =>
    let l := pa % 0x004000000000 / 256
    let g := l / 3
    (3 * d + (l % 3 + xorGroups 4 10 g % 3) % 3, s.hs + g * 256 + pa % 256)
  | .hashed | .hostCoherent | .hostUncached | .peer | .hole =>
    let l := pa / 256
    let g := l / 12
    ((l % 12 + xorGroups 4 10 g % 12) % 12, g * 256 + pa % 256)

/-- The brick of a line's home (R15, R16). -/
def State.homeDie (s : State) (pa : Nat) : Nat := (s.stackOf pa).1 / 3

/-- The home L2 slice: the XOR of the 6-bit groups PA[13:8] up to PA[47:44] (R20). -/
def homeSlice (pa : Nat) : Nat := xorGroups 6 7 (pa / 256)

/-- The caching slice: the XOR of the eight 6-bit groups VA[13:8] up to VA[55:50] (R62). -/
def cachingSlice (va : Nat) : Nat := xorGroups 6 8 (va / 256)

/-- A range whose lines have a home slice on the device. -/
def Range.onDevice : Range → Bool
  | .hashed | .die _ => true
  | .hostCoherent | .hostUncached | .peer | .hole => false

/-- The line has a home slice on the device. -/
def State.onDevice (s : State) (pa : Nat) : Bool := (s.rangeOf pa).onDevice

/-! ## Coherent physical reads and writes -/

/-- The 64 bytes of a sector in memory. -/
def memSector (m : List Host.Cell) (pa : Nat) : BitVec 512 := BitVec.ofNat 512 (memNat m (pa / 64 * 64) 64)

/-- A brick that may hold a sector dirty: E or M (R63). -/
def BrickState.owns : BrickState → Bool
  | .e | .m => true
  | .i | .s | .sub => false

def SecCopy.dirty (c : SecCopy) : Bool := c.st == .m

/-- The clusters of a brick whose data L1 has a line. -/
def State.l1Holders (s : State) (brick vaLine : Nat) : List (Nat × L1Line) :=
  s.clusters.filterMap fun (c, x) =>
    if dieOfCluster c = brick then (Table.get? x.l1d vaLine).map fun l => (c, l) else none

/-- The dirty data of a sector inside a brick, if it has any: a data L1 in M before the L2 slice in M. -/
def State.brickDirty (s : State) (brick vaLine k : Nat) : Option (BitVec 512) :=
  match (s.l1Holders brick vaLine).find? fun (_, l) => (l.sectors.get k).dirty with
  | some (_, l) => some (l.sectors.get k).data
  | none =>
    match Table.get? (s.l2.get brick) vaLine with
    | some l => if (l.sectors.get k).dirty then some (l.sectors.get k).data else none
    | none => none

/-- The directory entry of a physical line: the home directory or, for host memory, the device coherence agent's. -/
def State.dirOf (s : State) (pa : Nat) : Option DirEntry :=
  if s.onDevice pa then Table.get? s.dir (pa / 256) else Table.get? s.dca (pa / 256)

/-- The dirty data of a sector that a write-back carries to its home. -/
def State.noticeData (s : State) (pa : Nat) : Option (BitVec 512) :=
  s.reqs.findSome? fun r => match r.op, r.phase with
    | .notice d, .home p _ _ => if p / 256 = pa / 256 then d.get (pa / 64 % 4) else none
    | _, _ => none

/-- The dirty data of a sector, if a cache of the brick that owns it holds some or a write-back carries it home. -/
def State.cohDirty (s : State) (pa : Nat) : Option (BitVec 512) :=
  let k := pa / 64 % 4
  match s.dirOf pa with
  | none => none
  | some e =>
    match ([0, 1, 2, 3].filterMap fun b =>
        if ((e.sectors.get k).bricks.get b).owns then s.brickDirty b e.vaLine k else none) with
    | d :: _ => some d
    | [] => s.noticeData pa

/-- The current value of a byte: that of the dirty copy of its sector, else memory's. -/
def State.cohByte (s : State) (pa : Nat) : Byte :=
  match s.cohDirty pa with
  | some d => BitVec.ofNat 8 (d.toNat / 2 ^ (8 * (pa % 64)))
  | none => memByte s.mem pa

/-- The current value of n bytes from pa up, across sectors. -/
def State.cohBytes (s : State) : Nat → Nat → List Byte
  | _, 0 => []
  | pa, n + 1 => s.cohByte pa :: State.cohBytes s (pa + 1) n

def State.cohWide (s : State) (pa n : Nat) : Nat := ofBytes (s.cohBytes pa n)

/-- Insert a number into a rising list. -/
def insertNat (n : Nat) : List Nat → List Nat
  | [] => [n]
  | x :: xs => if n = x then x :: xs else if n < x then n :: x :: xs else x :: insertNat n xs

def State.poisonUnit (s : State) (a : Nat) : State := { s with poison := insertNat (a / 64 * 64) s.poison }

/-! ## The context pool (R113) -/

def State.poolBase (s : State) : Nat := s.regs.ctxPoolBase.toNat % 2 ^ 56
def State.poolCount (s : State) : Nat := s.regs.ctxPoolCount.toNat % 2 ^ 30

/-- The pool holds an address. -/
def State.inPool (s : State) (va : Nat) : Bool :=
  decide (s.poolBase ≤ va) && decide (va < s.poolBase + 128 * s.poolCount)

/-! ## Circuits between bricks (R33, R34, R365) -/

/-- An entry of the connection table is a circuit between two bricks that is up. -/
def ctJoins (e a b : Nat) : Bool :=
  bit e 63 && bits e 62 61 == 2 && !bit e 15 &&
    ((bits e 5 4 == a && bits e 11 10 == b) || (bits e 5 4 == b && bits e 11 10 == a))

/-- The circuits of a pair of bricks in increasing entry index (R365); one that failed its tuning carries nothing (R367). -/
def State.circuits (s : State) (a b : Nat) : List Nat :=
  (List.range 64).filter fun n => ctJoins ((Table.get? s.mortar.active n).getD 0#64).toNat a b

/-- The circuit that carries the messages about a line between two bricks (R33): none inside one brick, or where the pair has
none that is up. -/
def State.circuitOf (s : State) (a b pa : Nat) : Option Nat :=
  if a = b then none
  else match s.circuits a b with
    | [] => none
    | cs => cs[bits pa 15 8 % cs.length]?

/-- A pair of bricks in a fixed order. -/
def brickPair (a b : Nat) : Nat × Nat := (min a b, max a b)

/-- The messages between two bricks can be sent now: the pair has a circuit, and no commit is changing its set (R33, R367). -/
def State.pairOpen (s : State) (a b pa : Nat) : Bool :=
  a == b || ((s.circuitOf a b pa).isSome && !s.mortar.holding.contains (brickPair a b))

/-- Messages about a line can pass between a brick and the line's home: over a circuit of the pair, inside one brick without one, and
to the host over the brick's own UCIe modules (R33, R34). -/
def State.lineOpen (s : State) (die pa : Nat) : Bool := !s.onDevice pa || s.pairOpen die (s.homeDie pa) pa

/-! ## The page table (R43 to R45) -/

/-- h of R44: the XOR of the groups of NB bits. -/
def pageHash (nb : Nat) (key : Nat) : Nat := xorGroups nb 41 key

/-- The physical address of the bucket of a virtual address at a size (R44), in the table that PT_BASE and PT_LOG2B name now, also
before the `tlbi` that R42 asks for after a write of them (assumption 104). -/
def State.bucketOf (s : State) (v sz : Nat) : Nat :=
  let nb := s.regs.ptLog2b.toNat % 32
  let vpn := if sz = 0 then v / 2 ^ 16 % 2 ^ 40 else v / 2 ^ 25 % 2 ^ 31
  s.regs.ptBase.toNat % 2 ^ 48 + pageHash nb (vpn ^^^ (sz * 2 ^ 39)) * 256

/-- The entry matches the address at a size (R44); VTAG[24:16] of a 32 MiB entry is not compared (assumption 105). -/
def pteMatches (e v sz : Nat) : Bool :=
  bit e 0 && bits e 1 1 == sz &&
    (if sz = 0 then bits e 55 16 == v / 2 ^ 16 % 2 ^ 40 else bits e 55 25 == v / 2 ^ 25 % 2 ^ 31)

/-- The lookup of R44; none is NOT_PRESENT. While PT_LOG2B is 0 no memory is read (R375). -/
def State.ptLookup (s : State) (v : Nat) : Option Nat :=
  if s.regs.ptLog2b.toNat % 32 = 0 then none
  else
    let look := fun sz =>
      ((List.range 8).map fun i => s.cohWide (s.bucketOf v sz + 32 * i) 32).find? fun e => pteMatches e v sz
    match look 0 with
    | some e => some e
    | none => look 1

/-- The address that a valid entry gives. -/
def pteAddr (e v : Nat) : Nat :=
  bits e 111 64 + (if bit e 1 then v % 2 ^ 25 else v % 2 ^ 16)

def pteWr (e : Nat) : Bool := bit e 145
def pteMaster (e : Nat) : Nat := bits e 147 146
def pteHoming (e : Nat) : Nat := bits e 151 150
def pteFrame (e : Nat) : Nat := bits e 111 64
def pteSizeLog2 (e : Nat) : Nat := if bit e 1 then 25 else 16

/-- The checks of R45. -/
def State.pteValid (s : State) (e : Nat) : Bool :=
  bits e 255 248 == 0 && bits e 191 152 == 0 && bits e 144 112 == 0 && bits e 63 56 == 0 && bits e 15 2 == 0 &&
    pteHoming e != 3 && (pteHoming e == 1 || bits e 149 148 == 0) && (pteHoming e == 2 || bits e 247 192 == 0) &&
    pteFrame e % 2 ^ pteSizeLog2 e == 0 && s.rangeOf (pteFrame e) != .hole

/-- A layout record is valid (R25). -/
def layoutValid (r : Nat) : Bool :=
  let esize := 2 ^ bits r 167 166
  let trows := bits r 79 64
  let tcols := bits r 95 80
  let pitch := bits r 127 96
  bit r 191 && bits r 511 192 == 0 && bits r 190 184 == 0 && bits r 175 170 == 0 && bits r 63 56 == 0 &&
    trows != 0 && tcols != 0 && bits r 159 144 != 0 && bits r 143 128 != 0 &&
    pitch % 64 == 0 && decide (tcols * esize ≤ pitch) && trows * pitch % 65536 == 0 && bits r 15 0 == 0 &&
    (match Fmt.ofCode? (bits r 165 160) with | some f => f.size == esize | none => false)

/-- The die of a virtual address under a valid record; none is LAYOUT_RANGE (R24). -/
def layoutDie (r v : Nat) : Option Nat :=
  let base := bits r 55 0
  let tileBytes := bits r 79 64 * bits r 127 96
  let nti := bits r 159 144
  let ntj := bits r 143 128
  let gr := bits r 168 168 + 1
  let gc := bits r 169 169 + 1
  if v < base then none
  else
    let t := (v - base) / tileBytes
    if nti * ntj ≤ t then none
    else some (bits r (177 + 2 * (2 * (t / ntj % gr) + t % ntj % gc)) (176 + 2 * (2 * (t / ntj % gr) + t % ntj % gc)))

/-- The page-fault causes of R50. -/
def causeNotPresent : Nat := 1
def causeWrite : Nat := 2
def causeHoming : Nat := 3
def causeLayout : Nat := 4
def causeLayoutRange : Nat := 5
def causeEntry : Nat := 6

/-- The 64 bytes of the layout record of an entry, read from LAYOUT_VA as it stands through a page that is mapped by a valid entry
and not TILED itself; none is LAYOUT_INVALID (assumptions 12 and 97). -/
def State.layoutRecord (s : State) (e : Nat) : Option Nat :=
  match s.ptLookup (bits e 247 192) with
  | none => none
  | some le => if s.pteValid le && pteHoming le != 2 then some (s.cohWide (pteAddr le (bits e 247 192)) 64) else none

/-- The installation checks of an entry for an address: the derived die of a TILED page (0 otherwise) or the cause of
the page fault (R21, R22, R25, R45); an entry that fails R45 has cause ENTRY_INVALID whatever else it fails (assumption 106). -/
def State.checkEntry (s : State) (e v : Nat) : Except Nat Nat :=
  if !s.pteValid e then .error causeEntry
  else match pteHoming e with
    | 0 =>
      match s.rangeOf (pteFrame e) with
      | .hashed | .hostCoherent | .hostUncached | .peer => .ok 0
      | .die _ | .hole => .error causeHoming
    | 1 =>
      if s.rangeOf (pteFrame e) = .die (bits e 149 148) then .ok 0 else .error causeHoming
    | _ =>
      match s.layoutRecord e with
      | none => .error causeLayout
      | some r =>
        if !layoutValid r || (bit e 1 && (bits r 79 64 * bits r 127 96 % 2 ^ 25 != 0 || bits r 24 0 != 0)) then
          .error causeLayout
        else match layoutDie r v with
          | none => .error causeLayoutRange
          | some d => if s.rangeOf (pteFrame e) = .die d then .ok d else .error causeHoming

/-- A cached translation of a brick that covers an address; a 64 KiB entry before a 32 MiB one (R46, R48). -/
def State.tlbLookup (s : State) (die v : Nat) : Option TlbEntry :=
  let es := (s.brick die).tlb.map (·.2)
  match es.find? fun t => pteMatches t.entry.toNat v 0 with
  | some t => some t
  | none => es.find? fun t => pteMatches t.entry.toNat v 1

/-- Translate an address at a brick: the entry, or the cause of a page fault; a found entry passes the installation
checks or is already cached. -/
def State.translate (s : State) (die v : Nat) (write : Bool) : Except Nat Nat :=
  match s.tlbLookup die v with
  | some t => if write && !pteWr t.entry.toNat then .error causeWrite else .ok t.entry.toNat
  | none =>
    match s.ptLookup v with
    | none => .error causeNotPresent
    | some e =>
      match s.checkEntry e v with
      | .error c => .error c
      | .ok _ => if write && !pteWr e then .error causeWrite else .ok e

/-- The physical address of a mapped virtual address, as a hardware access of a brick finds it. -/
def State.physOf (s : State) (die v : Nat) : Option Nat :=
  match s.translate die v false with
  | .ok e => some (pteAddr e v)
  | .error _ => none

/-! ## Rights (R36 to R39) -/

/-- The rights that an access needs (R36). -/
structure Rights where
  r : Bool
  w : Bool
  a : Bool
  s : Bool
  x : Bool
  deriving DecidableEq, Repr

def rightsR : Rights := ⟨true, false, false, false, false⟩
def rightsW : Rights := ⟨false, true, false, false, false⟩
def rightsRW : Rights := ⟨true, true, false, false, false⟩
def rightsRWA : Rights := ⟨true, true, true, false, false⟩
def rightsRS : Rights := ⟨true, false, false, true, false⟩
def rightsX : Rights := ⟨false, false, false, false, true⟩

/-- A rights entry covers an address (R37); its LOG2SIZE and BASE are used as they stand (assumption 99). -/
def rightsCover (e v : Nat) : Bool :=
  let n := bits e 103 98
  decide (v / 2 ^ n = bits e 55 0 / 2 ^ n)

/-- A rights entry allows an access (R37). -/
def rightsAllow (e : Nat) (n : Rights) : Bool :=
  (!n.r || bit e 64) && (!n.w || bit e 65) && (!n.x || bit e 66) && (!n.a || bit e 67) && (!n.s || bit e 68)

/-- A reserved field of a list entry is non-zero (R37). -/
def rightsReserved (e : Nat) : Bool := bits e 127 104 != 0 || bits e 97 69 != 0 || bits e 63 56 != 0

/-- The domain's rights descriptor; none where the table does not exist yet (R38, R375). -/
def State.rightsDesc (s : State) (domain : Nat) : Option Nat :=
  if s.regs.drtWritten then some (s.cohWide (s.regs.drtBase.toNat % 2 ^ 48 + 32 * domain) 32) else none

/-- The descriptor is valid (R38): VALID, a partition of 0 to 63, reserved fields zero; that an RLIST_COUNT above 4,096 or an RLIST_PA
that is not 16-byte aligned makes it invalid is the model's choice (assumption 127). -/
def descValid (d : Nat) : Bool :=
  bit d 8 && decide (bits d 7 0 < 64) && bits d 255 176 == 0 && bits d 159 112 == 0 && bits d 63 9 == 0 &&
    decide (bits d 175 160 ≤ 4096) && bits d 67 64 == 0

/-- The first list entry that covers the address (R39). -/
def State.listEntry (s : State) (d v : Nat) : Option Nat :=
  ((List.range (bits d 175 160)).map fun i => s.cohWide (bits d 111 64 + 16 * i) 16).find? fun e => rightsCover e v

/-- The entry that a PLB refill takes for a domain of a partition; none makes the access a protection violation (R39). -/
def State.refillEntry (s : State) (domain part v : Nat) : Option Nat :=
  match s.rightsDesc domain with
  | none => none
  | some d =>
    if !descValid d || bits d 7 0 != part then none
    else match s.listEntry d v with
      | none => none
      | some e => if rightsReserved e then none else some (e + domain * 2 ^ 112)

/-- The PLB entry of a core that matches a domain and an address (R39). -/
def plbLookup (c : CoreState) (domain v : Nat) : Option Nat :=
  ((c.plb.map (·.2)).find? fun e => bits e.toNat 127 112 == domain && rightsCover e.toNat v).map BitVec.toNat

/-- The outcome of a rights check at a core. -/
inductive RightsOutcome | ok | violation | denied | miss
  deriving DecidableEq, Repr

/-- A core has found no usable entry for an access of a context (R39). -/
def CoreState.isDenied (c : CoreState) (ctx domain v : Nat) : Bool :=
  c.denied.any fun d => d.ctx == ctx && d.domain == domain && d.va == v

/-- Check an access of a context at a core (R36, R39). A refill that found no usable entry has left the context and the
address in the core's list, and the reissued access takes the violation, whatever the PLB holds by then. -/
def State.checkRights (s : State) (core ctx domain v : Nat) (n : Rights) : RightsOutcome :=
  if (s.core core).isDenied ctx domain v then .denied
  else match plbLookup (s.core core) domain v with
    | some e => if rightsAllow e n then .ok else .violation
    | none => .miss

/-- The reissued access has taken the violation: what the refill found is used up. -/
def CoreState.useDenied (c : CoreState) (ctx v : Nat) : CoreState :=
  { c with denied := c.denied.filter fun d => !(d.ctx == ctx && d.va == v) }

/-- A context leaves a core: what its refills found there is forgotten with it. -/
def CoreState.forget (c : CoreState) (ctx : Nat) : CoreState := { c with denied := c.denied.filter fun d => d.ctx != ctx }

/-- Rights of a domain on an address as the rights lists stand, for a check made away from a core (R222, R362). -/
def State.listRights (s : State) (domain part v : Nat) (n : Rights) : Bool :=
  match s.refillEntry domain part v with
  | some e => rightsAllow e n
  | none => false

/-! ## Partitions (R56, R57) -/

/-- A rectangle holds a cluster of its brick. -/
def rectHolds (r : Nat) (cl : Nat) : Bool :=
  let x := cl % 512 % 32
  let y := cl % 512 / 32
  bit r 31 && decide (bits r 4 0 ≤ x) && decide (x ≤ bits r 12 8) && decide (bits r 19 16 ≤ y) &&
    decide (y ≤ bits r 27 24)

/-- A cluster's router accepts messages of a partition (R57). -/
def State.inPartition (s : State) (part cl : Nat) : Bool :=
  match Table.get? (s.brick (dieOfCluster cl)).rects part with
  | some r => rectHolds r.toNat cl
  | none => false

/-- The partition has a rectangle on a brick. -/
def State.partOnBrick (s : State) (part die : Nat) : Bool :=
  match Table.get? (s.brick die).rects part with
  | some r => bit r.toNat 31
  | none => false

end Sys2Proof.Machine
end

