-- ==== Sys2Proof/Machine/Random.lean ====
section
/-!
DEFINITION. Machine/Random.lean: the counter-based random numbers (R175, R176) and `rand` and `randf` (R202).
-/
namespace Sys2Proof.Machine

def randM : Nat := 0x9C3A71E5B64D0F29
def randK : List Nat := [0x1D8E4E27C47D124F, 0x7A645E3B90C2D855, 0xC3F10B962E7A51D3, 0x5B27E8D0A46C3F19]

def rotl64 (v n : Nat) : Nat := (v * 2 ^ n % 2 ^ 64) + v / 2 ^ (64 - n)

/-- One round of rand_h (R175). -/
def randRound (z k : Nat) : Nat :=
  let z := (z + k) % 2 ^ 64
  let z := z ^^^ (z / 2 ^ 32)
  let z := z * randM % 2 ^ 64
  z ^^^ (z / 2 ^ 29)

/-- rand_h(key, counter) (R175). -/
def randH (key counter : Nat) : Nat := randK.foldl randRound (counter ^^^ rotl64 key 17) ^^^ key

/-- The binary32 code of n × 2^−24, for n below 2^24: exact (R176). -/
def randfOf (n : Nat) : Nat :=
  if n = 0 then 0
  else
    let e := Nat.log2 n
    (127 + e - 24) * 2 ^ 23 + (n * 2 ^ (23 - e) - 2 ^ 23)

def opRand (g : Guard) (d a : Reg) (t : Tail) (z : Bool) (s : State) : Result :=
  writeReg g t z d s fun l v => BitVec.ofNat 64 (randH (l.reg a).toNat v.toNat)

def opRandf (g : Guard) (d a : Reg) (t : Tail) (z : Bool) (s : State) : Result :=
  writeReg g t z d s fun l v => BitVec.ofNat 64 (randfOf (bits (randH (l.reg a).toNat v.toNat) 63 40))

/-! One definition for every constructor. -/

def execRand (g : Guard) (d a b : Reg) (z : Bool) (s : State) : Result :=
  opRand g d a (.reg b) z s
def execRandRL (g : Guard) (d a : Reg) (z : Bool) (lit : BitVec 32) (s : State) : Result :=
  opRand g d a (.lit lit) z s
def execRandRK (g : Guard) (d a : Reg) (z : Bool) (k : BitVec 8) (s : State) : Result :=
  opRand g d a (.const k) z s
def execRandRI (g : Guard) (d a : Reg) (imm : BitVec 13) (s : State) : Result :=
  opRand g d a (.imm imm) false s
def execRandf (g : Guard) (d a b : Reg) (z : Bool) (s : State) : Result :=
  opRandf g d a (.reg b) z s
def execRandfRL (g : Guard) (d a : Reg) (z : Bool) (lit : BitVec 32) (s : State) : Result :=
  opRandf g d a (.lit lit) z s
def execRandfRK (g : Guard) (d a : Reg) (z : Bool) (k : BitVec 8) (s : State) : Result :=
  opRandf g d a (.const k) z s
def execRandfRI (g : Guard) (d a : Reg) (imm : BitVec 13) (s : State) : Result :=
  opRandf g d a (.imm imm) false s

end Sys2Proof.Machine
end

