-- ==== Sys2Proof/Machine/Float.lean ====
section
/-!
DEFINITION. Machine/Float.lean: the scalar floating-point instructions, `vfma`, the conversions and `xcvt` (R209 to
R220).
-/
namespace Sys2Proof.Machine

/-- The register bits of a code of f: the result is written zero-extended (R209). -/
def fcode (n : Nat) : Word64 := BitVec.ofNat 64 n

/-- The low bits of a register that hold an operand of format f (R209). -/
def floatOf (f : FFmt) (x : Word64) : XVal := decodeFloat f.fmt.params x.toNat

/-- The code of a tail operand in format f: under f32 and the 16-bit formats the low bits, under f64 a 32-bit literal or
constant read as binary32 and converted exactly (R209). -/
def Tail.floatCode (t : Tail) (s : State) (b : Barrel) (f : FFmt) : Nat :=
  match t.raw? s b with
  | some v =>
    if f = .f64 then (roundF Fmt.f64.params (decodeFloat Fmt.f32.params v.toNat) .rne false 0).1 else v.toNat
  | none => (t.value s b false).toNat

def Tail.float (t : Tail) (s : State) (b : Barrel) (f : FFmt) : XVal := decodeFloat f.fmt.params (t.floatCode s b f)

/-- Write a rounded result and its flags, and complete. -/
def State.completeFloat (s : State) (b : Barrel) (d : Reg) (r : Nat × FpFlags) : State :=
  s.complete b ((b.held.line.setReg d (fcode r.1)).raise r.2)

/-- The shape of a two-source arithmetic instruction (R210): one rounding of the exact result. -/
def floatOp (x : Rm → XVal → XVal → Option XVal) (g : Guard) (d a : Reg) (t : Tail) (r : Rm) (f : FFmt) (s : State) :
    Result :=
  issue g t s fun b =>
    .next (s.completeFloat b d
      (roundResult f.fmt.params (x r (floatOf f (b.held.line.reg a)) (t.float s b f)) r))

def opFadd := floatOp fun r x y => XVal.add (r == .rdn) x y
def opFsub := floatOp fun r x y => XVal.add (r == .rdn) x y.neg
def opFmul := floatOp fun _ x y => XVal.mul x y

/-- `fdiv` sets FZ when a finite non-zero value is divided by zero (R174). -/
def opFdiv (g : Guard) (d a : Reg) (t : Tail) (r : Rm) (f : FFmt) (s : State) : Result :=
  issue g t s fun b =>
    let (q, byZero) := XVal.div (floatOf f (b.held.line.reg a)) (t.float s b f)
    let (c, fl) := roundResult f.fmt.params q r
    .next (s.completeFloat b d (c, { fl with fz := byZero }))

/-- x × y + z, with an invalid product invalid whatever z is (R174). -/
def fmaExact (r : Rm) (x y z : XVal) : Option XVal :=
  match XVal.mul x y with
  | none => none
  | some p => XVal.add (r == .rdn) p z

def opFma (g : Guard) (d a b : Reg) (t : Tail) (r : Rm) (f : FFmt) (s : State) : Result :=
  issue g t s fun br =>
    let l := br.held.line
    .next (s.completeFloat br d (roundResult f.fmt.params
      (fmaExact r (floatOf f (l.reg a)) (floatOf f (l.reg b)) (t.float s br f)) r))

def opFsqrt (g : Guard) (d a : Reg) (r : Rm) (f : FFmt) (s : State) : Result :=
  issue0 g s fun b =>
    .next (s.completeFloat b d (roundResult f.fmt.params (floatOf f (b.held.line.reg a)).sqrt r))

/-- `fmai`: d := round_f32(d × a + x, RNE); it has no guard (R211). -/
def opFmai (d a : Reg) (imm : BitVec 20) (s : State) : Result :=
  withBarrel s fun b =>
    let l := b.held.line
    let x := decodeFloat Fmt.f32.params (imm.toNat * 2 ^ 12)
    .next (s.completeFloat b d (roundResult Fmt.f32.params
      (fmaExact .rne (floatOf .f32 (l.reg d)) (floatOf .f32 (l.reg a)) x) .rne))

/-- x is the smaller of two values that are not NaN, with −0 ordered below +0 (R212). -/
def lessOrdered (x y : XVal) : Bool := x.lt y || (x.same y && x.isNeg && !y.isNeg)

/-- `fmin` and `fmax`: the encoding of one operand; a lone NaN gives the other operand (R212). -/
def minMaxCode (isMin : Bool) (f : FFmt) (x y : Nat) : Nat :=
  let p := f.fmt.params
  let vx := decodeFloat p x
  let vy := decodeFloat p y
  if vx.isNan && vy.isNan then p.nan
  else if vx.isNan then y % 2 ^ p.size
  else if vy.isNan then x % 2 ^ p.size
  else if lessOrdered vx vy == isMin then x % 2 ^ p.size else y % 2 ^ p.size

def floatMinMax (isMin : Bool) (g : Guard) (d a : Reg) (t : Tail) (f : FFmt) (s : State) : Result :=
  issue g t s fun b =>
    .next (s.complete b (b.held.line.setReg d
      (fcode (minMaxCode isMin f (b.held.line.reg a).toNat (t.floatCode s b f)))))

def opFmin := floatMinMax true
def opFmax := floatMinMax false

/-- `fabs` and `fneg` act on the sign; a NaN gives the format's NaN code (R213). -/
def signOp (neg : Bool) (f : FFmt) (x : Nat) : Nat :=
  let p := f.fmt.params
  let c := x % 2 ^ p.size
  let m := c % 2 ^ (p.size - 1)
  if (decodeFloat p c).isNan then p.nan
  else if neg then (if c = m then c + 2 ^ (p.size - 1) else m) else m

def opFabs (g : Guard) (d a : Reg) (f : FFmt) (s : State) : Result :=
  writeReg0 g d s fun l => fcode (signOp false f (l.reg a).toNat)
def opFneg (g : Guard) (d a : Reg) (f : FFmt) (s : State) : Result :=
  writeReg0 g d s fun l => fcode (signOp true f (l.reg a).toNat)

/-- A condition of `fcmp` (R214). -/
def fcondHolds (n : FCond) (x y : XVal) : Bool :=
  match n with
  | .eq => x.same y
  | .ne => !x.same y
  | .lt => x.lt y
  | .le => x.lt y || x.same y
  | .gt => y.lt x
  | .ge => y.lt x || x.same y
  | .un => x.isNan || y.isNan
  | .or => !(x.isNan || y.isNan)

def opFcmp (g : Guard) (p : PReg) (a : Reg) (t : Tail) (n : FCond) (f : FFmt) (s : State) : Result :=
  issue g t s fun b =>
    .next (s.complete b (b.held.line.setPredicate p
      (fcondHolds n (floatOf f (b.held.line.reg a)) (t.float s b f))))

/-- The class bit of R215. -/
def classBit (f : FFmt) (x : Word64) : Nat :=
  let p := f.fmt.params
  match floatOf f x with
  | .nan => 8
  | .inf n => if n then 0 else 7
  | .zero n => if n then 3 else 4
  | .fin n _ _ _ =>
    let normal := decide (2 ^ p.t ≤ x.toNat % 2 ^ (p.size - 1))
    match n, normal with
    | true, true => 1 | true, false => 2 | false, false => 5 | false, true => 6

def opFclass (g : Guard) (d a : Reg) (f : FFmt) (s : State) : Result :=
  writeReg0 g d s fun l => BitVec.ofNat 64 (2 ^ classBit f (l.reg a))

/-- `fround`: q = 0 and the mode; a zero keeps the sign; FX alone tells a change (R216). -/
def roundIntegral (f : FFmt) (x : Nat) (r : Rm) : Nat × FpFlags :=
  let p := f.fmt.params
  match decodeFloat p x with
  | .nan => (p.nan, .none)
  | .inf _ => (x % 2 ^ p.size, .none)
  | .zero _ => (x % 2 ^ p.size, .none)
  | .fin neg n d e =>
    let (num, den) := inUnits n d e 0
    let m := roundQuot neg num den r 0
    let fl : FpFlags := { FpFlags.none with fx := decide (num % den ≠ 0) }
    if m = 0 then (zeroCode p neg, fl) else ((roundF p (.fin neg m 1 0) .rne false 0).1, fl)

def opFround (g : Guard) (d a : Reg) (r : Rm) (f : FFmt) (s : State) : Result :=
  issue0 g s fun b => .next (s.completeFloat b d (roundIntegral f (b.held.line.reg a).toNat r))

/-- The low bytes that a converted code leaves in d (R218). -/
def extendCode (f : Fmt) (c : Nat) : Word64 :=
  match f with
  | .i8 => extend 8 false c | .i16 => extend 16 false c | .i32 => extend 32 false c
  | .z8 | .z16 | .z32 | .i64 | .z64 | .f64 | .f32 | .f16 | .bf16 | .e4m3 | .e5m2 | .acc | .b8 _ _ _ =>
    BitVec.ofNat 64 (c % 2 ^ (8 * f.size))

/-- The conversion of R218 with a valid specification: the code written and the flags. -/
def convert (src dst : Fmt) (r : Rm) (sat : Bool) (draw x : Nat) : Word64 × FpFlags :=
  let v := decodeFmt src x
  match dst.int? with
  | some (w, sgn) =>
    let (i, fl) := roundToInt w sgn v r draw
    (extendCode dst (i % (2 ^ w : Nat)).toNat, fl)
  | none =>
    let (c, fl) := roundF dst.params v r sat draw
    (extendCode dst c, fl)

/-- rsto_draw: bits [63:32] of rand_h(key, index) (R173). -/
def rstoDraw (key index : Nat) : Nat := bits (randH key index) 63 32

/-- The specification word of `fcvt` in each tail form: bits [31:0] of the tail (R217). -/
def Tail.spec (t : Tail) (s : State) (b : Barrel) : BitVec 32 := (t.value s b false).setWidth 32

/-- `fcvt`: an invalid specification in a literal or a constant is an illegal encoding, so it precedes the guard; in a
register it is found when the instruction executes (R153, R217). -/
def opFcvt (g : Guard) (d a kb : Reg) (t : Tail) (s : State) : Result :=
  withBarrel s fun b =>
    let inWord := match t with | .lit _ | .const _ => true | .reg _ | .imm _ => false
    if inWord && (t.indexBad b || ((t.poisonAt s b).isNone && !fcvtSpecValid (t.spec s b))) then .next (s.illegal b)
    else if !guardHolds b.held.line g then .next (s.complete b b.held.line)
    else if !fcvtSpecValid (t.spec s b) then .next (s.illegal b)
    else
      let n := (t.spec s b).toNat
      let l := b.held.line
      let r := Rm.ofCode (bits n 18 16)
      let draw := if r = .rsto then rstoDraw (l.reg kb).toNat (l.reg d).toNat else 0
      let (v, fl) := convert (Fmt.ofCodeD (bits n 5 0)) (Fmt.ofCodeD (bits n 13 8)) r (bit n 19) draw (l.reg a).toNat
      .next (s.complete b ((l.setReg d v).raise fl))

/-- `vfma`: `fma` in each lane, one rounding a lane, the flags of all lanes (R219). -/
def opVfma (g : Guard) (d a b : Reg) (t : Tail) (r : Rm) (f : FFmt) (s : State) : Result :=
  issue g t s fun br =>
    let l := br.held.line
    let p := f.fmt.params
    let w := p.size
    let n := 64 / w
    let x := lanes w n (l.reg a).toNat
    let y := lanes w n (l.reg b).toNat
    let z := lanes w n (t.both s br).toNat
    let rs := (x.zip (y.zip z)).map fun (x, y, z) =>
      roundResult p (fmaExact r (decodeFloat p x) (decodeFloat p y) (decodeFloat p z)) r
    .next (s.complete br ((l.setReg d (BitVec.ofNat 64 (joinLanes w (rs.map (·.1))))).raise
      ((rs.map (·.2)).foldl FpFlags.or .none)))

/-- `xcvt`: the exact accumulator word in a register pair as a binary64 value (R182, R220). -/
def opXcvt (g : Guard) (d a : Reg) (s : State) : Result :=
  issue0 g s fun b =>
    let l := b.held.line
    let hi := (l.reg (pairOf a)).toNat
    let n := (l.reg a).toNat + hi * 2 ^ 64
    if bit n 122 || bit n 123 then
      .next (s.completeFloat b d (Fmt.f64.params.nan, { FpFlags.none with fv := true }))
    else
      let (c, fl) := roundF Fmt.f64.params (XVal.ofScaled (signed 120 n) (-56)) .rne false 0
      .next (s.completeFloat b d (c, { fl with fv := fl.fv || bit n 121, fx := fl.fx || bit n 120 }))

/-! One definition for every constructor. -/

def execFadd (g : Guard) (d a b : Reg) (r : Rm) (f : FFmt) (s : State) : Result :=
  opFadd g d a (.reg b) r f s
def execFaddRL (g : Guard) (d a : Reg) (r : Rm) (f : FFmt) (lit : BitVec 32) (s : State) : Result :=
  opFadd g d a (.lit lit) r f s
def execFaddRK (g : Guard) (d a : Reg) (f : FFmt) (k : BitVec 8) (s : State) : Result :=
  opFadd g d a (.const k) .rne f s
def execFsub (g : Guard) (d a b : Reg) (r : Rm) (f : FFmt) (s : State) : Result :=
  opFsub g d a (.reg b) r f s
def execFsubRL (g : Guard) (d a : Reg) (r : Rm) (f : FFmt) (lit : BitVec 32) (s : State) : Result :=
  opFsub g d a (.lit lit) r f s
def execFsubRK (g : Guard) (d a : Reg) (f : FFmt) (k : BitVec 8) (s : State) : Result :=
  opFsub g d a (.const k) .rne f s
def execFmul (g : Guard) (d a b : Reg) (r : Rm) (f : FFmt) (s : State) : Result :=
  opFmul g d a (.reg b) r f s
def execFmulRL (g : Guard) (d a : Reg) (r : Rm) (f : FFmt) (lit : BitVec 32) (s : State) : Result :=
  opFmul g d a (.lit lit) r f s
def execFmulRK (g : Guard) (d a : Reg) (f : FFmt) (k : BitVec 8) (s : State) : Result :=
  opFmul g d a (.const k) .rne f s
def execFdiv (g : Guard) (d a b : Reg) (r : Rm) (f : FFmt) (s : State) : Result :=
  opFdiv g d a (.reg b) r f s
def execFdivRL (g : Guard) (d a : Reg) (r : Rm) (f : FFmt) (lit : BitVec 32) (s : State) : Result :=
  opFdiv g d a (.lit lit) r f s
def execFdivRK (g : Guard) (d a : Reg) (f : FFmt) (k : BitVec 8) (s : State) : Result :=
  opFdiv g d a (.const k) .rne f s
def execFma (g : Guard) (d a b c : Reg) (r : Rm) (f : FFmt) (s : State) : Result :=
  opFma g d a b (.reg c) r f s
def execFmaRL (g : Guard) (d a b : Reg) (r : Rm) (f : FFmt) (lit : BitVec 32) (s : State) : Result :=
  opFma g d a b (.lit lit) r f s
def execFmaRK (g : Guard) (d a b : Reg) (f : FFmt) (k : BitVec 8) (s : State) : Result :=
  opFma g d a b (.const k) .rne f s
def execFsqrt (g : Guard) (d a : Reg) (r : Rm) (f : FFmt) (s : State) : Result :=
  opFsqrt g d a r f s
def execFmin (g : Guard) (d a b : Reg) (f : FFmt) (s : State) : Result :=
  opFmin g d a (.reg b) f s
def execFminRL (g : Guard) (d a : Reg) (f : FFmt) (lit : BitVec 32) (s : State) : Result :=
  opFmin g d a (.lit lit) f s
def execFminRK (g : Guard) (d a : Reg) (f : FFmt) (k : BitVec 8) (s : State) : Result :=
  opFmin g d a (.const k) f s
def execFmax (g : Guard) (d a b : Reg) (f : FFmt) (s : State) : Result :=
  opFmax g d a (.reg b) f s
def execFmaxRL (g : Guard) (d a : Reg) (f : FFmt) (lit : BitVec 32) (s : State) : Result :=
  opFmax g d a (.lit lit) f s
def execFmaxRK (g : Guard) (d a : Reg) (f : FFmt) (k : BitVec 8) (s : State) : Result :=
  opFmax g d a (.const k) f s
def execFabs (g : Guard) (d a : Reg) (f : FFmt) (s : State) : Result :=
  opFabs g d a f s
def execFneg (g : Guard) (d a : Reg) (f : FFmt) (s : State) : Result :=
  opFneg g d a f s
def execFcmp (g : Guard) (p : PReg) (a b : Reg) (n : FCond) (f : FFmt) (s : State) : Result :=
  opFcmp g p a (.reg b) n f s
def execFcmpRL (g : Guard) (p : PReg) (a : Reg) (n : FCond) (f : FFmt) (lit : BitVec 32) (s : State) : Result :=
  opFcmp g p a (.lit lit) n f s
def execFcmpRK (g : Guard) (p : PReg) (a : Reg) (f : FFmt) (k : BitVec 8) (s : State) : Result :=
  opFcmp g p a (.const k) .eq f s
def execFclass (g : Guard) (d a : Reg) (f : FFmt) (s : State) : Result :=
  opFclass g d a f s
def execFcvt (g : Guard) (d a b c : Reg) (s : State) : Result :=
  opFcvt g d a b (.reg c) s
def execFcvtRL (g : Guard) (d a b : Reg) (lit : BitVec 32) (s : State) : Result :=
  opFcvt g d a b (.lit lit) s
def execFcvtRK (g : Guard) (d a b : Reg) (k : BitVec 8) (s : State) : Result :=
  opFcvt g d a b (.const k) s
def execFround (g : Guard) (d a : Reg) (r : Rm) (f : FFmt) (s : State) : Result :=
  opFround g d a r f s
def execVfma (g : Guard) (d a b c : Reg) (r : Rm) (f : FFmt) (s : State) : Result :=
  opVfma g d a b (.reg c) r f s
def execVfmaRL (g : Guard) (d a b : Reg) (r : Rm) (f : FFmt) (lit : BitVec 32) (s : State) : Result :=
  opVfma g d a b (.lit lit) r f s
def execVfmaRK (g : Guard) (d a b : Reg) (f : FFmt) (k : BitVec 8) (s : State) : Result :=
  opVfma g d a b (.const k) .rne f s
def execXcvt (g : Guard) (d a : Reg) (s : State) : Result :=
  opXcvt g d a s
def execFmai (d a : Reg) (imm : BitVec 20) (s : State) : Result :=
  opFmai d a imm s

end Sys2Proof.Machine
end

