-- ==== Sys2Proof/Machine/TileMath.lean ====
section
/-!
DEFINITION. Machine/TileMath.lean: what the tile unit and the matrix engine compute on the bytes of tiles: element
reads and writes, the operations of R224 to R230, and one request of the matrix engine (R236, R255).
-/
namespace Sys2Proof.Machine

/-- The rows of a tile as its descriptor gives them (R101): the window address of element (0, 0), the pitch, the
shape, the format and the accumulator exponent. -/
structure TileView where
  addr : Nat
  pitch : Nat
  rows : Nat
  cols : Nat
  fmt : Fmt
  exp : Int
  deriving DecidableEq, Repr

def TileView.elemAddr (t : TileView) (r c : Nat) : Nat := t.addr + r * t.pitch + c * t.fmt.size

def tileCode (m : List Host.Cell) (t : TileView) (r c : Nat) : Nat := memNat m (t.elemAddr r c) t.fmt.size

/-- The exact value of an element (R224). -/
def tileVal (m : List Host.Cell) (t : TileView) (r c : Nat) : XVal :=
  if t.fmt = .acc then accValue (accDecode (tileCode m t r c)) t.exp else decodeFmt t.fmt (tileCode m t r c)

def tilePut (m : List Host.Cell) (t : TileView) (r c code : Nat) : List Host.Cell :=
  memPuts m (t.elemAddr r c) (toBytes t.fmt.size code)

/-- An element cannot be read: poisoned bytes, or the accumulator element that is never produced (R178, R341). -/
def tileBad (m : List Host.Cell) (poison : List Nat) (t : TileView) (r c : Nat) : Bool :=
  poison.any (fun p => decide (p / 64 * 64 ≤ t.elemAddr r c) && decide (t.elemAddr r c < p / 64 * 64 + 64)) ||
    (t.fmt == .acc && accBad (tileCode m t r c))

/-- The first unreadable element of a list of places: its tile's operand number and its address. -/
def firstBad (m : List Host.Cell) (poison : List Nat) : List (Nat × TileView × Nat × Nat) → Option (Nat × Nat)
  | [] => none
  | (op, t, r, c) :: ps => if tileBad m poison t r c then some (op, t.elemAddr r c) else firstBad m poison ps

/-- Round a value into a format, with the draw of an element index (R224). -/
def roundInto (f : Fmt) (x : Option XVal) (r : Rm) (sat : Bool) (key idx : Nat) : Nat × FpFlags :=
  let draw := if r = .rsto then rstoDraw key idx else 0
  match f.int? with
  | some (w, sgn) =>
    let (i, fl) := roundToInt w sgn (x.getD .nan) r draw
    ((i % (2 ^ w : Nat)).toNat, { fl with fv := fl.fv || x.isNone })
  | none =>
    match x with
    | none => (f.params.nan, { FpFlags.none with fv := true })
    | some v => roundF f.params v r sat draw

/-- What a tile operation leaves: memory, the register result, the flags, and the fault of the row it stopped at:
operand, address and row. -/
structure TileOut where
  mem : List Host.Cell
  reg : Option Word64
  flags : FpFlags
  bad : Option (Nat × Nat × Nat)
  deriving DecidableEq, Repr

/-- Write the codes of one destination row, from column c up. -/
def tilePutRow (m : List Host.Cell) (t : TileView) (r : Nat) : Nat → List Nat → List Host.Cell
  | _, [] => m
  | c, x :: xs => tilePutRow (tilePut m t r c x) t r (c + 1) xs

/-- Work through destination rows in ascending order: each row's sources are read in full before it is written, and
an unreadable source stops the operation there (R222, R223). -/
def tileRows (poison : List Nat) (dst : TileView) (places : Nat → List (Nat × TileView × Nat × Nat))
    (row : List Host.Cell → Nat → List (Nat × FpFlags)) : List Nat → List Host.Cell → FpFlags → TileOut
  | [], m, fl => ⟨m, none, fl, none⟩
  | r :: rs, m, fl =>
    match firstBad m poison (places r) with
    | some (op, a) => ⟨m, none, fl, some (op, a, r)⟩
    | none =>
      let out := row m r
      tileRows poison dst places row rs (tilePutRow m dst r 0 (out.map (·.1))) ((out.map (·.2)).foldl FpFlags.or fl)

/-- The larger or smaller of two values, chosen as `fmax` and `fmin` choose (R212, R226). -/
def chooseVal (isMin : Bool) (x y : XVal) : XVal :=
  if x.isNan then y else if y.isNan then x else if lessOrdered x y == isMin then x else y

/-- An element-wise operation over sources of the destination's shape (R226); the numbers are the operands' fields. -/
def tileMap (m : List Host.Cell) (poison : List Nat) (dst : TileView) (srcs : List (Nat × TileView))
    (f : List XVal → Option XVal) (r : Rm) (sat : Bool) (key : Nat) : TileOut :=
  tileRows poison dst
    (fun row => srcs.flatMap fun (op, t) => (List.range dst.cols).map fun c => (op, t, row, c))
    (fun m row => (List.range dst.cols).map fun c =>
      roundInto dst.fmt (f (srcs.map fun (_, t) => tileVal m t row c)) r sat key (row * dst.cols + c))
    (List.range dst.rows) m .none

/-- `ttrans`: element (c, ρ) from element (ρ, c) (R228). -/
def tileTranspose (m : List Host.Cell) (poison : List Nat) (dst src : TileView) (r : Rm) (sat : Bool) : TileOut :=
  tileRows poison dst
    (fun row => (List.range dst.cols).map fun c => (1, src, c, row))
    (fun m row => (List.range dst.cols).map fun c => roundInto dst.fmt (some (tileVal m src c row)) r sat 0 0)
    (List.range dst.rows) m .none

/-- `tfill`: one conversion, one value in every element (R229). -/
def tileFill (m : List Host.Cell) (dst : TileView) (v : XVal) (r : Rm) (sat : Bool) : TileOut :=
  let (code, fl) := roundInto dst.fmt (some v) r sat 0 0
  let m := (List.range dst.rows).foldl (fun m row => tilePutRow m dst row 0 (List.replicate dst.cols code)) m
  ⟨m, none, fl, none⟩

/-- The exact sum of a set of values (R227); none is the invalid sum of two infinities. -/
def sumSet (rdn : Bool) (xs : List XVal) : Option XVal :=
  if xs.any XVal.isNan then some .nan
  else if xs.contains (.inf false) && xs.contains (.inf true) then none
  else match xs with
    | [] => some (.zero false)
    | x :: xs => xs.foldl (fun a y => a.bind fun a => XVal.add rdn a y) (some x)

def XVal.abs : XVal → XVal
  | .nan => .nan
  | .inf _ => .inf false
  | .zero _ => .zero false
  | .fin _ n d e => .fin false n d e

/-- The largest value of a set, or the largest magnitude; NaNs are ignored (R227). -/
def maxSet (mag : Bool) (xs : List XVal) : Option XVal :=
  some ((xs.map fun x => if mag then x.abs else x).foldl (chooseVal false) .nan)

/-- `tredsum` and `tredmax` over all elements: d := round_f64(S, RM, NONSAT) (R227). -/
def tileReduceAll (m : List Host.Cell) (poison : List Nat) (src : TileView) (f : List XVal → Option XVal) (r : Rm) :
    TileOut :=
  let places := (List.range src.rows).flatMap fun row => (List.range src.cols).map fun c => (1, src, row, c)
  match firstBad m poison places with
  | some (op, a) => ⟨m, none, .none, some (op, a, (a - src.addr) / src.pitch)⟩
  | none =>
    let xs := places.map fun (_, t, row, c) => tileVal m t row c
    let (code, fl) := roundResult Fmt.f64.params (f xs) r
    ⟨m, some (BitVec.ofNat 64 code), fl, none⟩

/-- The row form: element (ρ, 0) of the destination from row ρ (R227). -/
def tileReduceRows (m : List Host.Cell) (poison : List Nat) (dst src : TileView) (f : List XVal → Option XVal)
    (r : Rm) : TileOut :=
  tileRows poison dst
    (fun row => (List.range src.cols).map fun c => (1, src, row, c))
    (fun m row => [roundInto dst.fmt (f ((List.range src.cols).map fun c => tileVal m src row c)) r false 0 0])
    (List.range dst.rows) m .none

/-! ## The matrix engine -/

/-- The sums of one request: S(i, j), scaled and negated, row by row (R236). The B values are those of the latch, in
the order k, j. -/
def mxSums (a : List (List XVal)) (b : List (List XVal)) (cols : Nat) (scale : Int) (neg : Bool) : List XVal :=
  a.flatMap fun row => (List.range cols).map fun j =>
    let s := ksum (row.zip (b.map fun br => br.getD j (.zero false)))
    let s := match s with
      | .fin n x d e => XVal.fin n x d (e + scale)
      | .nan => .nan
      | .inf n => .inf n
      | .zero n => .zero n
    if neg then s.neg else s

/-- The elements of an accumulator tile, row by row. -/
def accElems (m : List Host.Cell) (t : TileView) : List AccElem :=
  (List.range t.rows).flatMap fun r => (List.range t.cols).map fun c => accDecode (tileCode m t r c)

/-- Write the elements of an accumulator tile, row by row. -/
def accPutElems (m : List Host.Cell) (t : TileView) (xs : List AccElem) : List Host.Cell :=
  (List.range t.rows).foldl
    (fun m r => tilePutRow m t r 0 (((xs.drop (r * t.cols)).take t.cols).map accEncode)) m

/-- Write the elements of an accumulator tile whose place does not hold a special one, row by row (R255). -/
def accPutFinite (m : List Host.Cell) (t : TileView) (xs : List AccElem) : List Host.Cell :=
  (List.range t.rows).foldl
    (fun m r => tilePutRow m t r 0 ((((xs.drop (r * t.cols)).take t.cols).mapIdx fun c x =>
      if (accDecode (tileCode m t r c)).special = 0 then accEncode x else tileCode m t r c))) m

/-- One request applied to an accumulator (R236): the elements, E, and whether RENORM is set; `mxmz` starts from an
empty tile. -/
def mxApply (zero : Bool) (elems : List AccElem) (e : Int) (sums : List XVal) : List AccElem × Int × Bool :=
  if zero then accAdd (elems.map fun _ => ⟨0, 0⟩) (accStartExp sums) sums else accAdd elems e sums

end Sys2Proof.Machine
end

