-- ==== Sys2Proof/Machine/Tiles.lean ====
section
/-!
DEFINITION. Machine/Tiles.lean: tile handles and descriptors (R100 to R103), which live in the descriptor table of a TSP,
the master element (R68), and what a coherence message does to a subscribed tile (R77, R78).
-/
namespace Sys2Proof.Machine

/-! ## Handles (R100) -/

def handleCluster (h : Nat) : Nat := bits h 31 30 * 512 + bits h 29 21
def handleGen (h : Nat) : Nat := bits h 20 10
def handleIndex (h : Nat) : Nat := bits h 9 0
def mkHandle (cl gen i : Nat) : Nat := cl / 512 * 2 ^ 30 + cl % 512 * 2 ^ 21 + gen % 2 ^ 11 * 2 ^ 10 + i % 2 ^ 10

/-! ## Descriptors (R101) -/

def descAddr (cl i : Nat) : Nat := tspBase cl + descTable + 32 * i
def State.desc (s : State) (cl i : Nat) : Nat := memNat s.mem (descAddr cl i) 32
def State.putDesc (s : State) (cl i d : Nat) : State := { s with mem := memPuts s.mem (descAddr cl i) (toBytes 32 d) }

def dBase (d : Nat) : Nat := bits d 18 0
def dCols (d : Nat) : Nat := bits d 78 72
def dRows (d : Nat) : Nat := bits d 86 80
def dPitch (d : Nat) : Nat := bits d 111 96
def dFormat (d : Nat) : Nat := bits d 117 112
def dRefresh (d : Nat) : Bool := bit d 118
def dUpd (d : Nat) : Bool := bit d 119
def dRenorm (d : Nat) : Bool := bit d 120
def dStale (d : Nat) : Bool := bit d 121
def dSub (d : Nat) : Bool := bit d 122
def dAcc (d : Nat) : Bool := bit d 123
def dValid (d : Nat) : Bool := bit d 124
def dGen (d : Nat) : Nat := bits d 135 125
def dDomain (d : Nat) : Nat := bits d 151 136
def dVersion (d : Nat) : Nat := bits d 183 152
def dExp (d : Nat) : Int := signed 16 (bits d 199 184)
def dSrc (d : Nat) : Nat := bits d 255 200

def dSetBit (d i : Nat) (v : Bool) : Nat := setBits d i i (boolBit v)
def dSetStale (d : Nat) (v : Bool) : Nat := dSetBit d 121 v
def dSetRefresh (d : Nat) (v : Bool) : Nat := dSetBit d 118 v
def dNextVersion (d : Nat) : Nat := setBits d 183 152 (dVersion d + 1)
def dSetExp (d : Nat) (e : Int) : Nat := setBits d 199 184 (e % (2 ^ 16 : Nat)).toNat

/-- The element format of a descriptor. -/
def dFmt (d : Nat) : Fmt := (Fmt.ofCode? (dFormat d)).getD .acc

/-- The handle of the tile at an index as it stands. -/
def State.handleOf (s : State) (cl i : Nat) : Nat := mkHandle cl (dGen (s.desc cl i)) i

/-- The rows of a tile. -/
def dView (cl d : Nat) : TileView :=
  { addr := tspBase cl + dBase d, pitch := dPitch d, rows := dRows d, cols := dCols d, fmt := dFmt d, exp := dExp d }

/-- Bytes in a row that hold elements. -/
def dRowBytes (d : Nat) : Nat := dCols d * (dFmt d).size

/-- The lookup of R102 at the home cluster: the descriptor, unless it is invalid, of another generation, or the cluster
lies outside the partition. -/
def State.lookupHandle (s : State) (part h : Nat) : Option Nat :=
  let cl := handleCluster h
  let d := s.desc cl (handleIndex h)
  if dValid d && dGen d == handleGen h && s.inPartition part cl then some d else none

/-- The tile of a handle still lives. -/
def State.liveHandle (s : State) (h : Nat) : Bool :=
  let d := s.desc (handleCluster h) (handleIndex h)
  dValid d && dGen d == handleGen h

/-! ## Master formats (R43, R68) -/

def masterFmt : Nat → Option Fmt
  | 1 => some .f32
  | 2 => some .bf16
  | 3 => some .f16
  | _ => none

/-- The width of a master element; pages without a master, and the fixed windows, are read as binary32 (R267). -/
def masterSize (m : Nat) : Nat := if m = 2 ∨ m = 3 then 2 else 4
def masterRead (m : Nat) : Fmt := (masterFmt m).getD .f32

/-- F may be subscribed under a master (R68). -/
def subscribable (master : Nat) (f : Fmt) : Bool :=
  match f with
  | .bf16 | .f16 => master == 1
  | .e4m3 | .e5m2 | .b8 _ _ _ => master == 1 || master == 2 || master == 3
  | .i8 | .z8 | .i16 | .z16 | .i32 | .z32 | .i64 | .z64 | .f64 | .f32 | .acc => false

/-- round_F of a master element, RNE and saturating (R70, R75). -/
def toSub (master : Nat) (f : Fmt) (code : Nat) : Nat :=
  (roundF f.params (decodeFmt (masterRead master) code) .rne true 0).1

/-- The master elements of a sector, element 0 first. -/
def sectorElems (master : Nat) (data : BitVec 512) : List Nat :=
  lanes (8 * masterSize master) (64 / masterSize master) data.toNat

/-- The sector's codes at F, each zero-extended in the place of its element. -/
def subSector (master : Nat) (f : Fmt) (data : BitVec 512) : BitVec 512 :=
  BitVec.ofNat 512 (joinLanes (8 * masterSize master) ((sectorElems master data).map (toSub master f)))

/-- The cluster of a CLM or TSP window address. -/
def clusterAt (a : Nat) : Nat :=
  match targetOf a with
  | .clm core _ => clusterOfCore core
  | .tsp cl _ => cl
  | .paged | .reg _ _ | .hole => 0

/-- The stack of a cluster that is FIRING. -/
def ClusterState.firing (k : ClusterState) : Option (Nat × Stack) := k.mxStacks.find? fun (_, x) => x.state == .firing

/-- A row of the latched tile meets a run of bytes. -/
def Latch.meets (l : Latch) (a n : Nat) : Bool := l.rows.any fun (b, m) => decide (a < b + m) && decide (b < a + n)

/-- A write of n bytes from a window address invalidates the latch of its cluster if it meets the latched tile; a stack that is
FIRING goes on with the values that it has loaded (R238, R239). -/
def State.spoil (s : State) (a n : Nat) : State :=
  match targetOf a with
  | .tsp cl _ =>
    let k := s.cluster cl
    if k.latch.any fun l => l.meets a n then
      s.setCluster cl { k with latch := if k.firing.isSome then k.latch.map fun l => { l with spoiled := true } else none }
    else s
  | .clm _ _ | .paged | .reg _ _ | .hole => s

/-- The rows of a tile: the address and the bytes of each. -/
def tileSpans (cl d : Nat) : List (Nat × Nat) := (List.range (dRows d)).map fun r => (tspBase cl + dBase d + r * dPitch d, dRowBytes d)

/-- Rows of a tile are written: a latch that holds bytes of them is invalidated (R238). -/
def State.touchTile (s : State) (cl d : Nat) : State := (tileSpans cl d).foldl (fun s (a, n) => s.spoil a n) s

/-! ## Stacks of Geyser that a change of a tile makes READY (R242, R245) -/

/-- The OPEN stacks of a cluster that a test selects become READY. -/
def State.readyStacks (s : State) (cl : Nat) (which : Stack → Bool) : State :=
  let k := s.cluster cl
  s.setCluster cl { k with mxStacks := k.mxStacks.map fun (n, x) =>
    (n, if x.state = .opened ∧ which x then { x with state := StackState.ready } else x) }

/-- VERSION of a tile advances: the OPEN stacks whose key names it become READY. -/
def State.staleKeys (s : State) (cl i : Nat) : State := s.readyStacks cl fun x => x.key.handle == s.handleOf cl i

/-! ## Messages to a subscribed tile (R77, R78) -/

/-- A refresh is wanted for a tile: one that is running starts again, one that waits waits. -/
def wantRefresh (rs : List Refresh) (i : Nat) (who : Who) : List Refresh :=
  if rs.any (fun r => r.index == i) then rs.map fun r => if r.index = i then { r with again := true } else r
  else rs ++ [{ index := i, running := false, again := false, pageWait := false, who := who, jobs := [] }]

/-- An agent of a cluster that no context submitted: a refresh works in the tile's DOMAIN (R112). -/
def tileAgent (cl d : Nat) : Who :=
  { ctx := 0, gen := 0, domain := BitVec.ofNat 16 (dDomain d), part := 0, core := cl * 8, pc := 0, word := 0 }

/-- An invalidation reaches the tile: STALE and VERSION, and a refresh (R77); one for a freed tile is discarded. -/
def State.staleTile (s : State) (cl i : Nat) : State :=
  let d := s.desc cl i
  if dValid d && dSub d then
    let s := (s.putDesc cl i (dNextVersion (dSetStale d true))).staleKeys cl i
    let k := s.cluster cl
    s.setCluster cl { k with refreshes := wantRefresh k.refreshes i (tileAgent cl d) }
  else s

/-- Write the codes of the elements of a sector that belong to the tile; `n` counts elements from the sector's first. -/
def putTileCodes (t : TileView) (src va msize : Nat) : List Nat → Nat → List Host.Cell → List Host.Cell
  | [], _, m => m
  | c :: cs, n, m =>
    let a := va + n * msize
    let m := if src ≤ a ∧ a < src + t.rows * t.cols * msize then
        let k := (a - src) / msize
        tilePut m t (k / t.cols) (k % t.cols) c
      else m
    putTileCodes t src va msize cs (n + 1) m

/-- An update reaches the tile: the new encodings and VERSION (R77); a running refresh starts again (R78). -/
def State.updateTile (s : State) (cl i va master : Nat) (codes : List Nat) : State :=
  let d := s.desc cl i
  if dValid d && dSub d then
    let s := { s with mem := putTileCodes (dView cl d) (dSrc d) va (masterSize master) codes 0 s.mem }.touchTile cl d
    let s := (s.putDesc cl i (dNextVersion d)).staleKeys cl i
    let k := s.cluster cl
    s.setCluster cl { k with
      refreshes := k.refreshes.map fun r => if r.index = i ∧ r.running then { r with again := true } else r }
  else s

end Sys2Proof.Machine
end

