-- ==== Sys2Proof/Machine/Coherence.lean ====
section
/-!
DEFINITION. Machine/Coherence.lean: sector copies and the two directory levels (R60 to R74): grants, snoops, writes
performed at a home with the compare of R70, recalls, the device coherence agent (R80), capacity victims, and coherent
writes of hardware agents.
-/
namespace Sys2Proof.Machine

/-! ## Sectors and copies -/

def sectorOf (pa : Nat) : Nat := pa / 64 * 64
def sectorIndex (a : Nat) : Nat := a / 64 % 4
def lineOfAddr (a : Nat) : Nat := a / 256

def noCopy : SecCopy := ⟨.i, 0⟩
def noL1Line : L1Line := ⟨Quad.all noCopy, 0⟩
def noSector : DirSector := ⟨Quad.all .i, Quad.all 0, Quad.all [], .i⟩
def noEntry (va : Nat) : DirEntry :=
  { vaLine := lineOfAddr va, sectors := Quad.all noSector, leaseExp := 0, version := 0, compatLog2 := 0, written := false }

def putSector (m : List Host.Cell) (pa : Nat) (d : BitVec 512) : List Host.Cell :=
  memPuts m (sectorOf pa) (toBytes 64 d.toNat)

/-- A directory entry by physical line, in the home directory or the device coherence agent's (R65, R80). -/
def State.putDir (s : State) (pa : Nat) (e : DirEntry) : State :=
  if s.onDevice pa then { s with dir := Table.set s.dir (lineOfAddr pa) e }
  else { s with dca := Table.set s.dca (lineOfAddr pa) e }

def State.dropDir (s : State) (pa : Nat) : State :=
  if s.onDevice pa then { s with dir := Table.erase s.dir (lineOfAddr pa) }
  else { s with dca := Table.erase s.dca (lineOfAddr pa) }

def State.dirSector (s : State) (pa : Nat) : DirSector :=
  ((s.dirOf pa).map fun e => e.sectors.get (sectorIndex pa)).getD noSector

/-- Change a sector of an entry, if the line has one. -/
def State.modifySector (s : State) (pa : Nat) (f : DirSector → DirSector) : State :=
  match s.dirOf pa with
  | some e => s.putDir pa { e with sectors := e.sectors.modify (sectorIndex pa) f }
  | none => s

/-- A brick's state and formats for a sector. -/
def State.setBrickState (s : State) (pa b : Nat) (st : BrickState) (fs : List (Fmt × Bool)) : State :=
  s.modifySector pa fun x => { x with bricks := x.bricks.set b st, formats := x.formats.set b fs }

/-- The next lease version of a home slice (R83). -/
def State.nextVersion (s : State) (pa : Nat) : BitVec 32 × State :=
  let d := s.homeDie pa
  let b := s.brick d
  let v := ((Table.get? b.versions (homeSlice pa)).getD 0#32) + 1
  (v, s.setBrick d { b with versions := Table.set b.versions (homeSlice pa) v })

/-- The virtual line of an entry that only the host has caused: the host names physical lines (R79). -/
def noVaLine : Nat := 2 ^ 48

/-- log2 of COH_LEASE_MIN at the home of a line (R85). -/
def State.leaseMinLog2 (s : State) (pa : Nat) : Nat := log2Fuel 32 (s.brick (s.homeDie pa)).cohLeaseMin.toNat

/-- The entry of a line is created when it has none, under the virtual line of the request (R41, R65, R83); an entry that
the host has caused takes the first virtual line that a request names. -/
def State.ensureDir (s : State) (pa va : Nat) : State :=
  match s.dirOf pa with
  | some e => if e.vaLine = noVaLine then s.putDir pa { e with vaLine := lineOfAddr va } else s
  | none =>
    if s.onDevice pa then
      let (v, s) := s.nextVersion pa
      s.putDir pa { noEntry va with version := v, compatLog2 := s.leaseMinLog2 pa }
    else s.putDir pa (noEntry va)

def DirSector.idle (x : DirSector) : Bool :=
  x.host == .i && [0, 1, 2, 3].all fun b => x.bricks.get b == .i && (x.formats.get b).isEmpty

/-- The sectors of a line of host memory that the device coherence agent owns (R80). -/
def State.agentOwns (s : State) (l : Nat) : Quad HostState := (Table.get? s.dcaOwn l).getD (Quad.all .i)

/-- The device coherence agent has asked the host for a sector of a line. -/
def State.asksHost (s : State) (l : Nat) : Bool :=
  s.outbox.any fun m => match m with
    | .cxlCacheRead p _ => lineOfAddr p == l
    | _ => false

/-- An entry is freed once no brick and no host holds a sector and no lease is unexpired (R65); the device coherence agent keeps
its entry while it owns a sector of the line or asks for one (R80). -/
def State.tidyDir (s : State) (pa : Nat) : State :=
  match s.dirOf pa with
  | some e =>
    let l := lineOfAddr pa
    if [0, 1, 2, 3].all (fun k => (e.sectors.get k).idle) && decide (e.leaseExp ≤ s.cycle) &&
        (s.onDevice pa || ((s.agentOwns l == Quad.all .i) && !s.asksHost l)) then s.dropDir pa else s
  | none => s

/-- The request's virtual line differs from the one recorded (R41). -/
def State.alias (s : State) (pa va : Nat) : Bool :=
  match s.dirOf pa with
  | some e => e.vaLine != lineOfAddr va && e.vaLine != noVaLine
  | none => false

/-- Change the copies of a sector in the data L1s of a brick. -/
def State.mapL1 (s : State) (brick va : Nat) (f : SecCopy → SecCopy) : State :=
  let k := sectorIndex va
  let g := fun (l : L1Line) => { l with sectors := l.sectors.modify k f }
  { s with clusters := s.clusters.map fun (c, x) =>
      if dieOfCluster c = brick then (c, { x with l1d := Table.modify x.l1d (lineOfAddr va) g }) else (c, x) }

/-- Change every copy of a sector inside a brick. -/
def State.editCopies (s : State) (brick va : Nat) (f : SecCopy → SecCopy) : State :=
  let k := sectorIndex va
  let g := fun (l : L2Line) => { l with sectors := l.sectors.modify k f }
  { s.mapL1 brick va f with l2 := s.l2.modify brick fun t => Table.modify t (lineOfAddr va) g }

/-- Lines of a brick with no sector left go: a data L1's, and the L2 slice's once no data L1 of the brick holds the line. -/
def State.dropEmpty (s : State) (brick v : Nat) : State :=
  let held := fun (q : Quad SecCopy) => [0, 1, 2, 3].any fun i => (q.get i).st != .i
  let s : State := { s with
    clusters := s.clusters.map fun (c, x) =>
      if dieOfCluster c = brick then (c, { x with l1d := x.l1d.filter fun (n, l) => n != v || held l.sectors }) else (c, x) }
  if (s.l1Holders brick v).isEmpty then
    { s with l2 := s.l2.modify brick fun t => t.filter fun (n, l) => n != v || held l.sectors }
  else s

/-- Change every copy of a sector inside a brick; lines with no sector left go. -/
def State.mapCopies (s : State) (brick va : Nat) (f : SecCopy → SecCopy) : State :=
  (s.editCopies brick va f).dropEmpty brick (lineOfAddr va)

/-- A tile of a brick is registered for the sector of an address (R77). -/
def TileSub.at (t : TileSub) (brick va : Nat) : Bool := dieOfCluster t.cluster == brick && sectorOf t.va == sectorOf va

/-- The copies of a sector in a brick's data L1s and L2 slice. -/
def State.copiesIn (s : State) (brick va : Nat) : List SecState :=
  let k := sectorIndex va
  let v := lineOfAddr va
  ((s.l1Holders brick v).map fun (_, l) => (l.sectors.get k).st) ++
    (match Table.get? (s.l2.get brick) v with | some l => [(l.sectors.get k).st] | none => [])

/-- The formats at which a brick still holds a sector, each with its mode: its data L1s, its L2 slice and its tiles. -/
def State.heldFormats (s : State) (brick va : Nat) : List (Fmt × Bool) :=
  ((s.copiesIn brick va).filterMap fun c => match c with
    | .sub f u => some (f, u)
    | .i | .s | .e | .m => none) ++
    (s.tileSubs.filter fun t => t.at brick va).map fun t => (t.fmt, t.upd)

/-- Some holder inside a brick has the sector: a data L1, the L2 slice or a subscribed tile (R63, R77). -/
def State.heldInBrick (s : State) (brick va : Nat) : Bool :=
  (s.copiesIn brick va).any (· != .i) || s.tileSubs.any fun t => t.at brick va

/-- The directory follows the holders that a brick has lost: its format list loses a format with the last holder of it and
the update mode with the last holder in that mode (R73); a brick in S or SUB that has no holder left is in I. -/
def State.trimFormats (s : State) (pa va brick : Nat) : State :=
  let hs := s.heldFormats brick va
  let held := s.heldInBrick brick va
  s.modifySector pa fun x =>
    match x.bricks.get brick with
    | .i | .e | .m => x
    | .s => if held then x else { x with bricks := x.bricks.set brick .i }
    | .sub =>
      let fs := (x.formats.get brick).filterMap fun (f, _) =>
        if hs.any (fun h => h.1 == f) then some (f, hs.any fun h => h.1 == f && h.2) else none
      { x with formats := x.formats.set brick fs, bricks := if fs.isEmpty then x.bricks.set brick .i else x.bricks }

/-! ## Subscribed tiles of a brick -/

/-- The tiles of a brick that subscribed to a sector, at one format or at any, take an invalidation. -/
def State.staleTiles (s : State) (brick va : Nat) (which : TileSub → Bool) : State :=
  let hit := s.tileSubs.filter fun t => t.at brick va && which t
  let s := { s with tileSubs := s.tileSubs.filter fun t => !(t.at brick va && which t) }
  hit.foldl (fun s t => s.staleTile t.cluster t.index) s

def State.updateTiles (s : State) (brick va : Nat) (f : Fmt) (master : Nat) (data : BitVec 512) : State :=
  (s.tileSubs.filter fun t => t.at brick va && t.fmt == f && t.upd).foldl
    (fun s t => s.updateTile t.cluster t.index (sectorOf va) master (sectorElems master data)) s

/-! ## Snoops (R67, R72, R291) -/

def State.hasSnoop (s : State) (pa : Nat) : Bool := s.snoops.any fun x => x.pa == sectorOf pa && !x.acked

/-- Send a snoop, unless it is already on its way; one to the host goes out as a back-invalidate snoop (R79). -/
def State.snoop (s : State) (t : Holder) (va pa : Nat) (k : SnoopKind) : State :=
  let x : Snoop := { target := t, va := sectorOf va, pa := sectorOf pa, kind := k, acked := false }
  if s.snoops.contains x then s
  else
    let s := { s with snoops := s.snoops ++ [x] }
    match t with
    | .host => { s with outbox := s.outbox ++ [.hostBackInval (sectorOf pa)] }
    | .brick _ => s

/-- A snoop takes effect on a brick's copies (R67). -/
def State.applySnoop (s : State) (b : Nat) (x : Snoop) : State :=
  match x.kind with
  | .share => s.mapCopies b x.va fun c => if c.st = .m ∨ c.st = .e then { c with st := .s } else c
  | .inval => s.mapCopies b x.va fun _ => noCopy
  | .invalFmt f => (s.mapCopies b x.va fun c => match c.st with
      | .sub g _ => if g = f then noCopy else c
      | .i | .s | .e | .m => c).trimFormats x.pa x.va b
  | .update f _ data => (s.mapCopies b x.va fun c => match c.st with
      | .sub g true => if g = f then { c with data := data } else c
      | .sub g false => if g = f then noCopy else c
      | .i | .s | .e | .m => c).trimFormats x.pa x.va b

/-- Mark a line in every migration whose old frame holds it (R53). -/
def State.markMigrations (s : State) (pa : Nat) : State :=
  { s with migrations := s.migrations.map fun g =>
      if g.oldFrame ≤ pa ∧ pa < g.oldFrame + g.size ∧ !g.marked.contains (lineOfAddr pa) then
        { g with marked := g.marked ++ [lineOfAddr pa] } else g }

/-- The latest expiry of a peer lease on a line. -/
def State.leaseOf (s : State) (pa : Nat) : Nat := ((s.dirOf pa).map fun e => e.leaseExp).getD 0

/-- A peer's lease holds a write of an arbiter to the bytes from a physical address (R84, assumption 114). -/
def State.leased (s : State) (pa n : Nat) : Bool := decide (s.cycle < s.leaseOf pa) || decide (s.cycle < s.leaseOf (pa + n - 1))

/-- A write to a line sets its written-since flag and returns its compatibility lease to the minimum (R85); a write to a
leased line, and one that a lease has held, advances its version (R83). -/
def State.writeVersion (s : State) (pa : Nat) (held : Bool) : State :=
  match s.dirOf pa with
  | some e =>
    if held || decide (s.cycle < e.leaseExp) then
      let (v, s) := s.nextVersion pa
      s.putDir pa { e with version := v, written := true, compatLog2 := s.leaseMinLog2 pa }
    else s.putDir pa { e with written := true, compatLog2 := s.leaseMinLog2 pa }
  | none => s

/-- The loads that a combining entry of a sector has still to serve would read an older value: the entry closes (R87). -/
def State.dropLoads (s : State) (pa : Nat) : State :=
  { s with combine := s.combine.filter fun c => c.load.isNone || sectorOf c.pa != sectorOf pa }

/-- Dirty data reaches its home: memory takes it, and it counts as a write to the line (R53, R83), `held` where a lease has held
it. -/
def State.acceptDirty (s : State) (pa : Nat) (d : BitVec 512) (held : Bool) : State :=
  ((({ s with mem := putSector s.mem pa d } : State).markMigrations pa).dropLoads pa).writeVersion pa held

/-- Dirty data of a brick reaches its home; a copy with an uncorrectable error is written with a poison mark (R341). -/
def State.acceptFrom (s : State) (b pa : Nat) (d : BitVec 512) (held : Bool) : State :=
  let t := s.acceptDirty pa d held
  if s.badCopies.contains (b, sectorOf pa) then
    { t.poisonUnit pa with badCopies := t.badCopies.erase (b, sectorOf pa) }
  else t

/-- Write back the dirty data of a brick's sector and mark its clean copies with it. -/
def State.writeBackBrick (s : State) (b va pa : Nat) (held : Bool) : State :=
  match s.brickDirty b (lineOfAddr va) (sectorIndex va) with
  | some d =>
    let s := s.acceptFrom b pa d held
    s.editCopies b va fun c => match c.st with
      | .i => c
      | .s | .e | .m | .sub _ _ => { c with data := d }
  | none => s

/-- The brick's tiles take a snoop at once. -/
def State.snoopTiles (s : State) (b : Nat) (x : Snoop) : State :=
  match x.kind with
  | .share => s
  | .inval => s.staleTiles b x.va fun _ => true
  | .invalFmt f => s.staleTiles b x.va fun t => t.fmt == f
  | .update f master data => (s.updateTiles b x.va f master data).staleTiles b x.va fun t => t.fmt == f && !t.upd

/-- A home takes the notice of an eviction: dirty sectors reach memory, and the directory follows (R65, R67). -/
def applyNotice (s : State) (brick va pa : Nat) (dirty : Quad (Option (BitVec 512))) (held : Bool) : State :=
  [0, 1, 2, 3].foldl (fun s k =>
    let p := pa / 256 * 256 + 64 * k
    let v := va / 256 * 256 + 64 * k
    let s := match dirty.get k with
      | some d => s.acceptFrom brick p d held
      | none => s
    if (s.brickDirty brick (lineOfAddr v) k).isSome || (s.dirSector p).bricks.get brick = .i then s
    else
      let kept := match Table.get? (s.l2.get brick) (lineOfAddr v) with
        | some l => (l.sectors.get k).st
        | none => .i
      match kept with
      | .s | .e | .m => s
      | .i | .sub _ _ =>
        let s := if ((s.dirSector p).bricks.get brick).owns then s.setBrickState p brick .s [] else s
        s.trimFormats p v brick) s

/-- A notice of a line at its home. -/
def Req.noticeOf (r : Req) (pa : Nat) : Bool :=
  match r.op, r.phase with
  | .notice _, .home p _ _ => lineOfAddr p == lineOfAddr pa
  | _, _ => false

/-- The notice carries dirty data: it is a write-back. -/
def Req.isWriteBack (r : Req) : Bool :=
  match r.op with
  | .notice d => [0, 1, 2, 3].any fun k => (d.get k).isSome
  | _ => false

/-- Take the notices of a line that a test selects. -/
def State.takeNotices (s : State) (pa : Nat) (which : Req → Bool) : State :=
  let mine := fun (r : Req) => r.noticeOf pa && which r
  let now := s.reqs.filter mine
  let s := { s with reqs := s.reqs.filter fun r => !mine r }
  now.foldl (fun s r => match r.op with
    | .notice d => (applyNotice s (dieOfCore r.who.core) r.va pa d (r.heldUntil != 0)).tidyDir pa
    | _ => s) s

/-- What a brick has sent about a line on its circuit stands before its next message or reply about the line: the notices of its own
evictions are taken first (R33, R66). -/
def State.settleOwn (s : State) (b pa : Nat) : State :=
  s.takeNotices pa fun r => dieOfCore r.who.core == b && (decide (s.leaseOf pa ≤ s.cycle) || !r.isWriteBack)

/-- A write-back of a line waits for its lease (R84). -/
def State.noticeHeld (s : State) (pa : Nat) : Bool :=
  decide (s.cycle < s.leaseOf pa) && s.reqs.any fun r => r.noticeOf pa && r.isWriteBack

/-- A write-back of a brick for a line waits for a lease (R84). -/
def State.ownHeld (s : State) (b pa : Nat) : Bool :=
  decide (s.cycle < s.leaseOf pa) && s.reqs.any fun r => r.noticeOf pa && dieOfCore r.who.core == b && r.isWriteBack

/-- What a snoop does where a brick receives it: E and M copies are given up at once, and the snoop is done with; the tiles
take it and the directory follows, and the caches of the brick have still to apply it. What the brick has sent about the line before
goes first. -/
def State.meetSnoop (s : State) (b : Nat) (x : Snoop) : State × Bool :=
  let s := s.settleOwn b x.pa
  let owned := ((s.dirSector x.pa).bricks.get b).owns
  match x.kind with
  | .share =>
    let s := (s.writeBackBrick b x.va x.pa false).applySnoop b x
    ((if owned then (s.setBrickState x.pa b .s []).trimFormats x.pa x.va b else s).tidyDir x.pa, true)
  | .inval =>
    if owned then (((((s.writeBackBrick b x.va x.pa false).applySnoop b x).snoopTiles b x).setBrickState x.pa b .i []).tidyDir x.pa, true)
    else (((s.snoopTiles b x).setBrickState x.pa b .i []).tidyDir x.pa, false)
  | .invalFmt f =>
    let s := (s.snoopTiles b x).modifySector x.pa fun d =>
      let fs := (d.formats.get b).filter fun (g, _) => g != f
      { d with formats := d.formats.set b fs,
               bricks := if fs.isEmpty && d.bricks.get b == .sub then d.bricks.set b .i else d.bricks }
    (s.tidyDir x.pa, false)
  | .update _ _ _ => (s.snoopTiles b x, false)

/-- A brick receives a snoop: E and M copies are given up at once; the invalidation or update of other copies is
acknowledged and applied later (R291). -/
def State.receiveSnoop (s : State) (n : Nat) (b : Nat) (x : Snoop) : State :=
  let (s, done) := s.meetSnoop b x
  { s with snoops := if done then listErase s.snoops n else listSet s.snoops n { x with acked := true } }

/-- Apply the acknowledged snoops that a test selects. -/
def State.applyAcked (s : State) (which : Snoop → Bool) : State :=
  let now := s.snoops.filter fun x => x.acked && which x
  let s := { s with snoops := s.snoops.filter fun x => !(x.acked && which x) }
  now.foldl (fun s x => match x.target with
    | .brick b => s.applySnoop b x
    | .host => s) s

/-- The acquire of a brick applies every invalidation and update that has reached it (R294). -/
def State.acquireAt (s : State) (brick : Nat) : State := s.applyAcked fun x => x.target == .brick brick

/-- A brick applies what has reached it for one sector, in the order in which it came. -/
def State.applyAt (s : State) (b pa : Nat) : State := s.applyAcked fun x => x.target == .brick b && x.pa == sectorOf pa

/-- The brick whose own write the home performs takes the write's invalidation or update at that moment, after those that
had reached it before, so that its later loads find the write (R288, R289). -/
def State.ownSnoop (s : State) (b va pa : Nat) (k : SnoopKind) : State :=
  let x : Snoop := { target := .brick b, va := sectorOf va, pa := sectorOf pa, kind := k, acked := true }
  let (s, done) := (s.applyAt b pa).meetSnoop b x
  if done then s else s.applySnoop b x

/-! ## What a request needs first -/

/-- Bricks other than one that hold a sector under a condition. -/
def State.otherBricks (s : State) (pa : Nat) (me : Option Nat) (p : BrickState → Bool) : List Nat :=
  [0, 1, 2, 3].filter fun b => some b != me && p ((s.dirSector pa).bricks.get b)

/-- The snoops for a shared copy (R67, R79): E elsewhere is taken back by a snoop share; the host's M by a
back-invalidate. -/
def State.askShare (s : State) (pa va : Nat) (me : Option Nat) : State :=
  let s := (s.otherBricks pa me BrickState.owns).foldl (fun s b => s.snoop (.brick b) va pa .share) s
  if (s.dirSector pa).host = .m then s.snoop .host va pa .inval else s

/-- The snoops for an exclusive copy (R67). -/
def State.askExclusive (s : State) (pa va : Nat) (me : Option Nat) : State :=
  let s := (s.otherBricks pa me (· != .i)).foldl (fun s b => s.snoop (.brick b) va pa .inval) s
  if (s.dirSector pa).host ≠ .i then s.snoop .host va pa .inval else s

/-- A sector has a subscriber anywhere (R69). -/
def State.subscribed (s : State) (pa : Nat) : Bool :=
  let x := s.dirSector pa
  [0, 1, 2, 3].any fun b => x.bricks.get b == .sub || !(x.formats.get b).isEmpty

/-! ## Grants -/

def l1Ways : Nat := 8
def l2Ways : Nat := 16

/-- The least recently used line of a list. -/
def oldest {α : Type} (used : α → Nat) : List (Nat × α) → Option (Nat × α)
  | [] => none
  | x :: xs => match oldest used xs with
    | some y => if used y.2 < used x.2 then some y else some x
    | none => some x

/-- The directory follows the copies of a line that a data L1 of a brick has given up (R65, R73). -/
def State.trimLine (s : State) (b v : Nat) (l : L1Line) : State :=
  match Table.get? (s.l2.get b) v with
  | none => s
  | some x => ([0, 1, 2, 3].foldl (fun s k =>
      if (l.sectors.get k).st = .i then s
      else (s.trimFormats (x.pa + 64 * k) (v * 256 + 64 * k) b).tidyDir x.pa) s).dropEmpty b v

/-- A data L1 gives up a line: its dirty sectors go to the L2 slice, and its drop notices to the directories (R67). -/
def State.evictL1 (s : State) (cl v : Nat) (l : L1Line) : State :=
  let k := s.cluster cl
  let s := s.setCluster cl { k with l1d := Table.erase k.l1d v }
  ({ s with l2 := s.l2.modify (dieOfCluster cl) fun t => Table.modify t v fun x =>
      { x with sectors := ⟨if l.sectors.b0.st = .m then ⟨.m, l.sectors.b0.data⟩ else x.sectors.b0,
                           if l.sectors.b1.st = .m then ⟨.m, l.sectors.b1.data⟩ else x.sectors.b1,
                           if l.sectors.b2.st = .m then ⟨.m, l.sectors.b2.data⟩ else x.sectors.b2,
                           if l.sectors.b3.st = .m then ⟨.m, l.sectors.b3.data⟩ else x.sectors.b3⟩ } } : State).trimLine
    (dieOfCluster cl) v l

/-- Put a sector into a data L1, replacing the least recently used line of a full set (R61). -/
def State.fillL1 (s : State) (cl va : Nat) (c : SecCopy) : State :=
  let v := lineOfAddr va
  let k := s.cluster cl
  match Table.get? k.l1d v with
  | some l =>
    let l : L1Line := { sectors := l.sectors.set (sectorIndex va) c, used := s.cycle }
    s.setCluster cl { k with l1d := Table.set k.l1d v l }
  | none =>
    let set := k.l1d.filter fun (n, _) => n % 64 == v % 64
    let s := if set.length < l1Ways then s
      else match oldest L1Line.used set with
        | some (n, l) => s.evictL1 cl n l
        | none => s
    let k := s.cluster cl
    let l : L1Line := { sectors := noL1Line.sectors.set (sectorIndex va) c, used := s.cycle }
    s.setCluster cl { k with l1d := Table.set k.l1d v l }

/-- The slice and the set of a line in the L2 (R62): which bits index the set is not given (assumption 14). -/
def l2Set (v : Nat) : Nat × Nat := (cachingSlice (v * 256), v / 64 % 256)

/-- An L2 slice gives up a line: the data L1 copies of the brick are recalled, and a notice with the dirty sectors goes
to the home (R67) over the line's circuit; while the pair cannot send it waits (R33). -/
def State.evictL2 (s : State) (brick v : Nat) : State :=
  match Table.get? (s.l2.get brick) v with
  | none => s
  | some l =>
    let dirty := fun k => s.brickDirty brick v k
    let note : Req := { who := { ctx := 0, gen := 0, domain := 0, part := 0, core := brick * 4096, pc := 0, word := 0 },
                        va := v * 256, size := 256, op := .notice ⟨dirty 0, dirty 1, dirty 2, dirty 3⟩,
                        reply := .nothing, phase := .home l.pa l.wr l.master, posted := true, acq := false, heldUntil := 0,
                        via := if s.onDevice l.pa && s.lineOpen brick l.pa then s.circuitOf brick (s.homeDie l.pa) l.pa else none }
    let s := [0, 1, 2, 3].foldl (fun s k => s.mapCopies brick (v * 256 + 64 * k) fun _ => noCopy) s
    { s with reqs := s.reqs ++ [note] }

/-- Put a sector into an L2 slice, replacing the least recently used line of a full set. -/
def State.fillL2 (s : State) (brick va pa : Nat) (wr : Bool) (master : Nat) (c : SecCopy) : State :=
  let v := lineOfAddr va
  match Table.get? (s.l2.get brick) v with
  | some l =>
    let y : L2Line := { pa := pa / 256 * 256, wr := wr, master := master,
                        sectors := l.sectors.set (sectorIndex va) c, used := s.cycle }
    { s with l2 := s.l2.modify brick fun t => Table.set t v y }
  | none =>
    let set := (s.l2.get brick).filter fun (n, _) => l2Set n == l2Set v
    let s := if set.length < l2Ways then s
      else match oldest L2Line.used set with
        | some (n, _) => s.evictL2 brick n
        | none => s
    let y : L2Line := { pa := pa / 256 * 256, wr := wr, master := master,
                        sectors := noL1Line.sectors.set (sectorIndex va) c, used := s.cycle }
    { s with l2 := s.l2.modify brick fun t => Table.set t v y }

/-! ## The home directory and the snoop filter as arrays (R64, R65) -/

def dirWays : Nat := 16

/-- The home slice and set of a line in the home directory: which bits index the set is not given (assumption 14). -/
def State.dirSet (s : State) (l : Nat) : Nat × Nat × Nat := (s.homeDie (l * 256), homeSlice (l * 256), l / 64 % 1024)

/-- What becomes of a context that is evicted between two instructions: a RESIDENT one becomes READY. -/
def endingOf (l : Line) : Ending := if l.inState .resident then .toReady else .kept

/-- A directory entry or a snoop-filter entry of a context's line is freed (R64, R65): in a context L1 the eviction of the
context starts, in a context L2 the write-back of its line is due. -/
def State.expelCtx (s : State) (va : Nat) : State :=
  { s with
    cores := s.cores.map fun (c, x) => (c, { x with entries := x.entries.map fun (n, e) =>
      (n, match e.ctx? with
        | some h => if h.va = va ∧ !h.draining then e.withCtx { h with draining := true, ending := endingOf h.line } else e
        | none => e) })
    clusters := s.clusters.map fun (c, x) => (c, { x with ctxL2 := Table.modify x.ctxL2 va fun y =>
      if y.wbWait then y else { y with wbWait := true, retryAt := s.cycle } }) }

/-- Recall every copy of a line: snoop invalidates to every brick, a back-invalidate to the host; the contexts of a line of
the context pool are evicted (R65). -/
def State.recallLine (s : State) (pa va : Nat) : State :=
  if s.inPool va then (s.expelCtx (va / 256 * 256)).expelCtx (va / 256 * 256 + 128)
  else [0, 1, 2, 3].foldl (fun s k => s.askExclusive (pa / 256 * 256 + 64 * k) (va / 256 * 256 + 64 * k) none) s

/-- The entry that a full directory set frees: one with no unexpired lease, else the earliest expiry (R65). -/
def State.dirVictim (s : State) (pa : Nat) : Option (Nat × DirEntry) :=
  if (Table.get? s.dir (lineOfAddr pa)).isSome || !s.onDevice pa then none
  else
    let set := s.dir.filter fun (l, _) => s.dirSet l == s.dirSet (lineOfAddr pa)
    if set.length < dirWays then none
    else oldest DirEntry.leaseExp set

/-- Make room for the entry of a line: none when there is room; otherwise the state in which the victim's copies are
being recalled, or its lease is waited for, or it has gone. -/
def State.dirRoom (s : State) (pa : Nat) : Option State :=
  match s.dirVictim pa with
  | none => none
  | some (l, e) =>
    if s.cycle < e.leaseExp then some s
    else if [0, 1, 2, 3].all fun k => (e.sectors.get k).idle then some { s with dir := Table.erase s.dir l }
    else some (s.recallLine (l * 256) (e.vaLine * 256))

/-- Entries of the device coherence agent (R80). -/
def dcaEntries : Nat := 65536

/-- The device coherence agent makes room (R80): the line of its first entry that waits for no answer of the host
(assumption 107) is recalled, and its dirty sectors are written to the host as its ownership is given up. -/
def State.dcaRoom (s : State) (pa : Nat) : Option State :=
  if s.onDevice pa || (Table.get? s.dca (lineOfAddr pa)).isSome || s.dca.length < dcaEntries then none
  else match s.dca.find? fun (l, _) => !s.asksHost l with
    | none => some s
    | some (l, e) =>
      if [0, 1, 2, 3].all fun k => (e.sectors.get k).idle then
        let own := s.agentOwns l
        let out := [0, 1, 2, 3].filterMap fun k =>
          if own.get k = .m then some (OutMsg.cxlCacheWrite (l * 256 + 64 * k) (memSector s.mem (l * 256 + 64 * k))) else none
        some { s with dca := Table.erase s.dca l, dcaOwn := Table.erase s.dcaOwn l, outbox := s.outbox ++ out }
      else some (s.recallLine (l * 256) (e.vaLine * 256))

/-- Make room for the entry of a line: in its home's directory, or in the device coherence agent's (R65, R80). -/
def State.entryRoom (s : State) (pa : Nat) : Option State :=
  match s.dirRoom pa with
  | some t => some t
  | none => s.dcaRoom pa

/-- The device owns a sector of the host-coherent range well enough (R80); otherwise the agent makes room for the line's entry
and asks the host for the sector. -/
def State.askHost (s : State) (pa : Nat) (excl : Bool) : Option State :=
  if s.onDevice pa then none
  else
    let own := (s.agentOwns (lineOfAddr pa)).get (sectorIndex pa)
    if own = .m || (own = .s && !excl) then none
    else match s.dcaRoom pa with
      | some s => some s
      | none =>
        let m := OutMsg.cxlCacheRead (sectorOf pa) excl
        some (if s.outbox.contains m then s
          else { s.ensureDir pa (noVaLine * 256) with outbox := s.outbox ++ [m] })

/-- The snoop filter of a slice (R64): 8,192 entries in 16 ways, for lines that data L1s, tiles or context caches of its
brick hold. -/
def filterWays : Nat := 16
def filterSet (v : Nat) : Nat × Nat := (cachingSlice (v * 256), v / 64 % 512)

/-- The contexts that the context caches of a brick hold, less those whose eviction or write-back is already on its way. -/
def State.heldContexts (s : State) (brick : Nat) : List Nat :=
  (s.cores.flatMap fun (c, x) =>
    if dieOfCore c = brick then
      x.entries.filterMap fun (_, e) => (e.ctx?.filter fun h => !h.draining).map Held.va
    else []) ++
  (s.clusters.flatMap fun (c, x) =>
    if dieOfCluster c = brick then x.ctxL2.filterMap fun (v, y) => if y.wbWait then none else some v else [])

/-- The lines of a brick that its snoop filter tracks in the set of a line, those without a context holder first. -/
def State.filterLines (s : State) (brick v : Nat) : List Nat :=
  let here := fun n => filterSet n == filterSet v && n != v
  let ctx := ((s.heldContexts brick).map lineOfAddr).eraseDups.filter here
  let plain := (((s.clusters.flatMap fun (c, x) => if dieOfCluster c = brick then x.l1d.map (·.1) else []) ++
    (s.tileSubs.filterMap fun t => if dieOfCluster t.cluster = brick then some (lineOfAddr t.va) else none)).eraseDups).filter
    fun n => here n && !ctx.contains n
  plain ++ ctx

/-- The tiles of a brick that subscribed to a sector take the invalidation of R77, and the directory follows. -/
def State.dropTiles (s : State) (brick va : Nat) : State :=
  match s.tileSubs.find? fun t => t.at brick va with
  | some t => ((s.staleTiles brick va fun _ => true).trimFormats (sectorOf t.pa) va brick).tidyDir t.pa
  | none => s

/-- Make room in the snoop filter for a line that a data L1, a tile or a context cache is about to hold: the copies of one
tracked line are recalled inside the brick, a line with no context holder before the others; a subscribed tile takes its
invalidation, a context is evicted (R64). -/
def State.filterRoom (s : State) (brick va : Nat) : State :=
  let ls := s.filterLines brick (lineOfAddr va)
  if ls.length < filterWays then s
  else match ls with
    | [] => s
    | n :: _ =>
      let s := (s.l1Holders brick n).foldl (fun s (c, l) => s.evictL1 c n l) s
      let s := [0, 1, 2, 3].foldl (fun s k => s.dropTiles brick (n * 256 + 64 * k)) s
      (s.expelCtx (n * 256)).expelCtx (n * 256 + 128)

/-! ## Reads and subscriptions (R67, R68, R73, R74) -/

/-- Install a granted sector in the L2 slice and in the cluster's data L1; the brick's list loses the format of a copy that the
new one has replaced, with its last holder (R73). -/
def State.install (s : State) (cl va pa : Nat) (wr : Bool) (master : Nat) (st : SecState) : State :=
  let b := dieOfCluster cl
  let d := memSector s.mem pa
  let c : SecCopy := match st with
    | .sub f _ => ⟨st, subSector master f d⟩
    | .i | .s | .e | .m => ⟨st, d⟩
  let s := { s.filterRoom b va with badCopies := s.badCopies.erase (b, sectorOf pa) }
  let l2st := match Table.get? (s.l2.get b) (lineOfAddr va) with
    | some l => (l.sectors.get (sectorIndex va)).st
    | none => .i
  let s := match st, l2st with
    | .sub _ _, .sub _ _ => s
    | _, _ => s.fillL2 b va pa wr master c
  (s.fillL1 cl va c).trimFormats pa va b

/-- The home grants a read of a sector: E to a load if no other holder has it and no peer holds a lease on its line, else S;
a brick that held it subscribed becomes an S holder with an empty format list (R67, R68, R74, R84). -/
def State.grantRead (s : State) (cl va pa : Nat) (wr : Bool) (master : Nat) (shared : Bool) : State :=
  let b := dieOfCluster cl
  let s := (s.applyAt b pa).ensureDir pa va
  let x := s.dirSector pa
  let alone := !shared && decide (s.leaseOf pa ≤ s.cycle) && [0, 1, 2, 3].all (fun d => x.bricks.get d == .i && (x.formats.get d).isEmpty) && x.host == .i &&
    (s.onDevice pa || (s.agentOwns (lineOfAddr pa)).get (sectorIndex pa) == .m)
  let s := s.setBrickState pa b (if alone then .e else .s) []
  let s := if alone then (s.markMigrations pa).dropLoads pa else s
  s.install cl va pa wr master (if alone then .e else .s)

/-- The home grants a subscription at F (R68): the brick's format list takes F, or a fifth format makes the brick an S
holder with an empty list (R73). -/
def State.grantSub (s : State) (cl va pa : Nat) (wr : Bool) (master : Nat) (f : Fmt) (upd : Bool) : State :=
  let b := dieOfCluster cl
  let s := ((s.applyAt b pa).ensureDir pa va).trimFormats pa va b
  let x := s.dirSector pa
  let fs := x.formats.get b
  let s := if x.bricks.get b = .sub then s
    else s.modifySector pa fun y => { y with masters := y.masters.set b master }
  if x.bricks.get b = .s || (x.bricks.get b).owns then s.install cl va pa wr master .s
  else if fs.any fun (g, _) => g == f then
    (s.setBrickState pa b .sub (fs.map fun (g, u) => (g, if g = f then u || upd else u))).install cl va pa wr master
      (.sub f upd)
  else if fs.length < 4 then
    (s.setBrickState pa b .sub (fs ++ [(f, upd)])).install cl va pa wr master (.sub f upd)
  else (s.setBrickState pa b .s []).install cl va pa wr master .s

/-! ## Writes at the home (R69 to R72) -/

/-- The bytes of a sector with some replaced. -/
def mergeBytes (d : BitVec 512) (o : Nat) (bs : List (Option Byte)) : BitVec 512 :=
  let old := toBytes 64 d.toNat
  BitVec.ofNat 512 (ofBytes (old.mapIdx fun i b =>
    if i < o then b else match bs[i - o]? with
      | some (some c) => c
      | some none | none => b))

/-- The compare of R70 for a format: some touched element's encodings differ. -/
def compareDiffers (master : Nat) (f : Fmt) (old new : BitVec 512) (touched : Nat → Bool) : Bool :=
  let n := masterSize master
  (List.range (64 / n)).any fun i =>
    ((List.range n).any fun j => touched (i * n + j)) &&
      toSub master f ((sectorElems master old).getD i 0) != toSub master f ((sectorElems master new).getD i 0)

/-- A write performed at the home: memory takes the new sector, and every sharer whose compare differs is sent an
invalidation or an update; an S holder is always invalidated (R69 to R72). Sharers are compared on the elements of the
master under which their brick subscribed (R76); `mine` are the bricks whose own write it is. -/
def State.homeWrite (s : State) (pa va : Nat) (mine : List Nat) (new : BitVec 512) (touched : Nat → Bool) (held : Bool) : State :=
  let old := memSector s.mem pa
  let x := s.dirSector pa
  let s := (({ s with mem := putSector s.mem pa new,
                      poison := if (List.range 64).all touched then s.poison.filter (· != sectorOf pa) else s.poison
             }).markMigrations pa).dropLoads pa |>.writeVersion pa held
  let tell := fun (s : State) (b : Nat) (k : SnoopKind) =>
    if mine.contains b then s.ownSnoop b va pa k else s.snoop (.brick b) va pa k
  let s := [0, 1, 2, 3].foldl (fun s b =>
    let m := x.masters.get b
    match x.bricks.get b with
    | .i => s
    | .e | .m | .s => tell s b .inval
    | .sub => (x.formats.get b).foldl (fun s (f, u) =>
        if compareDiffers m f old new touched then tell s b (if u then .update f m (subSector m f new) else .invalFmt f)
        else s) s) s
  if x.host ≠ .i then s.snoop .host va pa .inval else s

/-- The requesting brick gets M for a store (R69): it becomes the only holder. -/
def State.grantModified (s : State) (cl va pa : Nat) (wr : Bool) (master : Nat) (new : BitVec 512) : State :=
  let b := dieOfCluster cl
  let s := (((s.applyAt b pa).ensureDir pa va).markMigrations pa).dropLoads pa
  let s := (s.staleTiles b va fun _ => true).mapCopies b va fun _ => noCopy
  let s := { (s.setBrickState pa b .m []).filterRoom b va with badCopies := s.badCopies.erase (b, sectorOf pa) }
  let s := s.fillL2 b va pa wr master ⟨.e, memSector s.mem pa⟩
  s.fillL1 cl va ⟨.m, new⟩

/-! ## Inside a brick -/

/-- The copy of a sector that a cluster sees in its brick: its data L1's, else the L2 slice's. -/
def State.l1Copy (s : State) (cl va : Nat) : SecCopy :=
  ((Table.get? (s.cluster cl).l1d (lineOfAddr va)).map fun l => l.sectors.get (sectorIndex va)).getD noCopy

def State.l2Copy (s : State) (brick va : Nat) : SecCopy :=
  ((Table.get? (s.l2.get brick) (lineOfAddr va)).map fun l => l.sectors.get (sectorIndex va)).getD noCopy

/-- The current full-precision data of a sector inside a brick, if a holder there has it. -/
def State.brickData (s : State) (brick va : Nat) : Option (BitVec 512) :=
  match s.brickDirty brick (lineOfAddr va) (sectorIndex va) with
  | some d => some d
  | none =>
    let c := s.l2Copy brick va
    if c.st = .s ∨ c.st = .e ∨ c.st = .m then some c.data else none

/-- The brick holds the sector in E or M. -/
def State.brickOwns (s : State) (brick va : Nat) : Bool :=
  let c := s.l2Copy brick va
  c.st == .e || c.st == .m

/-- A cluster reads a sector that its brick holds at full precision: other data L1s that held it in E or M fall to S, and
the dirty data passes to the L2 slice (R63, R67). -/
def State.shareInBrick (s : State) (cl va : Nat) (d : BitVec 512) : State :=
  let b := dieOfCluster cl
  let dirty := s.brickDirty b (lineOfAddr va) (sectorIndex va)
  match Table.get? (s.l2.get b) (lineOfAddr va) with
  | none => s
  | some l =>
    let k := sectorIndex va
    let own := (l.sectors.get k).st
    let others := (s.l1Holders b (lineOfAddr va)).any fun (c, x) => c != cl && (x.sectors.get k).st != .i
    let s := s.mapL1 b va fun z => if z.st = .m ∨ z.st = .e then { z with st := .s } else z
    let y : L2Line := { l with sectors := l.sectors.set k ⟨if dirty.isSome then .m else own, d⟩, used := s.cycle }
    let s := { s with l2 := s.l2.modify b fun t => Table.set t (lineOfAddr va) y }
    (s.filterRoom b va).fillL1 cl va ⟨if others || own = .s then .s else .e, d⟩

/-- A cluster writes a sector that its brick owns: every other copy in the brick goes, and its data L1 holds M (R288). -/
def State.writeInBrick (s : State) (cl va : Nat) (new : BitVec 512) : State :=
  let b := dieOfCluster cl
  let l2 := s.l2Copy b va
  let line := Table.get? (s.l2.get b) (lineOfAddr va)
  let s := s.mapCopies b va fun _ => noCopy
  match line with
  | none => s
  | some l =>
    let pa := l.pa + 64 * sectorIndex va
    let s := (s.fillL2 b va pa l.wr l.master ⟨.e, l2.data⟩).modifySector pa fun x => { x with bricks := x.bricks.set b .m }
    (((s.writeVersion pa false).dropLoads pa).filterRoom b va).fillL1 cl va ⟨.m, new⟩

/-- A cluster takes a sector that its brick owns into its data L1 as E: the other copies in the brick's data L1s go, and dirty
data passes to the L2 slice (R270). -/
def State.claimInBrick (s : State) (cl va : Nat) : State :=
  let b := dieOfCluster cl
  let c := s.l1Copy cl va
  match Table.get? (s.l2.get b) (lineOfAddr va), s.brickData b va with
  | some l, some d =>
    if c.st = .e ∨ c.st = .m then s
    else
      let st := if (s.brickDirty b (lineOfAddr va) (sectorIndex va)).isSome then SecState.m else .e
      let s := s.mapL1 b va fun _ => noCopy
      let y : L2Line := { l with sectors := l.sectors.set (sectorIndex va) ⟨st, d⟩, used := s.cycle }
      let s := { s with l2 := s.l2.modify b fun t => Table.set t (lineOfAddr va) y }
      ((s.dropEmpty b (lineOfAddr va)).filterRoom b va).fillL1 cl va ⟨.e, d⟩
  | _, _ => s

/-! ## Coherent accesses of hardware agents -/

/-- Give up every copy of a sector on the device at once: dirty data is written back and the directory lists no holder.
A hardware agent's write and the recalls of R54 and R55 use it at their own instant. -/
def State.recallSector (s : State) (pa : Nat) : State :=
  let s := (s.takeNotices pa fun _ => true).applyAcked fun x => x.pa == sectorOf pa
  match s.dirOf pa with
  | none => s
  | some e =>
    let va := e.vaLine * 256 + 64 * sectorIndex pa
    let s := [0, 1, 2, 3].foldl (fun s b =>
      if (s.dirSector pa).bricks.get b = .i then s
      else (((s.writeBackBrick b va pa false).mapCopies b va fun _ => noCopy).staleTiles b va fun _ => true).setBrickState
        pa b .i []) s
    { s with snoops := s.snoops.filter fun x => x.pa != sectorOf pa || x.target == Holder.host }.tidyDir pa

/-- A coherent write of bytes by a hardware agent, by physical address. -/
def State.cohPut (s : State) (pa : Nat) (bs : List Byte) : State :=
  let first := pa / 64
  let last := (pa + bs.length - 1) / 64
  let s := (List.range (last + 1 - first)).foldl (fun s i => s.recallSector ((first + i) * 64)) s
  let s := (List.range (last + 1 - first)).foldl (fun s i =>
    ((s.markMigrations ((first + i) * 64)).dropLoads ((first + i) * 64)).writeVersion ((first + i) * 64) false) s
  { s with mem := memPuts s.mem pa bs }

end Sys2Proof.Machine
end

