-- ==== Sys2Proof/Machine/Shake.lean ====
section
/-!
DEFINITION. Machine/Shake.lean: SHAKE256 over bytes (FIPS 202), for the integrity tag of a context line (R134) and the
digest of a firmware image (R373, R376).
-/
namespace Sys2Proof.Machine

/-- Lane (x, y) of a state of 25 lanes, at place x + 5y. -/
def lane (a : List (BitVec 64)) (x y : Nat) : BitVec 64 := a.getD (x % 5 + 5 * (y % 5)) 0

def keccakRc : List (BitVec 64) :=
  [0x0000000000000001, 0x0000000000008082, 0x800000000000808A, 0x8000000080008000, 0x000000000000808B,
   0x0000000080000001, 0x8000000080008081, 0x8000000000008009, 0x000000000000008A, 0x0000000000000088,
   0x0000000080008009, 0x000000008000000A] ++
  [0x000000008000808B, 0x800000000000008B, 0x8000000000008089, 0x8000000000008003, 0x8000000000008002,
   0x8000000000000080, 0x000000000000800A, 0x800000008000000A, 0x8000000080008081, 0x8000000000008080,
   0x0000000080000001, 0x8000000080008008]

/-- The rotations, lane by lane. -/
def keccakRot : List Nat :=
  [0, 1, 62, 28, 27, 36, 44, 6, 55, 20, 3, 10, 43, 25, 39, 41, 45, 15, 21, 8, 18, 2, 61, 56, 14]

def keccakRotl (x : BitVec 64) (n : Nat) : BitVec 64 := (x <<< n) ||| (x >>> (64 - n))

def places25 : List (Nat × Nat) := (List.range 25).map fun i => (i % 5, i / 5)

/-- One round: θ, ρ and π, χ, ι. -/
def keccakRound (a : List (BitVec 64)) (rc : BitVec 64) : List (BitVec 64) :=
  let c := (List.range 5).map fun x => lane a x 0 ^^^ lane a x 1 ^^^ lane a x 2 ^^^ lane a x 3 ^^^ lane a x 4
  let d := (List.range 5).map fun x => c.getD ((x + 4) % 5) 0 ^^^ keccakRotl (c.getD ((x + 1) % 5) 0) 1
  let t := places25.map fun (x, y) => lane a x y ^^^ d.getD x 0
  let b := places25.map fun (x, y) =>
    let u := (x + 3 * y) % 5
    keccakRotl (lane t u x) (keccakRot.getD (u + 5 * x) 0)
  let e := places25.map fun (x, y) => lane b x y ^^^ (~~~(lane b (x + 1) y) &&& lane b (x + 2) y)
  match e with
  | [] => []
  | h :: r => (h ^^^ rc) :: r

def keccakF (a : List (BitVec 64)) : List (BitVec 64) := keccakRc.foldl keccakRound a

/-- XOR a block of bytes into the lanes, eight bytes a lane. -/
def absorbBlock : List (BitVec 64) → List Byte → List (BitVec 64)
  | [], _ => []
  | x :: xs, bs => (x ^^^ BitVec.ofNat 64 (ofBytes (bs.take 8))) :: absorbBlock xs (bs.drop 8)

/-- The input padded to a multiple of 136 bytes. -/
def shakePad (bs : List Byte) : List Byte :=
  let n := 136 - bs.length % 136
  if n = 1 then bs ++ [0x9F#8] else bs ++ [0x1F#8] ++ List.replicate (n - 2) 0#8 ++ [0x80#8]

/-- Absorb n blocks. -/
def shakeAbsorb : Nat → List (BitVec 64) → List Byte → List (BitVec 64)
  | 0, a, _ => a
  | n + 1, a, bs => shakeAbsorb n (keccakF (absorbBlock a (bs.take 136))) (bs.drop 136)

/-- The first n bytes, n at most 136, of SHAKE256. -/
def shake256 (bs : List Byte) (n : Nat) : List Byte :=
  let p := shakePad bs
  ((shakeAbsorb (p.length / 136) (List.replicate 25 0#64) p).flatMap fun x => toBytes 8 x.toNat).take n

end Sys2Proof.Machine
end

