-- ==== Sys2Proof/Machine/Contexts.lean ====
section
/-!
DEFINITION. Machine/Contexts.lean: a context line wherever it lives: its 128 bytes (R115), its integrity tag (R134), its
holder (R121 to R123), messages into it (R132, R133), poisoning (R135), the free maps (R310), zeroing (R137) and the
entry into a ready queue (R311, R312).
-/
namespace Sys2Proof.Machine

/-! ## The bytes of a line -/

/-- The predicate word as it stands in a line: p0 reads 1 (R116), and a FREE line is zero (R137). -/
def Line.storedPred (l : Line) : BitVec 32 := if l.inState .free then l.pred else l.pred ||| 1#32

/-- The 128 bytes of a line (R115). -/
def Line.bytes (l : Line) : List Byte :=
  toBytes 8 l.regs.g0.toNat ++ toBytes 8 l.regs.g1.toNat ++ toBytes 8 l.regs.g2.toNat ++ toBytes 8 l.regs.g3.toNat ++
  toBytes 8 l.regs.g4.toNat ++ toBytes 8 l.regs.g5.toNat ++ toBytes 8 l.regs.g6.toNat ++ toBytes 8 l.regs.g7.toNat ++
  toBytes 4 l.pc.toNat ++ toBytes 4 l.storedPred.toNat ++ toBytes 4 l.waitTag.toNat ++ toBytes 4 l.status.toNat ++
  toBytes 8 l.control.toNat ++ toBytes 8 l.link.toNat ++ toBytes 8 l.parent.toNat ++ toBytes 4 l.joinCount.toNat ++
  toBytes 4 l.deferredPc.toNat ++ toBytes 8 l.user.toNat ++ toBytes 4 l.tag.toNat ++ toBytes 2 l.gen.toNat ++
  toBytes 2 l.rsvd.toNat

/-- The n bytes from byte o of a line, as a number. -/
def fieldAt (bs : List Byte) (o n : Nat) : Nat := ofBytes ((bs.drop o).take n)

/-- The line that 128 bytes hold (R115). -/
def lineOf (bs : List Byte) : Line :=
  let w := fun o => BitVec.ofNat 64 (fieldAt bs o 8)
  let h := fun o => BitVec.ofNat 32 (fieldAt bs o 4)
  { regs := ⟨w 0, w 8, w 16, w 24, w 32, w 40, w 48, w 56⟩, pc := h 64, pred := h 68, waitTag := h 72,
    status := h 76, control := w 80, link := w 88, parent := w 96, joinCount := h 104, deferredPc := h 108,
    user := w 112, tag := h 120, gen := BitVec.ofNat 16 (fieldAt bs 124 2), rsvd := BitVec.ofNat 16 (fieldAt bs 126 2) }

/-- VALUE of a wait tag with the fields that its KIND does not name at zero (R119). -/
def waitFields (kind v : Nat) : Nat :=
  match kind with
  | 1 => v % 32
  | 2 => if bit v 27 then bits v 27 16 * 2 ^ 16 + bits v 9 0 else v
  | 3 | 4 | 5 => bits v 27 17 * 2 ^ 17 + bits v 8 0
  | 7 => v % 2 ^ 16
  | 8 | 9 => v
  | _ => 0

/-- A line that software has written, with its reserved fields at zero (R7, R115, R116, R119, assumption 120). -/
def Line.clearReserved (l : Line) : Line :=
  { l with pc := BitVec.ofNat 32 (l.pc.toNat / 4 * 4), pred := BitVec.ofNat 32 (l.pred.toNat % 2 ^ 14),
           waitTag := BitVec.ofNat 32 (l.waitKind * 2 ^ 28 + waitFields l.waitKind l.waitValue), rsvd := 0 }

/-- The integrity tag of a line (R134): CONTEXT_SECRET is that of the running boot. -/
def ctxTag (boots va : Nat) (l : Line) : BitVec 32 :=
  let key := shake256 (Config.contextSecret boots ++ toBytes 2 l.domain) 32
  BitVec.ofNat 32 (ofBytes (shake256 (key ++ toBytes 8 va ++ l.bytes.take 120) 4))

/-- The freed line (R137): every byte zero except GENERATION, one more. -/
def freedLine (l : Line) : Line := { lineOf [] with gen := l.gen + 1 }

/-! ## Reports -/

/-- An entry for a brick's error log (R338). -/
def State.log (s : State) (e : LogEntry) : State := { s with elogQ := s.elogQ ++ [e] }

/-- A TARGET_REFUSED entry (event 1) for an access. -/
def State.refused (s : State) (die : Nat) (w : Who) (detail addr : Nat) : State :=
  s.log { die := die, event := 1, detail := detail, pc := w.pc, domain := w.domain, part := w.part,
          sourceDie := dieOfCore w.core, ctx := w.ctx, addr := addr }

def State.report (s : State) (r : FaultRec) : State := { s with faultQ := s.faultQ ++ [r] }

/-- Send a message to a context. -/
def State.send (s : State) (m : Msg) : State := { s with msgs := s.msgs ++ [m] }

/-- The completion of an access of `w` that waits under a kind. -/
def State.reply (s : State) (w : Who) (kind : Nat) (body : MsgBody) : State :=
  s.send { ctx := w.ctx, gen := w.gen, kind := kind, who := w, body := body, handle := none }

/-- The registers that a reply writes (R132): v is the value at the target. -/
def ReplyTo.writes (r : ReplyTo) (v : Nat) : List (Reg × BitVec 64) :=
  match r with
  | .nothing | .reissue | .jump _ _ => []
  | .reg d size z => [(d, extend (8 * size) z v)]
  | .pair d => [(d, BitVec.ofNat 64 v), (pairOf d, BitVec.ofNat 64 (v / 2 ^ 64))]
  | .subscribed d _ => [(d, BitVec.ofNat 64 v)]
  | .queue d _ => [(d, BitVec.ofNat 64 v)]

/-- The body of the reply that carries v. -/
def ReplyTo.body (r : ReplyTo) (v : Nat) (flags : BitVec 32) : MsgBody :=
  match r with
  | .reissue => .wake
  | .jump pc link => .jump pc link
  | .nothing | .reg _ _ _ | .pair _ | .subscribed _ _ | .queue _ _ => .done (r.writes v) none flags

/-! ## The pool (R113) -/

def State.ctxVa (s : State) (k : Nat) : Nat := s.poolBase + 128 * k
def State.ctxNumber (s : State) (va : Nat) : Nat := (va - s.poolBase) / 128

/-- The physical address of a pool line, or none on a page fault (R113). -/
def State.poolPhys (s : State) (va : Nat) (write : Bool) : Option Nat :=
  match s.ptLookup va with
  | none => none
  | some e =>
    match s.checkEntry e va with
    | .error _ => none
    | .ok _ => if write && !pteWr e then none else some (pteAddr e va)

/-- The virtual address of the context pool that a mapped pool page puts at a physical address. -/
def State.poolVaOf (s : State) (pa : Nat) : Option Nat :=
  (List.range ((s.poolBase % 65536 + 128 * s.poolCount + 65535) / 65536)).findSome? fun i =>
    let page := s.poolBase / 65536 * 65536 + 65536 * i
    (s.poolPhys page false).bind fun f =>
      if f / 65536 = pa / 65536 ∧ s.inPool (page + pa % 65536) then some (page + pa % 65536) else none

/-- The brick of a context's home; brick 0 when its page is not mapped. -/
def State.ctxHome (s : State) (va : Nat) : Nat := (s.poolPhys va false).elim 0 s.homeDie

/-! ## The holder of a line -/

/-- Where a context line is (R121 to R123, R125). -/
inductive Place
  | entry (core entry : Nat) (h : Held)
  | l2 (cluster : Nat) (x : L2Ctx)
  | transfer (t : Transfer)
  | memory (pa : Nat) (l : Line)
  | bad (pa : Nat) (l : Line)
  | unmapped
  deriving DecidableEq, Repr

/-- The entry of a context L1 that holds a context. -/
def State.findEntry (s : State) (va : Nat) : Option (Nat × Nat × Held) :=
  s.cores.findSome? fun (c, x) =>
    x.entries.findSome? fun (n, e) => (e.ctx?.filter fun h => h.va == va).map fun h => (c, n, h)

/-- The line in memory, checked as a read from HBM (R134, R135): a FREE line holds no context, and its tag is not
checked. -/
def State.memPlace (s : State) (va : Nat) : Place :=
  match s.poolPhys va false with
  | none => .unmapped
  | some pa =>
    let l := lineOf (memBytes s.mem pa 128)
    if l.inState .free || s.quarantine.contains va then .memory pa l
    else if l.tag == ctxTag s.boot.boots va l && !s.isPoisoned pa && !s.isPoisoned (pa + 64) then .memory pa l
    else .bad pa l

/-- The one copy of a context's line. -/
def State.place (s : State) (va : Nat) : Place :=
  match s.findEntry va with
  | some (c, n, h) => .entry c n h
  | none =>
    match s.clusters.findSome? fun (c, x) => (Table.get? x.ctxL2 va).map fun y => (c, y) with
    | some (c, y) => .l2 c y
    | none =>
      match s.transfers.find? fun t => t.va == va with
      | some t => .transfer t
      | none => s.memPlace va

def Place.line? : Place → Option Line
  | .entry _ _ h => some h.line
  | .l2 _ x => some x.line
  | .transfer t => some t.line
  | .memory _ l => some l
  | .bad _ l => some l
  | .unmapped => none

/-- The brick that holds the line. -/
def State.placeDie (s : State) (va : Nat) : Place → Nat
  | .entry c _ _ => dieOfCore c
  | .l2 c _ => dieOfCluster c
  | .transfer t => dieOfCore t.core
  | .memory pa _ => s.homeDie pa
  | .bad pa _ => s.homeDie pa
  | .unmapped => s.ctxHome va

/-- The directory tracks the context holder of a line: its brick holds both sectors of the line's half in M, or no brick
holds them (R65, R123). -/
def State.trackCtx (s : State) (pa va : Nat) (holder : Option Nat) : State :=
  let bricks : Quad BrickState := match holder with
    | some b => (Quad.all .i).set b .m
    | none => Quad.all .i
  let s := if holder.isSome then s.ensureDir pa va else s
  ((s.modifySector pa fun x => { x with bricks := bricks }).modifySector (pa + 64) fun x => { x with bricks := bricks }).tidyDir pa

/-- A context cache of a brick takes a line: the directory and the brick's snoop filter track it (R64, R123). -/
def State.cacheCtx (s : State) (va brick : Nat) : State :=
  match s.poolPhys va false with
  | some pa => (s.trackCtx pa va (some brick)).filterRoom brick va
  | none => s.filterRoom brick va

/-- The host's copies of a context line's two sectors are recalled (R79). -/
def State.recallHost (s : State) (pa va : Nat) : State :=
  [0, 64].foldl (fun s k => if (s.dirSector (pa + k)).host = .i then s else s.snoop .host (va + k) (pa + k) .inval) s

/-- Write a line to HBM with a new tag (R123); its units are written whole (R341), no context cache holds it, and the host's copies
are invalidated as by a store (R69, R79). -/
def State.writeCtx (s : State) (pa va : Nat) (l : Line) : State :=
  { ((s.recallHost pa va).trackCtx pa va none).markMigrations pa with
    mem := memPuts s.mem pa ({ l with tag := ctxTag s.boot.boots va l }).bytes
    poison :=
      let rest := s.poison.filter fun a => a / 128 != pa / 128
      if s.badCtxs.contains va && !l.inState .free then insertNat (pa + 64) (insertNat pa rest) else rest
    badCtxs := s.badCtxs.filter (· != va) }

/-- Replace the line where it is held. -/
def State.putLine (s : State) (va : Nat) (p : Place) (l : Line) : State :=
  match p with
  | .entry c n h => s.putHeld c n { h with line := l }
  | .l2 c x =>
    let k := s.cluster c
    s.setCluster c { k with ctxL2 := Table.set k.ctxL2 va { x with line := l } }
  | .transfer t =>
    { s with transfers := s.transfers.map fun u => if u.va = va then { t with line := l } else u }
  | .memory pa _ => s.writeCtx pa va l
  | .bad pa _ => s.writeCtx pa va l
  | .unmapped => s

/-! ## Ready queues (R311, R312) -/

/-- The on-chip entries of a Caldera. -/
def onChip : Nat := 65536

/-- The 8 bytes of a spilled entry are written at its place in the spill area; what they hold is not architectural (R311). -/
def State.spillEntry (s : State) (die i : Nat) : State :=
  let (v, s) := s.draw
  { s with mem := memPuts s.mem ((s.brick die).spillBase.toNat % 2 ^ 48 + 8 * i) (toBytes 8 v.toNat) }

/-- The entries of a Caldera change: one that comes on chip from the spill area counts its cycles from its reload, and one
that goes beyond those on chip is spilled (R311). -/
def State.setReady (s : State) (die : Nat) (r : List ReadyEntry) : State :=
  let b := s.brick die
  let spilled := fun (e : ReadyEntry) => (b.ready.drop onChip).any fun x => x.va == e.va
  let near := (r.take onChip).map fun e => if spilled e then { e with since := s.cycle } else e
  let far := r.drop onChip
  let out := (List.range far.length).filter fun i => match far[i]? with | some e => !spilled e | none => false
  out.foldl (fun s i => s.spillEntry die i) (s.setBrick die { b with ready := near ++ far })

/-- Add an entry at the tail of its level (R311). -/
def State.readyPush (s : State) (die : Nat) (e : ReadyEntry) : State := s.setReady die ((s.brick die).ready ++ [e])

/-- Remove entry n (R311). -/
def State.readyDrop (s : State) (die n : Nat) : State := s.setReady die (listErase (s.brick die).ready n)

/-- The brick of the lowest set bit of an affinity mask. -/
def lowestBrick (aff : Nat) : Nat := if bit aff 0 then 0 else if bit aff 1 then 1 else if bit aff 2 then 2 else 3

/-- Another brick that an affinity mask names, the lowest (R371). -/
def otherBrick (aff d : Nat) : Option Nat := [0, 1, 2, 3].find? fun k => k != d && bit aff k

/-- The Caldera that a READY context enters (R312): `l2` is the brick of the context L2 that holds the line. A brick that
is not LIVE passes the entry to the lowest other brick of the mask (R371). -/
def State.readyBrick (s : State) (va : Nat) (l : Line) (l2 : Option Nat) : Nat :=
  let near := l2.getD (s.ctxHome va)
  let d := if bit l.affinity near then near else lowestBrick l.affinity
  if s.dieLive d then d else (otherBrick l.affinity d).getD d

/-- A new entry of a ready queue (R312). -/
def readyEntry (va level : Nat) (st : Steal) (cycle : Nat) : ReadyEntry :=
  { va := va, level := level, gain := 0, steal := st, since := cycle, offered := false, notBefore := 0, tried := [],
    refused := false }

/-- A READY context enters a ready queue with a steal domain. -/
def State.enterReady (s : State) (va : Nat) (l : Line) (l2 : Option Nat) (st : Steal) : State :=
  s.readyPush (s.readyBrick va l l2) (readyEntry va l.priority st s.cycle)

/-- The brick of the context L2 that holds a line, for R312. -/
def Place.l2Brick : Place → Option Nat
  | .l2 c _ => some (dieOfCluster c)
  | .entry _ _ _ | .transfer _ | .memory _ _ | .bad _ _ | .unmapped => none

/-- The timed wakes of a context under a wait kind are withdrawn. -/
def State.dropTimers (s : State) (va : Nat) (kind : Nat) : State :=
  { s with timers := s.timers.filter fun (w, k, _) => w.ctx != va || k != kind }

/-- The wait of a line ends (R133): RESIDENT in a context L1, otherwise READY and into a ready queue. The timed wake of a
PAGE wait goes with the wait (R51). -/
def State.endWait (s : State) (va : Nat) (p : Place) (l : Line) : State :=
  let s := if l.waitKind = 8 then s.dropTimers va 8 else s
  let l := l.setWait 0 0
  match p with
  | .entry _ _ _ => s.putLine va p (l.setState .resident)
  | .l2 _ _ | .transfer _ | .memory _ _ | .bad _ _ | .unmapped =>
    let l := l.setState .ready
    (s.putLine va p l).enterReady va l p.l2Brick .dev

/-- A context becomes FAULTED by a reply or a timeout (R133, R339): the record goes out at once from a line outside
every context L1, and after the write-back of the eviction from one inside. -/
def State.faultAt (s : State) (va : Nat) (p : Place) (l : Line) (r : FaultRec) : State :=
  let l := { ((l.setWait 0 0).setLastFault r.code.num).setState .faulted with pc := r.pc }
  match p with
  | .entry c n h =>
    s.putHeld c n { h with line := l, draining := true, ending := .kept, records := h.records ++ [r] }
  | .l2 _ _ | .transfer _ | .memory _ _ | .bad _ _ | .unmapped => (s.putLine va p l).report r

/-- The PC that an instruction leaves behind is that of the instruction itself again when it reissues or faults. -/
def Line.backTo (l : Line) (w : Who) : Line := { l with pc := w.pc }

/-- A machine error on reading a line from HBM (R135). -/
def State.poisonCtx (s : State) (va pa : Nat) (l : Line) (w : Who) : State :=
  let bad := { l with status := BitVec.ofNat 32 (setBits (setBits l.status.toNat 17 10 0x0E) 3 0 5) }
  let s := { (s.writeCtx pa va bad) with quarantine := va :: s.quarantine }
  s.report { pc := l.pc, aux := 0#32, code := .contextPoisoned, cls := .machine, access := .none, domain := w.domain,
             part := w.part, die := s.homeDie pa, gen := l.gen, ctx := va, va := va }

/-- Whether a message has to wait at the home: a transfer or an eviction of the line is in progress (R132), or its move below the
limit waits for the head of the buffer (R129). -/
def Place.moving : Place → Bool
  | .transfer _ => true
  | .entry _ _ h => h.draining || h.kept.isSome
  | .l2 _ _ | .memory _ _ | .bad _ _ | .unmapped => false

/-- The sum of R144 is formed anew when the instruction reissues. -/
def State.clearOverran (s : State) (va : Nat) : State :=
  match s.findEntry va with
  | some (c, n, h) => s.putHeld c n { h with overran := false }
  | none => { s with overruns := s.overruns.filter (· != va) }

/-- The line is in an entry of a context L1. -/
def Place.inEntry : Place → Bool
  | .entry _ _ _ => true
  | .l2 _ _ | .transfer _ | .memory _ _ | .bad _ _ | .unmapped => false

/-- Apply a message to a line that is not moving (R133). The `call` of a context that was evicted while it was parked on its
push reissues (R136), and so does a `spawn` that waits for its line (R323). -/
def State.applyMsg (s : State) (m : Msg) : State :=
  let p := s.place m.ctx
  match p with
  | .bad pa l => s.poisonCtx m.ctx pa l m.who
  | .unmapped => s
  | .entry _ _ _ | .l2 _ _ | .transfer _ | .memory _ _ =>
    match p.line? with
    | none => s
    | some l =>
      if l.gen != m.gen || !l.inState .wait || l.waitKind != m.kind then s
      else match m.body with
        | .wake => (s.endWait m.ctx p (l.backTo m.who)).clearOverran m.ctx
        | .jump pc link =>
          if p.inEntry then s.endWait m.ctx p { l with pc := pc, link := link }
          else (s.endWait m.ctx p (l.backTo m.who)).clearOverran m.ctx
        | .done ws pf fl =>
          let l := ws.foldl (fun l (d, v) => l.setReg d v) l
          let l := match pf with | some (q, v) => l.setPredicate q v | none => l
          s.endWait m.ctx p { l with pred := l.pred ||| fl }
        | .child _ _ _ _ _ _ => (s.endWait m.ctx p (l.backTo m.who)).clearOverran m.ctx
        | .fault code acc aux fva die =>
          (s.faultAt m.ctx p l (faultRecord l m.ctx m.who.pc code .sync acc aux fva die)).clearOverran m.ctx

/-! ## Free maps and freeing (R137, R310) -/

/-- The bit of context k in the free map of its share: its byte and place. -/
def State.freeBit (s : State) (k : Nat) : Nat × Nat :=
  let base := (s.brick (k % 4)).freemapBase.toNat % 2 ^ 48
  (base + k / 4 / 8, k / 4 % 8)

def State.isFree (s : State) (k : Nat) : Bool :=
  let (a, i) := s.freeBit k
  bit (s.cohByte a).toNat i

/-- Write a bit of a free map. -/
def State.setFreeBit (s : State) (k : Nat) (v : Bool) : State :=
  let (a, i) := s.freeBit k
  s.cohPut a [BitVec.ofNat 8 (setBits (s.cohByte a).toNat i i (boolBit v))]

/-- The lowest free context of a share, from number k up by fours. -/
def State.lowestFree (s : State) : Nat → Nat → Option Nat
  | 0, _ => none
  | n + 1, k => if s.poolCount ≤ k then none else if s.isFree k then some k else State.lowestFree s n (k + 4)

/-- Reserve the lowest free context of the brick's share, or of the next share that has one (R310). -/
def State.reserveCtx (s : State) (die : Nat) : Option (Nat × State) :=
  match ([0, 1, 2, 3].findSome? fun i => s.lowestFree (s.poolCount / 4 + 1) ((die + i) % 4)) with
  | none => none
  | some k => some (k, s.setFreeBit k false)

/-- Free a context (R137): the line leaves every context cache, is zeroed in HBM with its GENERATION advanced, its
quarantine mark goes and its free-map bit is set. Where its pool page cannot be written the write of the line is dropped
(assumption 129). -/
def State.freeCtx (s : State) (va : Nat) (l : Line) : State :=
  let s := match s.place va with
    | .entry c n _ =>
      let k := (s.core c).forget va
      s.setCore c { k with entries := Table.erase k.entries n }
    | .l2 c _ =>
      let k := s.cluster c
      s.setCluster c { k with ctxL2 := Table.erase k.ctxL2 va }
    | .transfer _ | .memory _ _ | .bad _ _ | .unmapped => s
  let s := match s.poolPhys va true with
    | some pa => s.writeCtx pa va (freedLine l)
    | none => s
  { s.setFreeBit (s.ctxNumber va) true with
    quarantine := s.quarantine.filter (· != va)
    overruns := s.overruns.filter (· != va)
    skips := s.skips.filter (· != va)
    gangOut := s.gangOut.filter (· != va)
    badCtxs := s.badCtxs.filter (· != va)
    timers := s.timers.filter fun (w, _, _) => w.ctx != va }

/-! ## The context L2 (R122) -/

def ctxL2Set (va : Nat) : Nat := va / 128 % 64

/-- The line that a full set writes back: WAIT, FAULTED or HALTED, the earliest; otherwise the READY line of lowest
priority, the earliest among those; lines whose write-back waits are passed over. -/
def ctxL2Victim (xs : List (Nat × L2Ctx)) : Option (Nat × L2Ctx) :=
  let ok := xs.filter fun (_, x) => !x.wbWait
  let pick := fun (better : L2Ctx → L2Ctx → Bool) (ys : List (Nat × L2Ctx)) =>
    ys.foldl (fun best y => match best with
      | none => some y
      | some b => if better y.2 b.2 then some y else some b) (none : Option (Nat × L2Ctx))
  match pick (fun a b => decide (a.order < b.order))
      (ok.filter fun (_, x) => x.line.inState .wait || x.line.inState .faulted || x.line.inState .halted) with
  | some v => some v
  | none => pick (fun a b => decide (a.line.priority < b.line.priority) ||
      (a.line.priority == b.line.priority && decide (a.order < b.order))) ok

/-- The cycles between two tries of a write-back that met a page fault (R113). -/
def retryCycles : Nat := 4096

/-- Make room in a set of a context L2: write one chosen line back to HBM, marking those that have to wait; the state, and
whether the set has room. -/
def State.ctxL2Room (s : State) (cl va : Nat) : Nat → State × Bool
  | 0 => (s, false)
  | n + 1 =>
    let k := s.cluster cl
    let set := k.ctxL2.filter fun (v, _) => ctxL2Set v == ctxL2Set va
    if set.length < 8 then (s, true)
    else match ctxL2Victim set with
      | none => (s, false)
      | some (v, x) =>
        match s.poolPhys v true with
        | some pa => ((s.writeCtx pa v x.line).setCluster cl { k with ctxL2 := Table.erase k.ctxL2 v }, true)
        | none =>
          let y : L2Ctx := { x with wbWait := true, retryAt := s.cycle + retryCycles }
          State.ctxL2Room (s.setCluster cl { k with ctxL2 := Table.set k.ctxL2 v y }) cl va n

/-- Put a line into a context L2: the state, and whether there was room. -/
def State.ctxL2Put (s : State) (cl va : Nat) (l : Line) : State × Bool :=
  let (s, room) := s.ctxL2Room cl va 9
  if !room then (s, false)
  else
    let k := s.cluster cl
    let d := dieOfCluster cl
    let b := s.brick d
    let x : L2Ctx := { line := l, order := b.ctxL2Order, wbWait := false, retryAt := 0 }
    (((s.setCluster cl { k with ctxL2 := Table.set k.ctxL2 va x }).setBrick d { b with ctxL2Order := b.ctxL2Order + 1 }).cacheCtx
      va d, true)

/-! ## A head of a store buffer that waits for a page (R52, R129) -/

/-- The head of the buffer waits for a page of a context (R52). -/
def pageHeld (c : CoreState) (va : Nat) : Bool :=
  match c.sbPhase, c.storeBuf with
  | .page cls, h :: _ => h.who.ctx == va && cls != 3
  | _, _ => false

/-- VPN_LOW of the PAGE wait value (R49). -/
def pageValue (cls va : Nat) : Nat := cls * 2 ^ 24 + va / 2 ^ 16 % 2 ^ 24

/-- A thread that parks with CLASS 4 or 5 is woken 4,096 cycles later (R51). -/
def State.pageTimer (s : State) (w : Who) : State := { s with timers := s.timers ++ [(w, 8, s.cycle + 4096)] }

/-- The kind under which the timed wake of a held head stands beside those of its context (R129). -/
def headWake : Nat := 18

/-- A context has to leave its entry: its eviction drains, or its entry lies beyond CTXL1_LIMIT (R124, R129). -/
def CoreState.leaves (c : CoreState) (n : Nat) (h : Held) : Bool := h.draining || decide (c.ctxl1Limit ≤ n)

/-- A context that has to leave its entry and is kept there by the head of the buffer: its wait tag reads KIND PAGE with the head's
CLASS, and its own is kept beside it (R129); with CLASS 5 the head is retried 4,096 cycles later (R51). Each new hold (`again`) writes
its own CLASS. -/
def State.tagHeld (s : State) (core : Nat) (again : Bool) : State :=
  let c := s.core core
  match c.sbPhase, c.storeBuf with
  | .page cls, e :: _ =>
    match s.findEntry e.who.ctx with
    | some (k, n, h) =>
      if k = core ∧ c.leaves n h ∧ (again ∨ h.kept = none) ∧ pageHeld c h.va then
        let s := if cls = 5 then { s with timers := s.timers ++ [(e.who, headWake, s.cycle + 4096)] } else s
        s.putHeld k n { h with kept := some (h.kept.getD h.line.waitTag), line := h.line.setWait 8 (pageValue cls e.va) }
      else s
    | none => s
  | _, _ => s

/-- The head has been performed: the wait tag of its context is its own again (R129). -/
def State.untagHeld (s : State) (va : Nat) : State :=
  match s.findEntry va with
  | some (k, n, h) =>
    match h.kept with
    | some w => (s.dropTimers va headWake).putHeld k n { h with kept := none, line := { h.line with waitTag := w } }
    | none => s
  | none => s

end Sys2Proof.Machine
end

