-- ==== Sys2Proof/Machine/Banks.lean ====
section
/-!
DEFINITION. Machine/Banks.lean: what the bank of a CLM or TSP word does with one access (R31, R93, R95 to R99): loads,
stores, atomics (R272, R273), full/empty operations (R269), barrier words (R276), sync words (R105 to R107, R277, R278)
and hardware queues (R326); and the wait table (R96, R97).
-/
namespace Sys2Proof.Machine

/-! ## The arithmetic of atomics (R272, R273) -/

/-- The new value of a word of n bytes and the flags, from its old value and the operand. -/
def AtomicFn.eval (fn : AtomicFn) (n m x : Nat) : Nat × FpFlags :=
  let w := 8 * n
  let lim := 2 ^ w
  match fn with
  | .add => ((m + x) % lim, .none)
  | .and => ((m &&& x) % lim, .none)
  | .or => ((m ||| x) % lim, .none)
  | .xor => ((m ^^^ x) % lim, .none)
  | .min => (if signed w x < signed w m then x % lim else m, .none)
  | .max => (if signed w m < signed w x then x % lim else m, .none)
  | .minu => (if x % lim < m then x % lim else m, .none)
  | .maxu => (if m < x % lim then x % lim else m, .none)
  | .swap => (x % lim, .none)
  | .cas e => (if m = e % lim then x % lim else m, .none)
  | .fadd f =>
    let p := match f with | .f64 => Fmt.f64.params | .f32 => Fmt.f32.params
    match XVal.add false (decodeFloat p m) (decodeFloat p x) with
    | some v => roundF p v .rne false 0
    | none => (p.nan, { FpFlags.none with fv := true })
  | .xadd f =>
    let p := match f with | .f64 => Fmt.f64.params | .f32 => Fmt.f32.params
    (eawAdd m (decodeFloat p x), .none)
  | .qpush | .qpop => (m, .none)

/-! ## Full/empty bits (R95) -/

def State.isFull (s : State) (a : Nat) : Bool := s.full.contains (a / 4 * 4)

def State.setFull (s : State) (a : Nat) (v : Bool) : State :=
  if v then { s with full := insertNat (a / 4 * 4) s.full }
  else { s with full := s.full.filter (· != a / 4 * 4) }

/-! ## The wait table (R96, R97) -/

/-- The lowest index of 0 to n − 1 that a table does not use. -/
def freeIndex {α : Type} (t : Table α) : Nat → Nat → Option Nat
  | 0, _ => none
  | n + 1, i => if (Table.get? t i).isNone then some i else freeIndex t n (i + 1)

/-- Enlist a waiter on a word of the cluster: its entry, or none when the table is full. -/
def State.enlist (s : State) (cl : Nat) (e : WaitEntry) : Option (Nat × State) :=
  let k := s.cluster cl
  match freeIndex k.waits 256 0 with
  | some i => some (i, s.setCluster cl { k with waits := Table.set k.waits i e })
  | none => none

/-- The wait kind of a condition (R119). -/
def WaitCond.kind : WaitCond → Nat
  | .full | .empty => 3
  | .sync _ => 4
  | .bar _ _ => 5

/-- Remove the waiters of a cluster that a test selects and send each its message. -/
def State.wakeEntries (s : State) (cl : Nat) (which : WaitEntry → Bool) (body : WaitCond → MsgBody) : State :=
  let k := s.cluster cl
  let hit := k.waits.filter fun (_, e) => which e
  let s := s.setCluster cl { k with waits := k.waits.filter fun (_, e) => !which e }
  hit.foldl (fun s (_, e) => s.reply e.who e.cond.kind (body e.cond)) s

/-- Remove the waiters of a word that a test selects and send each its message. -/
def State.wakeWaiters (s : State) (a : Nat) (which : WaitCond → Bool) (body : WaitCond → MsgBody) : State :=
  s.wakeEntries (clusterAt a) (fun e => e.addr == a && which e.cond) body

/-- A write of bytes at a bank of a CLM or TSP. -/
def State.bankStore (s : State) (a : Nat) (bs : List Byte) : State :=
  { s with mem := memPuts s.mem a bs }.spoil a bs.length

/-- Hardware zeroing of a run of bytes: zero, and every full/empty bit EMPTY, for which waiters of its words are woken
(R95, R96). -/
def State.zeroRun (s : State) (a n : Nat) : State :=
  let inside := fun (w : Nat) => decide (a / 4 * 4 ≤ w) && decide (w < a + n)
  (({ s with mem := memZero s.mem a n, full := s.full.filter fun w => !inside w } : State).spoil a n).wakeEntries (clusterAt a)
    (fun e => e.cond == .empty && inside e.addr) fun _ => .wake

/-! ## Arbitration of the banks of a TSP (R99) -/

/-- The banks that an access of n bytes at an offset of a TSP meets. -/
def tspBanks (off n : Nat) : List Nat := (List.range ((n + 3) / 4)).map fun i => (off / 4 + i) % 32

/-- The router's port. -/
def routerPort : Nat := 11

/-- The port through which an access reaches the banks of a cluster: its core's, or the router's for a remote agent. -/
def portAt (cl : Nat) (w : Who) : Nat := if clusterOfCore w.core = cl then w.core % 8 else routerPort

/-- The place of a port in the round-robin order of the banks at an offset: 0 is the next in turn. -/
def ClusterState.portRank (k : ClusterState) (off port : Nat) : Nat :=
  (port + 11 - (Table.get? k.arb.last (off / 16 % 8)).getD routerPort) % 12

/-- A request that waits at a cluster's banks meets some banks there, with a test of its port and its offset. -/
def BankReq.rivals (q : BankReq) (cl : Nat) (banks : List Nat) (which : Nat → Nat → Bool) : Bool :=
  match targetOf q.addr with
  | .tsp c o => c == cl && (tspBanks o q.size).any banks.contains && which (portAt cl q.who) o
  | .clm _ _ | .paged | .reg _ _ | .hole => false

/-- The banks that a cluster has granted in this cycle, each with its port. -/
def State.grantedNow (s : State) (k : ClusterState) : List (Nat × Nat) :=
  if k.arb.cycle = s.cycle then k.arb.granted else []

/-- The unit that has waited longest among those that still ask: a unit asks in every cycle until it gets its banks. -/
def State.oldestWish (s : State) (k : ClusterState) : Option BankWish :=
  leastBy (fun x y => decide (x.since < y.since) || (x.since == y.since && decide (x.port < y.port)))
    (k.arb.wishes.filter fun x => decide (s.cycle ≤ x.asked + 1))

/-- The banks of a TSP grant an access in this cycle, or another port has them: one that they have granted already, a request or
a waiting unit whose turn comes first, or an earlier request of the same port (R99, assumption 110). -/
def State.grantBank (s : State) (cl off n port : Nat) (earlier : List BankReq) : Option State :=
  let k := s.cluster cl
  let banks := tspBanks off n
  let first := fun (p : Nat) => decide (k.portRank off p < k.portRank off port)
  if banks.any (fun b => (s.grantedNow k).any fun (c, _) => c == b) ||
      s.bankQ.any (fun q => q.rivals cl banks fun p _ => first p) ||
      (s.oldestWish k).any (fun w => w.banks.any banks.contains && first w.port) ||
      earlier.any (fun q => q.rivals cl banks fun p _ => p == port) then none
  else
    some (s.setCluster cl { k with arb := { k.arb with
      cycle := s.cycle
      granted := s.grantedNow k ++ banks.map fun b => (b, port)
      last := Table.set k.arb.last (off / 16 % 8) port } })

/-! ### The units' ports

A unit asks in one cycle for every bank that one of its steps meets (assumption 110). -/

def tilePort : Nat := 8
def copyPort : Nat := 9
def enginePort : Nat := 10

/-- The port of a copy unit at the banks of a cluster: its own, or the router's of another cluster (R99). -/
def copyPortAt (own cl : Nat) : Nat := if own = cl then copyPort else routerPort

/-- The banks that runs of bytes meet, each run by its offset and length. -/
def banksOf (runs : List (Nat × Nat)) : List Nat :=
  (List.range 32).filter fun b => runs.any fun (off, n) => decide ((b + 32 - off / 4 % 32) % 32 < (off + n + 3) / 4 - off / 4)

/-- The wish of a port, with the banks that it asks for now. -/
def ClusterState.wishFor (k : ClusterState) (cycle port : Nat) (banks : List Nat) : BankWish :=
  match k.arb.wishes.find? fun w => w.port == port && decide (cycle ≤ w.asked + 1) with
  | some w => { w with asked := cycle, banks := (w.banks ++ banks).eraseDups }
  | none => { port := port, since := cycle, asked := cycle, banks := banks }

/-- A unit asks for banks through its port: the state in which it has them, with true, or in which it waits for them, with
false, because another port has one of them in this cycle, a core's or the router's request comes first there, or another unit has
waited longer (R99). -/
def State.grantUnit (s : State) (cl port : Nat) (banks : List Nat) : State × Bool :=
  let k := s.cluster cl
  if banks.any (fun b => (s.grantedNow k).any fun (c, p) => c == b && p != port) ||
      s.bankQ.any (fun q => q.rivals cl banks fun p o => decide (k.portRank o p < k.portRank o port)) ||
      (s.oldestWish k).any (fun w => w.port != port && w.banks.any banks.contains) then
    (s.setCluster cl { k with arb := { k.arb with
      wishes := (k.arb.wishes.filter fun w => w.port != port) ++ [k.wishFor s.cycle port banks] } }, false)
  else
    let granted := s.grantedNow k ++ banks.map fun b => (b, port)
    (s.setCluster cl { k with arb := {
      cycle := s.cycle
      granted := granted
      last := (banks.map (· / 4)).eraseDups.foldl (fun t g => Table.set t g port) k.arb.last
      wishes := k.arb.wishes.filter fun w => w.port != port || !w.banks.all fun b => granted.contains (b, port) } }, true)

/-- A step of a unit that goes on once its banks are granted. -/
def State.withBanks (s : State) (cl port : Nat) (runs : List (Nat × Nat)) (go : State → State) : State :=
  match s.grantUnit cl port (banksOf runs) with
  | (s, true) => go s
  | (s, false) => s

/-- The wait value of an enlisted thread, or of one that found the table full (R96). -/
def waitValue (cl : Nat) (i : Option Nat) : Nat :=
  match i with
  | some n => cl * 2 ^ 17 + n
  | none => cl * 2 ^ 17 + 2 ^ 8

/-! ## Sync words and guards (R105 to R107) -/

/-- Arrivals advance GENERATION while COUNT reaches TARGET: the count, the generation and how often (R107). -/
def syncAdvance (target : Nat) : Nat → Nat → Nat → Nat → Nat × Nat × Nat
  | 0, count, gen, n => (count, gen, n)
  | fuel + 1, count, gen, n =>
    if target ≠ 0 ∧ target ≤ count then syncAdvance target fuel (count - target) ((gen + 1) % 2 ^ 32) (n + 1)
    else (count, gen, n)

/-- An arrival of some bytes at the sync word at a window address (R107). -/
def State.syncArrival (s : State) (a bytes : Nat) : State :=
  let w := memNat s.mem a 16
  let target := bits w 31 0
  let count := (bits w 63 32 + bytes) % 2 ^ 32
  let (count, gen, n) := syncAdvance target (if target = 0 then 0 else count / target + 1) count (bits w 95 64) 0
  let w := setBits (setBits w 63 32 count) 95 64 gen
  let w := if 1 < n then setBits w 97 97 1 else w
  let s := s.bankStore a (toBytes 16 w)
  if 0 < n then
    s.wakeWaiters a (fun c => match c with | .sync _ => true | .full | .empty | .bar _ _ => false) fun _ => .wake
  else s

/-- Bytes of [a, a + n) that lie in [b, b + m). -/
def overlapBytes (a n b m : Nat) : Nat := min (a + n) (b + m) - max a b

/-- A write that counts has been performed at a TSP: each guarded range counts its bytes (R106). -/
def State.guardedWrite (s : State) (cl off n : Nat) : State :=
  (s.cluster cl).guards.foldl (fun s (_, g) =>
    let k := overlapBytes off n g.start g.len
    if 0 < k then s.syncArrival (tspBase cl + g.sync) k else s) s

/-! ## Barrier words (R275, R276) -/

/-- The identity of an OP (R275). -/
def barrierIdentity (op : Nat) : Nat := if op = 2 then 2 ^ 63 else if op = 3 then 2 ^ 63 - 1 else 0

/-- VALUE after an arrival with x (R276). -/
def barrierCombine (op v x : Nat) : Nat :=
  match op with
  | 1 =>
    let a := x % 2 ^ 31
    let c := v % 2 ^ 32
    if (decodeFloat Fmt.f32.params (x % 2 ^ 32)).isNan || (decodeFloat Fmt.f32.params c).isNan then 0x7FC00000
    else if lessOrdered (decodeFloat Fmt.f32.params a) (decodeFloat Fmt.f32.params c) then c else a
  | 2 => if signed 64 v < signed 64 x then x else v
  | 3 => if signed 64 x < signed 64 v then x else v
  | 4 => (v + x) % 2 ^ 64
  | _ => v

/-- The arrival is refused with a bounds fault (R276). -/
def barrierBad (w : Nat) : Bool :=
  bits w 15 0 == 0 || decide (5 ≤ bits w 35 32) || decide (bits w 15 0 ≤ bits w 31 16)

/-! ## One access of a bank -/

/-- What a bank answers: a value with flags; a queue operation's result; a fault with its address; a wait, as yet not
enlisted. -/
inductive BankOut
  | value (v : Nat) (flags : FpFlags)
  | queue (v : Option Nat)
  | fault (c : FaultCode) (va : Nat)
  | wait (c : WaitCond)
  deriving DecidableEq, Repr

/-- An address lies in the code partition of a CLM (R89, R93). -/
def State.inCode (s : State) (core off : Nat) : Bool := decide (off < (s.core core).codeGranules * 0x4000)

/-- The bytes are poisoned (R341). -/
def State.anyPoison (s : State) (a n : Nat) : Bool := s.isPoisoned a || s.isPoisoned (a + n - 1)

/-- The queue header at a window address is usable (R326). -/
def queueBad (h off : Nat) : Bool :=
  let c := bits h 67 64
  c == 0 || decide (12 < c) || bits h 127 68 != 0 || bit h 63 || bit h 31 || decide (descTable < off + 16 + 8 * 2 ^ c)

/-- `qpush` and `qpop` at the bank's atomic unit (R326); a poisoned entry cannot be popped, and the fault names it
(R333, R341). -/
def State.queueOp (s : State) (a off : Nat) (push : Bool) (x : Nat) : State × BankOut :=
  let h := memNat s.mem a 16
  if queueBad h off then (s, .fault .bounds a)
  else
    let cap := 2 ^ bits h 67 64
    let tail := bits h 62 32
    let head := bits h 30 0
    let n := (tail + 2 ^ 31 - head) % 2 ^ 31
    if push then
      if n = cap then (s, .queue none)
      else
        ((s.bankStore (a + 16 + 8 * (tail % cap)) (toBytes 8 x)).bankStore a (toBytes 16 (setBits h 62 32 ((tail + 1) % 2 ^ 31))),
          .queue (some tail))
    else
      if n = 0 then (s, .queue none)
      else if s.anyPoison (a + 16 + 8 * (head % cap)) 8 then (s, .fault .poisonedData (a + 16 + 8 * (head % cap)))
      else
        let v := memNat s.mem (a + 16 + 8 * (head % cap)) 8
        (s.bankStore a (toBytes 16 (setBits h 30 0 ((head + 1) % 2 ^ 31))), .queue (some v))

/-- One barrier arrival (R276). A `barc` that does not release waits for its generation; one that would wait while the
table is full makes no arrival. -/
def State.barrierOp (s : State) (a : Nat) (wait : Bool) (d : Reg) (x : Nat) : State × BankOut :=
  let w := memNat s.mem a 16
  if barrierBad w then (s, .fault .bounds a)
  else
    let count := bits w 15 0
    let arrived := bits w 31 16 + 1
    let op := bits w 35 32
    let g := bits w 63 36
    let v := barrierCombine op (bits w 127 64) x
    if arrived = count then
      let w := setBits (setBits (setBits w 63 36 ((g + 1) % 2 ^ 28)) 31 16 0) 127 64 (barrierIdentity op)
      let s := s.bankStore a (toBytes 16 w)
      let s := s.wakeWaiters a
        (fun c => match c with | .bar h _ => h == g | .full | .empty | .sync _ => false)
        (fun c => match c with
          | .bar _ r => .done [(r, BitVec.ofNat 64 v)] none 0
          | .full | .empty | .sync _ => .wake)
      (s, .value (if wait then v else g) .none)
    else if wait && (freeIndex (s.cluster (clusterAt a)).waits 256 0).isNone then (s, .wait (.bar g d))
    else
      let s := s.bankStore a (toBytes 16 (setBits (setBits w 31 16 arrived) 127 64 v))
      (s, if wait then .wait (.bar g d) else .value g .none)

/-- `sarm` (R278): arm or release a guard of the cluster. -/
def State.guardOp (s : State) (cl a : Nat) (off : Bool) (start len : Nat) : State × BankOut :=
  let k := s.cluster cl
  let w := memNat s.mem a 16
  let sync := a - tspBase cl
  if off then
    match k.guards.find? fun (_, g) => g.sync == sync with
    | some (i, _) =>
      let s := s.setCluster cl { k with guards := Table.erase k.guards i }
      (s.bankStore a (toBytes 16 (setBits w 96 96 0)), .queue (some i))
    | none => (s, .queue none)
  else if k.guards.any fun (_, g) => decide (0 < overlapBytes start len g.start g.len) then (s, .queue none)
  else
    match freeIndex k.guards 16 0 with
    | none => (s, .queue none)
    | some i =>
      let g : GuardRange := { start := start, len := len, sync := sync }
      let s := s.setCluster cl { k with guards := Table.set k.guards i g }
      (s.bankStore a (toBytes 16 (setBits w 96 96 1)), .queue (some i))

/-- The destination of a reply, for the waiter of a barrier. -/
def ReplyTo.dest : ReplyTo → Reg
  | .reg d _ _ => d
  | .pair d => d
  | .subscribed d _ => d
  | .queue d _ => d
  | .nothing | .reissue | .jump _ _ => 0

/-- A bank performs one access to a word of a CLM or TSP (R31, R93, R95). -/
def State.bankDo (s : State) (r : BankReq) : State × BankOut :=
  let code := match targetOf r.addr with
    | .clm core off => s.inCode core off
    | .tsp _ _ | .paged | .reg _ _ | .hole => false
  let cl := clusterAt r.addr
  let a := r.addr
  match r.op with
  | .load => if s.anyPoison a r.size then (s, .fault .poisonedData a) else (s, .value (memNat s.mem a r.size) .none)
  | .subscribe f _ =>
    if s.anyPoison a r.size then (s, .fault .poisonedData a)
    else (s, .value (toSub 0 f (memNat s.mem a 4)) .none)
  | .store bs => if code then (s, .fault .protection a) else (s.bankStore a bs, .value 0 .none)
  | .atomic fn x =>
    if code then (s, .fault .protection a)
    else if s.anyPoison a r.size then (s, .fault .poisonedData a)
    else match fn with
      | .qpush => s.queueOp a (a - tspBase cl) true x
      | .qpop => s.queueOp a (a - tspBase cl) false x
      | _ =>
        let m := memNat s.mem a r.size
        let (v, fl) := fn.eval r.size m x
        (s.bankStore a (toBytes r.size v), .value m fl)
  | .feset v =>
    if code then (s, .fault .protection a)
    else
      let s := s.setFull a v
      (s.wakeWaiters a (fun c => c == if v then .full else .empty) fun _ => .wake, .value 0 .none)
  | .ldfe =>
    if code then (s, .fault .protection a)
    else if s.anyPoison a 4 then (s, .fault .poisonedData a)
    else if s.isFull a then
      let v := memNat s.mem a 4
      let s := (s.setFull a false).wakeWaiters a (fun c => c == .empty) fun _ => .wake
      (s, .value v .none)
    else (s, .wait .full)
  | .stfe v =>
    if code then (s, .fault .protection a)
    else if s.isFull a then (s, .wait .empty)
    else
      let s := ((s.bankStore a (toBytes 4 v.toNat)).setFull a true).wakeWaiters a (fun c => c == .full) fun _ => .wake
      (s, .value 0 .none)
  | .barrier w x => if s.anyPoison a 16 then (s, .fault .poisonedData a) else s.barrierOp a w r.reply.dest x.toNat
  | .swait g =>
    if s.anyPoison a 16 then (s, .fault .poisonedData a)
    else
    let now := bits (memNat s.mem a 16) 95 64
    if now = g.toNat then (s, .wait (.sync g)) else (s, .value now .none)
  | .sarm off start len _ => if s.anyPoison a 16 then (s, .fault .poisonedData a) else s.guardOp cl a off start len
  | .cwb | .cinv | .prefetch _ | .notice _ => (s, .value 0 .none)

end Sys2Proof.Machine
end

