-- ==== Sys2Proof/Machine/Access.lean ====
section
/-!
DEFINITION. Machine/Access.lean: the core's side of a memory access: forming and checking the address (R257 to R259,
R39), the store buffer and its forwarding (R260, R261), fences (R263), and loads, stores and atomics as they leave the
core.
-/
namespace Sys2Proof.Machine

/-- The context in the barrel as the cause of an access. -/
def Barrel.who (b : Barrel) : Who :=
  { ctx := b.held.va, gen := b.held.line.gen, domain := BitVec.ofNat 16 b.held.line.domain,
    part := BitVec.ofNat 8 b.held.line.partition, core := b.core, pc := b.held.line.pc, word := b.word }

/-- The instruction parks until its reply, with the PC of the next instruction; a wake or a fault goes back to it. -/
def State.parkAdvance (s : State) (b : Barrel) (kind value : Nat) : State :=
  s.complete b ((b.held.line.setWait kind value).setState .wait)

/-- The wait value of KIND MEM for a reply (R119). -/
def ReplyTo.memValue : ReplyTo → Nat
  | .reg d _ _ => d.val
  | .pair d => 16 + d.val
  | .subscribed d _ => d.val
  | .queue d _ => d.val
  | .nothing | .reissue | .jump _ _ => 8

/-! ## Checks (R257, R259) -/

/-- The kinds of access that R259 tells apart. -/
inductive AccClass | plain | pair | sub | fe | cache | bar | atomic | queue
  deriving DecidableEq, Repr

inductive TargetVerdict | ok | prot | mis | noEffect
  deriving DecidableEq, Repr

/-- What the issuing core finds from the address alone for an access of n bytes (R98, R257 check 4, R259, R326): of the
register window it refuses what is 16 bytes wide or wider, and the block decides on every other access (R30). -/
def targetVerdict (c : AccClass) (n : Nat) (t : Target) : TargetVerdict :=
  match t with
  | .hole => .prot
  | .paged => .ok
  | .reg _ _ =>
    match c with
    | .plain | .sub | .fe | .atomic => if n < 16 then .ok else .mis
    | .pair => .mis
    | .cache => .noEffect
    | .bar | .queue => .prot
  | .clm _ _ =>
    match c with
    | .plain | .pair | .sub | .fe | .atomic => .ok
    | .cache => .noEffect
    | .bar | .queue => .prot
  | .tsp _ off =>
    if c = .cache then .noEffect
    else if descTable ≤ off then .prot
    else .ok

/-- An address operand under a SPACE: its virtual address, or none when it is out of range (R27, R257 check 1). -/
def spaceAddr (core : Nat) (y : Space) (ea : Nat) : Option Nat :=
  match y with
  | .g => if ea < 2 ^ 56 then some ea else none
  | .l => if ea < clmSize then some (clmBase core + ea) else none
  | .t => if ea < tspSize then some (tspBase (clusterOfCore core) + ea) else none

/-- The address of an access under a SPACE, in range or not, as its fault record gives it (R257, R333). -/
def spaceFaultAddr (core : Nat) (y : Space) (ea : Nat) : Nat :=
  match y with
  | .g => ea % 2 ^ 56
  | .l => (clmBase core + ea) % 2 ^ 56
  | .t => (tspBase (clusterOfCore core) + ea) % 2 ^ 56

/-- A PLB miss: the thread parks with KIND PAGE, class 0, and the core refills (R39). -/
def State.plbMiss (s : State) (b : Barrel) (va : Nat) : State :=
  let f : PlbFill := { core := b.core, who := b.who, va := va }
  { s with plbFills := s.plbFills ++ [f] }.park b 8 (pageValue 0 va)

/-- Check the rights of an access at issue (R36, R39). -/
def withRights (s : State) (b : Barrel) (va : Nat) (n : Rights) (acc : AccessKind) (go : State → Result) : Result :=
  match s.checkRights b.core b.held.va b.held.line.domain va n with
  | .ok => go s
  | .violation => .next (s.fault b .protection acc va)
  | .denied =>
    let s := s.setCore b.core ((s.core b.core).useDenied b.held.va va)
    .next (s.fault b .protection acc va)
  | .miss => .next (s.plbMiss b va)

/-- Form and check an access (R257): range, alignment, rights, target. -/
def withAccess (s : State) (b : Barrel) (y : Space) (ea size : Nat) (c : AccClass) (n : Rights) (acc : AccessKind)
    (go : State → Nat → Target → Result) : Result :=
  match spaceAddr b.core y ea with
  | none => .next (s.fault b .protection acc (spaceFaultAddr b.core y ea))
  | some va =>
    if c ≠ .cache ∧ va % size ≠ 0 then .next (s.fault b .misaligned acc va)
    else withRights s b va n acc fun s =>
      match targetVerdict c size (targetOf va) with
      | .ok => go s va (targetOf va)
      | .prot => .next (s.fault b .protection acc va)
      | .mis => .next (s.fault b .misaligned acc va)
      | .noEffect => .next (s.complete b b.held.line)

/-! ## The store buffer (R260, R261) -/

def sbSize : Nat := 32

def SbEntry.of (e : SbEntry) (ctx : Nat) : Bool := e.who.ctx == ctx

/-- The entry is one of the context and touches bytes of an access. -/
def SbEntry.meets (e : SbEntry) (ctx va size : Nat) : Bool :=
  e.of ctx && decide (e.va < va + size) && decide (va < e.va + e.size)

/-- The buffer of a core holds an entry of a context, or the NACK of one is on its way (R130, R340). -/
def State.buffered (s : State) (core ctx : Nat) : Bool :=
  ((s.core core).storeBuf.any fun e => e.of ctx) || s.nacks.any fun (c, _, _) => c == ctx

/-- The thread parks until the buffer has changed, and reissues (R260, R261). -/
def State.awaitBuffer (s : State) (b : Barrel) : State :=
  let c := s.core b.core
  (s.setCore b.core { c with sbWaiters := c.sbWaiters ++ [b.who] }).park b 1 8

/-- The thread waits for the head of its buffer, which a page or a migration freeze holds, with its CLASS; the timed wake of
CLASS 5 counts from this park (R49, R51, R52). -/
def State.awaitHead (s : State) (b : Barrel) (cls va : Nat) : State :=
  (if cls = 5 then s.pageTimer b.who else s).park b 8 (pageValue cls va)

/-- Enter the buffer, or wait for a free entry: with KIND PAGE when its head is held for this context (R52, R260). -/
def State.enqueue (s : State) (b : Barrel) (e : SbEntry) (go : State → State) : State :=
  let c := s.core b.core
  if c.storeBuf.length < sbSize then go (s.setCore b.core { c with storeBuf := c.storeBuf ++ [e] })
  else
    match c.sbPhase, c.storeBuf with
    | .page cls, h :: _ => if h.of b.held.va then s.awaitHead b cls h.va else s.awaitBuffer b
    | _, _ => s.awaitBuffer b

/-- What the buffer has for a load of a context (R261): nothing, every byte, or a part. -/
inductive Forward
  | none
  | bytes (bs : List Byte)
  | part
  deriving DecidableEq, Repr

def forwardFrom (ctx va size : Nat) : List SbEntry → Forward
  | [] => .none
  | e :: es =>
    match forwardFrom ctx va size es with
    | .none =>
      if e.meets ctx va size then
        match e.op with
        | .store bs => if e.va ≤ va ∧ va + size ≤ e.va + e.size then .bytes ((bs.drop (va - e.va)).take size) else .part
        | .atomic _ _ => .part
        | _ => .none
      else .none
    | f => f

/-! ## Scopes and fences (R262, R263) -/

def scopeRank : Scope → Nat | .core => 0 | .clu => 1 | .die => 2 | .dev => 3 | .sys => 4

/-- The target scope of an address (R262). -/
def targetScope (core : Nat) (t : Target) : Scope :=
  let at_ := fun cl => if cl = clusterOfCore core then Scope.clu
    else if dieOfCluster cl = dieOfCore core then .die else .dev
  match t with
  | .clm c _ => if c = core then .core else at_ (clusterOfCore c)
  | .tsp cl _ => at_ cl
  | .paged | .reg _ _ | .hole => .sys

/-- The probes of a fence (R263): a brick and a slice group for each TOUCHED bit; at device and system scope the slice groups of its
own brick in which the context has read a store that was still pending (R293, assumption 125); and at system scope the host port (100)
and the optical ports (101 and up) that the context has written through. -/
def fenceProbes (b : Barrel) (sc : Scope) : List (Nat × Nat) :=
  let groups := (List.range 16).filter fun g => bit b.held.line.touched g
  let read := if 3 ≤ scopeRank sc then b.held.observed.map fun va => (dieOfCore b.core, cachingSlice va / 4) else []
  let bricks := if scopeRank sc = 2 then [dieOfCore b.core] else if 2 < scopeRank sc then [0, 1, 2, 3] else []
  (bricks.flatMap fun d => groups.map fun g => (d, g)) ++ read ++
    (if sc = .sys then b.held.ports.map fun p => (if p = 8 then 100 else 101 + p, 0) else [])

/-- A deferred-store fault at a drain (R130, R302, R340): CLASS 2, ACCESS 1, PC := DEFERRED_PC, AUX the PC of the
drain. -/
def State.deferredFault (s : State) (b : Barrel) : State :=
  let l := b.held.line
  let r := faultRecord l b.held.va l.deferredPc .deferredStore .deferred .store l.pc 0 (dieOfCore b.core)
  { s with barrel := some { b with held := { b.held with
      line := (l.setLastFault FaultCode.deferredStore.num).setState .faulted, records := b.held.records ++ [r] } } }

/-- The steps of a fence (R263); `check` says whether DEFERRED_PC is checked. The continuation gets the context with
TOUCHED cleared as step 4 gives. -/
def withFence (s : State) (b : Barrel) (sc : Scope) (check : Bool) (go : State → Barrel → Result) : Result :=
  let c := s.core b.core
  if s.buffered b.core b.held.va then
    match c.sbPhase, c.storeBuf with
    | .page cls, h :: _ => .next (if h.of b.held.va then s.awaitHead b cls h.va else s.awaitBuffer b)
    | _, _ => .next (s.awaitBuffer b)
  else
    let probes := fenceProbes b sc
    let done := match b.held.fenced with | some f => decide (scopeRank sc ≤ scopeRank f) | none => false
    if !done && !probes.isEmpty then
      let f : FenceProbe := { who := b.who, scope := sc, probes := probes, echoed := [] }
      .next ({ s with fences := s.fences ++ [f] }.park b 1 8)
    else
      let l := if 3 ≤ scopeRank sc then b.held.line.setTouched 0 else b.held.line
      let b := { b with held := { b.held with line := l, ports := if sc = .sys then [] else b.held.ports,
                                              observed := if 3 ≤ scopeRank sc then [] else b.held.observed } }
      if check && l.deferredPc != 0 then .next (s.deferredFault b) else go { s with barrel := some b } b

/-- An acquire at device or system scope applies what has reached the brick (R294). -/
def State.acquire (s : State) (core : Nat) (sc : Scope) : State :=
  if 3 ≤ scopeRank sc then s.acquireAt (dieOfCore core) else s

/-! ## What a bank answers in the barrel -/

/-- The instruction in the barrel is answered by a bank at once. -/
def State.bankReply (s : State) (b : Barrel) (out : BankOut) (addr : Nat) (acc : AccessKind)
    (line : Line → Option Nat → Line) : State :=
  match out with
  | .value v fl => s.complete b ((line b.held.line (some v)).raise fl)
  | .queue v => s.complete b (line b.held.line v)
  | .fault c va => s.takeFault b b.held.line c acc (if c = .poisonedData then 0 else b.word) va
  | .wait c =>
    let cl := clusterAt addr
    let k := s.cluster cl
    let lim := if c.kind = 3 then k.feLimit.toNat else k.barLimit.toNat
    match s.enlist cl { who := b.who, addr := addr, cond := c, since := s.cycle, limit := lim } with
    | some (i, s) => (if c.kind = 5 then s.parkAdvance b else s.park b) c.kind (waitValue cl (some i))
    | none => ({ s with noents := s.noents ++ [(b.who, c.kind, s.cycle)] }).park b c.kind (waitValue cl none)

/-- Write the registers of a reply into a line. -/
def Line.writes (l : Line) (ws : List (Reg × BitVec 64)) : Line := ws.foldl (fun l (d, v) => l.setReg d v) l

/-- A window target that the core reaches inside the barrel: its own CLM, or its own cluster's TSP (R89, R99). -/
def nearTarget (core : Nat) (t : Target) : Bool :=
  match t with
  | .clm c _ => c == core
  | .tsp cl _ => cl == clusterOfCore core
  | .paged | .reg _ _ | .hole => false

/-- The near bank performs an access within the barrel, or another port has the bank in this cycle (R99). -/
def State.nearBank (s : State) (b : Barrel) (t : Target) (r : BankReq) : Option (State × BankOut) :=
  match t with
  | .tsp cl off => (s.grantBank cl off r.size (portAt cl b.who) s.bankQ).map fun s => s.bankDo r
  | .clm _ _ | .paged | .reg _ _ | .hole => some (s.bankDo r)

/-- Send an access to a bank or a register block and park until its reply. -/
def State.toBank (s : State) (b : Barrel) (addr size : Nat) (op : AccessOp) (reply : ReplyTo) (acq : Bool) : State :=
  let r : BankReq :=
    { who := b.who, addr := addr, size := size, op := op, reply := reply, posted := false, acq := acq }
  let s := { s with bankQ := s.bankQ ++ [r] }
  if reply = .reissue then s.park b 1 8 else s.parkAdvance b 1 reply.memValue

/-- Send an access to the translation unit and park until its reply. -/
def State.toHome (s : State) (b : Barrel) (va size : Nat) (op : AccessOp) (reply : ReplyTo) (acq : Bool) : State :=
  let r : Req := { who := b.who, va := va, size := size, op := op, reply := reply, phase := .xlat, posted := false,
                   acq := acq, heldUntil := 0, via := none }
  let s := { s with reqs := s.reqs ++ [r] }
  if reply = .reissue then s.park b 1 8 else s.parkAdvance b 1 reply.memValue

/-! ## Loads -/

/-- Bytes of a sector as a number. -/
def sectorNat (d : BitVec 512) (va size : Nat) : Nat := d.toNat / 2 ^ (8 * (va % 64)) % 2 ^ (8 * size)

/-- The sector is poisoned where the brick's L2 line puts it, or the brick's copy has an uncorrectable error (R341). -/
def State.linePoison (s : State) (brick va : Nat) : Bool :=
  match Table.get? (s.l2.get brick) (lineOfAddr va) with
  | some l => s.isPoisoned (l.pa + va % 256) || s.badCopies.contains (brick, sectorOf (l.pa + va % 256))
  | none => false

/-- A store of a brick that its home has taken and whose sharers have still to acknowledge is pending at the brick's caching
slice, which serves it to the brick's own loads (R69, R288): the bytes of the latest one that covers the load. -/
def State.pendingStore (s : State) (brick va size : Nat) : Option (List Byte) :=
  s.reqs.reverse.findSome? fun r => match r.op, r.phase with
    | .store bs, .acks _ _ _ =>
      if dieOfCore r.who.core = brick ∧ r.va ≤ va ∧ va + size ≤ r.va + r.size then some ((bs.drop (va - r.va)).take size)
      else none
    | _, _ => none

/-- A store of a brick in one of some sectors waits for the acknowledgements of its home. -/
def State.pendingIn (s : State) (brick : Nat) (sectors : List Nat) : Bool :=
  s.reqs.any fun r => match r.op, r.phase with
    | .store _, .acks _ _ _ => dieOfCore r.who.core == brick && sectors.contains (sectorOf r.va)
    | _, _ => false

/-- The context has read a pending store of its brick, and its later releases order that store too (R293). -/
def Barrel.observes (b : Barrel) (va : Nat) : Barrel :=
  { b with held := { b.held with
      observed := if b.held.observed.contains (sectorOf va) then b.held.observed else b.held.observed ++ [sectorOf va] } }

/-- MASTER of the page of an address as the brick sees it: from its L2 line or its translation. -/
def State.masterOf (s : State) (brick va : Nat) : Nat :=
  match Table.get? (s.l2.get brick) (lineOfAddr va) with
  | some l => l.master
  | none => match s.translate brick va false with
    | .ok e => if s.inPool va then 0 else pteMaster e
    | .error _ => 0

/-- An L2 slice with its brick: that of the home, or that of a brick that caches the sector. -/
def CombineEntry.unit (c : CombineEntry) (s : State) : Nat × Nat :=
  match c.slice with
  | some (b, va) => (b, cachingSlice va)
  | none => (s.homeDie c.pa, homeSlice c.pa)

def combineCycles : Nat := 16
def combineMembers : Nat := 16
def combineEntries : Nat := 32

/-- A slice's combining front end has a free entry (R87). -/
def State.combineRoom (s : State) (unit : Nat × Nat) : Bool :=
  decide ((s.combine.filter fun c => c.unit s == unit).length < combineEntries)

/-- An entry stands at the caching slice of a brick on a sector. -/
def CombineEntry.sliceAt (c : CombineEntry) (b va : Nat) : Bool :=
  c.slice.any fun (d, a) => d == b && sectorOf a == sectorOf va

/-- The physical address of an access to a sector that its brick holds. -/
def State.ownedPa (s : State) (brick va : Nat) : Nat :=
  ((Table.get? (s.l2.get brick) (lineOfAddr va)).map fun l => l.pa + va % 256).getD 0

/-- A group of atomics is open on a sector at the caching slice of a brick that owns it (R87). -/
def State.sliceOpen (s : State) (brick va : Nat) : Bool := s.combine.any fun c => c.load.isNone && c.sliceAt brick va

/-- The entries of loads of a sector at the caching slice of a brick close (R87). -/
def State.closeLoads (s : State) (brick va : Nat) : State :=
  { s with combine := s.combine.filter fun c => c.load.isNone || !c.sliceAt brick va }

/-- An entry of loads of a word at the caching slice of a brick. -/
def CombineEntry.loadsAt (c : CombineEntry) (brick word : Nat) : Bool := c.load.isSome && c.slice == some (brick, word)

/-- The entry takes one more load. -/
def CombineEntry.countLoad (c : CombineEntry) : CombineEntry := { c with load := c.load.map fun (v, n) => (v, n + 1) }

/-- A load that the caching slice of a brick executes joins the entry of its aligned 8-byte word or opens one; a wider load closes
the entries of its sector (R87, assumption 108). -/
def State.sliceLoad (s : State) (brick va size : Nat) (d : BitVec 512) : State :=
  let w := va / 8 * 8
  let takes := fun (c : CombineEntry) => c.loadsAt brick w && decide (s.cycle < c.openedAt + combineCycles) &&
    c.load.any fun (_, n) => decide (n < combineMembers)
  if 8 < size then s.closeLoads brick va
  else if s.combine.any takes then { s with combine := s.combine.map fun c => if takes c then c.countLoad else c }
  else if s.combineRoom (brick, cachingSlice w) && !s.combine.any (fun c => c.loadsAt brick w) then
    { s with combine := s.combine ++
        [{ pa := s.ownedPa brick w, size := 8,
           openedAt := s.cycle, members := [], slice := some (brick, w),
           load := some (BitVec.ofNat 64 (sectorNat d w 8), 1), closing := false }] }
  else s

/-- The data L1 of a cluster holds the sector at full precision. -/
def State.inL1 (s : State) (cl va : Nat) : Bool :=
  let c := s.l1Copy cl va
  c.st == .s || c.st == .e || c.st == .m

/-- A full-precision read that the brick can serve (R67): the data and the state after it. One that reaches the caching slice
while a group is open on the sector has to wait until the group has closed (R87). -/
def State.cachedRead (s : State) (cl va : Nat) : Option (BitVec 512 × State) :=
  let c := s.l1Copy cl va
  if c.st = .s ∨ c.st = .e ∨ c.st = .m then some (c.data, s.fillL1 cl va c)
  else if s.sliceOpen (dieOfCluster cl) va then none
  else (s.brickData (dieOfCluster cl) va).map fun d => (d, s.shareInBrick cl va d)

/-- A copy is subscribed at a format. -/
def SecCopy.subAt (c : SecCopy) (f : Fmt) : Bool := match c.st with | .sub g _ => g == f | .i | .s | .e | .m => false

/-- A subscribed read at F that the brick can serve: a hit in SUB(F) in the cluster's data L1 or in the caching slice, or a
full-precision copy converted (R67, R75). One at the slice closes the entries of loads there (R87). -/
def State.cachedSub (s : State) (cl va master : Nat) (f : Fmt) : Option (Nat × State) :=
  let b := dieOfCluster cl
  let c := s.l1Copy cl va
  let x := s.l2Copy b va
  let n := masterSize master
  if c.subAt f then some (sectorNat c.data va n, s.fillL1 cl va c)
  else if x.subAt f && !s.inL1 cl va then 
    some (sectorNat x.data va n, (((s.closeLoads b va).filterRoom b va).fillL1 cl va x).trimFormats (s.ownedPa b va) va b)
  else (s.cachedRead cl va).map fun (d, t) =>
    (toSub master f (sectorNat d va n), if s.inL1 cl va then t else t.closeLoads b va)

/-- A load that the brick can serve; one that misses the cluster's data L1 is executed at the caching slice (R67, R87). -/
def State.cachedLoad (s : State) (cl va size : Nat) : Option (Nat × State) :=
  (s.cachedRead cl va).map fun (d, t) =>
    (sectorNat d va size, if s.inL1 cl va then t else t.sliceLoad (dieOfCluster cl) va size d)

/-- Complete a load in the barrel with the value v at its target. -/
def State.loaded (s : State) (b : Barrel) (reply : ReplyTo) (v : Nat) (o : Option Scope) : State :=
  ((match o with | some sc => s.acquire b.core sc | none => s)).complete b (b.held.line.writes (reply.writes v))

/-- A load of n bytes after its checks (R261, R265 to R267). -/
def loadFrom (s : State) (b : Barrel) (va size : Nat) (t : Target) (op : AccessOp) (reply : ReplyTo) (o : Option Scope)
    (acc : AccessKind) : Result :=
  let acq := match o with | some sc => decide (3 ≤ scopeRank sc) | none => false
  let brick := dieOfCore b.core
  let conv := fun m v => match op with
    | .subscribe f _ => toSub m f v
    | _ => v
  match forwardFrom b.held.va va size (s.core b.core).storeBuf with
  | .bytes bs => .next (s.loaded b reply (conv (s.masterOf brick va) (ofBytes bs)) o)
  | .part => .next (s.awaitBuffer b)
  | .none =>
    match t with
    | .paged =>
      let hit := match op with
        | .subscribe f _ => s.cachedSub (clusterOfCore b.core) va (s.masterOf brick va) f
        | _ => s.cachedLoad (clusterOfCore b.core) va size
      match hit with
      | some (v, s') =>
        if s.linePoison brick va then .next (s.takeFault b b.held.line .poisonedData acc 0 va)
        else .next (s'.loaded b reply v o)
      | none =>
        match s.pendingStore brick va size with
        | some bs => .next (s.loaded (b.observes va) reply (conv (s.masterOf brick va) (ofBytes bs)) o)
        | none => .next (s.toHome b va size op reply acq)
    | .clm _ _ | .tsp _ _ | .reg _ _ | .hole =>
      if nearTarget b.core t then
        match s.nearBank b t { who := b.who, addr := va, size := size, op := op, reply := reply, posted := false, acq := acq } with
        | some (s, out) =>
          let s := match out, o with
            | .value _ _, some sc => s.acquire b.core sc
            | _, _ => s
          .next (s.bankReply b out va acc fun l v => l.writes (reply.writes (v.getD 0)))
        | none => .next (s.toBank b va size op reply acq)
      else .next (s.toBank b va size op reply acq)

/-! ## Stores -/

/-- An access that enters the store buffer as a posted store and completes there (R260). -/
def storeTo (s : State) (b : Barrel) (y : Space) (va size : Nat) (t : Target) (op : AccessOp) (acc : AccessKind) : Result :=
  let ownCode : Bool := match t with
    | .clm c off => y == Space.l && c == b.core && s.inCode c off
    | .tsp _ _ | .paged | .reg _ _ | .hole => false
  if ownCode then .next (s.fault b .protection acc va)
  else
    .next (s.enqueue b { who := b.who, va := va, size := size, op := op, reply := .nothing, posted := true, acq := false }
      fun s => s.complete b b.held.line)

/-- A store with its ordering scope: a release performs the steps of a fence first (R262). -/
def storeOrd (s : State) (b : Barrel) (y : Space) (va size : Nat) (t : Target) (op : AccessOp) (o : Option Scope) : Result :=
  match o with
  | none => storeTo s b y va size t op .store
  | some sc => withFence s b sc true fun s b => storeTo s b y va size t op .store

/-! ## Atomics -/

/-- An atomic after its checks (R271): in the barrel at the core's own CLM when the buffer holds no entry of the
context, otherwise through the store buffer. -/
def atomicTo (s : State) (b : Barrel) (va size : Nat) (t : Target) (fn : AtomicFn) (x : Nat) (reply : ReplyTo)
    (ord : AOrd) (body : Line → Option Nat → Line) : Result :=
  let sc := targetScope b.core t
  let acq := (ord == .acq || ord == .ar) && decide (3 ≤ scopeRank sc)
  let own := match t with
    | .clm c _ => c == b.core
    | .tsp _ _ | .paged | .reg _ _ | .hole => false
  let send := fun (s : State) (b : Barrel) =>
    if own && !s.buffered b.core b.held.va then
      let (s, out) := s.bankDo { who := b.who, addr := va, size := size, op := .atomic fn x, reply := reply,
                                 posted := false, acq := acq }
      Host.Outcome.next (s.bankReply b out va .atomic body)
    else
      .next (s.enqueue b
        { who := b.who, va := va, size := size, op := .atomic fn x, reply := reply, posted := false, acq := acq }
        fun s => s.parkAdvance b 1 reply.memValue)
  if ord = .rel ∨ ord = .ar then withFence s b sc true send else send s b

end Sys2Proof.Machine
end

