-- ==== Sys2Proof/Machine/Replies.lean ====
section
/-!
DEFINITION. Machine/Replies.lean: how an access that has left its core ends: its completion, its fault (R332, R333), the
deferred error of a posted store (R340), the waits that a unit gives it (R49, R96), and its page-fault message (R50 to
R52).
-/
namespace Sys2Proof.Machine

/-! ## Faults found by a unit -/

/-- The ACCESS kind of an operation (R332). -/
def AccessOp.access : AccessOp → AccessKind
  | .load | .ldfe | .swait _ => .load
  | .subscribe _ _ => .subscribed
  | .store _ | .feset _ | .stfe _ | .cwb | .cinv => .store
  | .atomic _ _ | .barrier _ _ | .sarm _ _ _ _ => .atomic
  | .prefetch _ | .notice _ => .none

/-- The page-fault ACCESS code (R50). -/
def AccessKind.num : AccessKind → Nat
  | .load => 0 | .store => 1 | .atomic => 2 | .subscribed => 3 | .copySrc => 4 | .copyDst => 5 | .overlay => 6
  | .engine => 7 | .none => 8

/-- The word is one of majors 0x40 to 0x53, a tile or matrix instruction. -/
def tileWord (w : BitVec 32) : Bool := decide (0x40 ≤ w.toNat / 2 ^ 25) && decide (w.toNat / 2 ^ 25 ≤ 0x53)

/-- The word is a load with an ordering scope of the device or the system (majors 0x54, 0x56, 0x58), an `ldfe` (0x5A), or an
atomic with `.acq` or `.ar` (0x60 to 0x67): its reply completes an acquire (R262, R292). At a narrower target scope the reply
applies what has reached the brick sooner than it must (R291). -/
def acquireWord (w : BitVec 32) : Bool :=
  let m := w.toNat / 2 ^ 25
  if m = 0x54 ∨ m = 0x56 ∨ m = 0x58 then decide (bits w.toNat 24 23 < 2) && decide (4 ≤ bits w.toNat 9 7)
  else m == 0x5A || (decide (0x60 ≤ m) && decide (m ≤ 0x67) && bit w.toNat 2)

/-- AUX of a fault found away from the core (R333): the operand word with OPERAND 15 for a tile or matrix instruction, 0 for
poisoned data, otherwise the instruction word. -/
def replyAux (w : Who) (c : FaultCode) : BitVec 32 :=
  match c with
  | .protection | .bounds | .staleHandle => if tileWord w.word then 0xF0000000#32 else w.word
  | .poisonedData => if tileWord w.word then 0xF0000000#32 else 0
  | .illegalEncoding | .misaligned | .branchToHeader | .branchToLiteral | .unsupportedAtomic | .feTimeout | .barTimeout
  | .deferredStore | .trap | .contextPoisoned | .refreshFailed | .homeOffline | .noCircuit => w.word

/-- The head of a store buffer leaves it; every thread that waits for the buffer reissues (R260), and a context that the
head kept in its entry has its own wait tag again (R129). -/
def State.popBuffer (s : State) (core : Nat) : State :=
  let c := s.core core
  let s := s.setCore core { c with storeBuf := c.storeBuf.drop 1, sbPhase := .idle, sbWaiters := [] }
  let s := match c.storeBuf with
    | e :: _ => s.untagHeld e.who.ctx
    | [] => s
  c.sbWaiters.foldl (fun s w => s.reply w 1 .wake) s

/-- An operation that keeps the head of the buffer until its target has performed it. -/
def AccessOp.holdsHead : AccessOp → Bool
  | .store _ | .feset _ => true
  | .load | .subscribe _ _ | .atomic _ _ | .ldfe | .stfe _ | .barrier _ _ | .swait _ | .sarm _ _ _ _ | .cwb | .cinv
  | .prefetch _ | .notice _ => false

/-- An access completes with a value and flags. -/
def State.accessDone (s : State) (w : Who) (op : AccessOp) (posted : Bool) (reply : ReplyTo) (v : Nat)
    (flags : BitVec 32) : State :=
  let s := if op.holdsHead then s.popBuffer w.core else s
  if posted then s else s.reply w 1 (reply.body v flags)

/-- The DETAIL that an entry gives, or a free value where the spec states none. -/
def State.detailOf (s : State) (detail : Option Nat) : Nat × State :=
  match detail with
  | some d => (d, s)
  | none =>
    let (v, s) := s.draw
    (v.toNat % 2 ^ 32, s)

/-- An access fails at the unit of a brick: a TARGET_REFUSED entry where the unit refuses it, then the fault in its reply,
or the NACK of a posted store (R57, R340). -/
def State.accessFault (s : State) (w : Who) (va : Nat) (op : AccessOp) (posted : Bool) (die : Nat) (c : FaultCode)
    (detail : Option Nat) (log : Bool) : State :=
  match op with
  | .prefetch _ | .notice _ => s
  | .load | .subscribe _ _ | .store _ | .atomic _ _ | .feset _ | .ldfe | .stfe _ | .barrier _ _ | .swait _
  | .sarm _ _ _ _ | .cwb | .cinv =>
    let s := if log || posted then
        (let (d, s) := s.detailOf detail
         s.refused die w d va)
      else s
    let s := if op.holdsHead then s.popBuffer w.core else s
    if posted then { s with nacks := s.nacks ++ [(w.ctx, w.gen, w.pc)] }
    else s.reply w 1 (.fault c op.access (replyAux w c) va die)

/-- The bytes that the read of an instruction which reissues has brought (assumption 17). -/
def State.deposit (s : State) (w : Who) (va v : Nat) : State :=
  match s.findEntry w.ctx with
  | some (c, n, h) => if h.line.gen = w.gen then s.putHeld c n { h with popped := some (va, v) } else s
  | none => s

/-- A thread that waits with KIND MEM goes on waiting under another kind; `back` when it will reissue. -/
def State.retag (s : State) (w : Who) (kind value : Nat) (back : Bool) : State :=
  let p := s.place w.ctx
  match p with
  | .bad _ _ | .unmapped => s
  | .entry _ _ _ | .l2 _ _ | .transfer _ | .memory _ _ =>
    match p.line? with
    | none => s
    | some l =>
      if l.gen != w.gen || !l.inState .wait || l.waitKind != 1 then s
      else
        let l := l.setWait kind value
        if back then (s.putLine w.ctx p (l.backTo w)).clearOverran w.ctx else s.putLine w.ctx p l

/-! ## Page faults (R49 to R52) -/

/-- Places for page-fault messages in a translation unit (R51). -/
def pfPlaces : Nat := 256

/-- A page fault of a unit: the message takes a place, or none is free. -/
def State.pageFault (s : State) (die : Nat) (m : PfMsg) : Option State :=
  let b := s.brick die
  if b.pfHeld.length < pfPlaces then some (s.setBrick die { b with pfHeld := b.pfHeld ++ [m] }) else none

/-- The head of a core's buffer waits for a page; the threads that wait for the buffer find it so when they reissue (R52),
and a context that is leaving its context L1 shows it in its wait tag (R129). -/
def State.holdHead (s : State) (core cls : Nat) : State :=
  let c := s.core core
  let s := s.setCore core { c with sbPhase := .page cls, sbWaiters := [] }
  (c.sbWaiters.foldl (fun s w => s.reply w 1 .wake) s).tagHeld core true

/-- The access of a request meets a page fault: a posted store stays at the head of its buffer, every other thread waits
with KIND PAGE and reissues (R49, R52). -/
def State.pageFaulted (s : State) (r : Req) (cause : Nat) : State :=
  let die := dieOfCore r.who.core
  let m : PfMsg := { who := r.who, cause := cause, access := r.op.access.num, die := die, va := r.va }
  match r.op with
  | .prefetch _ | .notice _ => s
  | .load | .subscribe _ _ | .store _ | .atomic _ _ | .feset _ | .ldfe | .stfe _ | .barrier _ _ | .swait _
  | .sarm _ _ _ _ | .cwb | .cinv =>
    let (s, told) := match s.pageFault die m with
      | some s => (s, true)
      | none => (s, false)
    if r.posted then s.holdHead r.who.core (if told then 2 else 5)
    else
      let s := if told then s else s.pageTimer r.who
      let s := if r.op.holdsHead then s.popBuffer r.who.core else s
      s.retag r.who 8 (pageValue (if told then 1 else 4) r.va) true

end Sys2Proof.Machine
end

