-- ==== Sys2Proof/Machine/Sched.lean ====
section
/-!
DEFINITION. Machine/Sched.lean: what the scheduling instructions and the scheduling steps share: slot tables (R320), pinned
entries, which core may accept a context (R131, R314, R315), victims, allocation of pool lines (R310, R137), deques (R316),
launch queues (R304, R305) and sleeping contexts (R328).
-/
namespace Sys2Proof.Machine

/-! ## Slot tables (R320) -/

def slotEntry (tab i : Nat) : Nat := bits tab (8 * i + 7) (8 * i)

/-- The entries of a table that pin entry n. -/
def pinsOf (tab n : Nat) : List Nat := (List.range 16).filter fun i => slotEntry tab i == 0x80 + n

def isPinned (tab n : Nat) : Bool := !(pinsOf tab n).isEmpty

/-- A table that `slotw` accepts for a limit of entries (R320). -/
def slotTabOk (tab limit : Nat) : Bool :=
  (List.range 16).all fun i =>
    let e := slotEntry tab i
    match e / 64 with
    | 0 => e == 0
    | 1 => e % 16 == 0
    | 2 => e / 16 % 4 == 0 && decide (e % 16 < limit) &&
        (match pinsOf tab (e % 16) with
         | [_] => true
         | [x, y] => y == x + 8
         | _ => false)
    | _ => false

/-- The table has a POOL entry of a class. -/
def servesClass (tab cls : Nat) : Bool := (List.range 16).any fun i => slotEntry tab i == 0x40 + cls * 16

/-! ## Entries of a context L1 -/

/-- The lowest free entry below the limit (R121). -/
def freeEntry (c : CoreState) : Option Nat := freeIndex c.entries c.ctxl1Limit 0

/-- The contexts of a core that may be victims (R131): held, not draining, not pinned, not gang-resident, and with no head
that waits for a page. -/
def victims (c : CoreState) : List (Nat × Held) :=
  c.entries.filterMap fun (n, e) => match e with
    | .held h =>
      if decide (n < c.ctxl1Limit) && !h.draining && !h.gang && !isPinned c.slotTab.toNat n && !pageHeld c h.va then
        some (n, h) else none
    | .claiming _ | .victim _ _ | .gang _ _ | .gangVictim _ _ _ => none

/-- The WAIT context parked longest. -/
def waitVictim (vs : List (Nat × Held)) : Option (Nat × Held) :=
  leastBy (fun a b => decide (a.2.parkedAt < b.2.parkedAt)) (vs.filter fun (_, h) => h.line.inState .wait)

/-- The RESIDENT context of lowest PRIORITY, the one least recently issued among those. -/
def residentVictim (vs : List (Nat × Held)) : Option (Nat × Held) :=
  leastBy (fun a b => decide (a.2.line.priority < b.2.line.priority) ||
      (a.2.line.priority == b.2.line.priority && decide (a.2.issuedAt < b.2.issuedAt)))
    (vs.filter fun (_, h) => h.line.inState .resident)

/-- The victim of R131 for an incoming priority. -/
def chooseVictim (c : CoreState) (prio : Nat) : Option (Nat × Held) :=
  match waitVictim (victims c) with
  | some v => some v
  | none => residentVictim ((victims c).filter fun (_, h) => decide (h.line.priority < prio))

/-- An entry of a context L1 is free again. -/
def State.clearEntry (s : State) (core entry : Nat) : State :=
  let c := s.core core
  s.setCore core { c with entries := Table.erase c.entries entry }

/-! ## Gangs (R318, R319) -/

/-- Replace a gang of a brick. -/
def State.putGang (s : State) (die : Nat) (g : Gang) : State :=
  let b := s.brick die
  s.setBrick die { b with gangs := b.gangs.map fun x => if x.ticket = g.ticket then g else x }

def State.dropGang (s : State) (die : Nat) (g : Gang) : State :=
  let b := s.brick die
  s.setBrick die { b with gangs := b.gangs.filter fun x => x.ticket != g.ticket }

/-- A released reservation: a placeholder goes, and a victim goes on leaving. -/
def State.releaseEntry (s : State) (core entry : Nat) : State :=
  let c := s.core core
  match Table.get? c.entries entry with
  | some (.gangVictim h _ _) => s.setCore core { c with entries := Table.set c.entries entry (.held h) }
  | some (.gang _ _) => s.clearEntry core entry
  | some (.held _) | some (.claiming _) | some (.victim _ _) | none => s

/-- The membership of a killed context in a gang that is not placed yet ends, and so does its reservation (R343). -/
def State.dropMember (s : State) (va : Nat) : State :=
  [0, 1, 2, 3].foldl (fun s d => (s.brick d).gangs.foldl (fun s g =>
    match g.members.find? fun (v, _) => v == va with
    | none => s
    | some (_, e) =>
      let s := match e with
        | some (c, i) => s.releaseEntry c i
        | none => s
      let left := g.members.filter fun (v, _) => v != va
      if left.isEmpty then s.dropGang d g else s.putGang d { g with members := left }) s) s

/-! ## Which cores may accept a context (R314, R315) -/

/-- The core's brick lies in AFFINITY and its cluster in the partition's rectangle. -/
def State.mayPlace (s : State) (core : Nat) (l : Line) : Bool :=
  bit l.affinity (dieOfCore core) && s.inPartition l.partition (clusterOfCore core)

/-- It also has a POOL entry of the class. -/
def State.mayAccept (s : State) (core : Nat) (l : Line) : Bool :=
  s.mayPlace core l && servesClass (s.core core).slotTab.toNat l.slotClass

/-- The Caldera of the core's brick holds an entry at a level of at least p that the core may accept. -/
def State.betterWaits (s : State) (core p : Nat) : Bool :=
  (s.brick (dieOfCore core)).ready.any fun e =>
    !e.offered && decide (p ≤ e.level) && (match (s.place e.va).line? with
      | some l => s.mayAccept core l
      | none => false)

/-! ## Allocation (R137, R310) -/

/-- The GENERATION that a FREE line keeps; a line whose page is not mapped has an open one (assumption 18). -/
def State.keptGen (s : State) (va : Nat) : BitVec 16 × State :=
  match s.poolPhys va false with
  | some pa => ((lineOf (memBytes s.mem pa 128)).gen, s)
  | none =>
    let (v, s) := s.draw
    (v.setWidth 16, s)

/-- Put an allocated line into a context L2; a set whose lines all wait for their pages leaves it to HBM
(assumption 18). -/
def State.allocLine (s : State) (cl va : Nat) (l : Line) : State :=
  let (g, s) := s.keptGen va
  let l := { l with gen := g }
  let (s, put) := s.ctxL2Put cl va l
  if put then s
  else match s.poolPhys va true with
    | some pa => s.writeCtx pa va l
    | none => s

/-! ## Deques (R316) -/

def dequeSize : Nat := 16

/-- A deque of more than 8 entries: its uppermost entry of steal domain brick or device becomes a ready-queue entry of the
brick's own Caldera. -/
def State.dequeOverflow (s : State) (core : Nat) : State :=
  let c := s.core core
  if c.deque.length ≤ 8 then s
  else
    match c.deque.findIdx? fun e => e.steal == .die || e.steal == .dev with
    | none => s
    | some i =>
      match c.deque[i]? with
      | none => s
      | some e =>
        let s := s.setCore core { c with deque := listErase c.deque i }
        let level := ((s.place e.va).line?.map Line.priority).getD 0
        s.readyPush (dieOfCore core) (readyEntry e.va level e.steal s.cycle)

/-- The push at the bottom of the core's deque; a full deque sends the child to a ready queue, and none is left for a child
of steal domain core. -/
def State.pushChild (s : State) (core va : Nat) (l : Line) (st : Steal) : Option State :=
  let c := s.core core
  if c.deque.length < dequeSize then
    some ((s.setCore core { c with deque := c.deque ++ [{ va := va, steal := st }] }).dequeOverflow core)
  else if st = .core then none
  else some (s.enterReady va l (some (dieOfCore core)) st)

/-! ## The reply of a `spawn` (R323) -/

/-- The `spawn` of the context in an entry of a core completes with register d and predicate pf, at its next PC. -/
def State.spawnDone (s : State) (core entry : Nat) (h : Held) (l : Line) (pf : PReg) (failed : Bool) (next : BitVec 32)
    (wrapped : Bool) : State :=
  s.endWait h.va (.entry core entry { h with overran := h.overran || wrapped })
    { l.setPredicate pf failed with pc := next }

/-- A pool line is obtained, and the child's line, the parent's JOIN_COUNT and the deque are written together; with no free
line anywhere, or a full deque for a child of steal domain core, nothing is made and pf is set. -/
def State.bearChild (s : State) (core entry : Nat) (h : Held) (child : Line) (st : Steal) (d : Reg) (pf : PReg)
    (next : BitVec 32) (wrapped : Bool) : State :=
  match s.reserveCtx (dieOfCore core) with
  | none => s.spawnDone core entry h h.line pf true next wrapped
  | some (k, s) =>
    let va := s.ctxVa k
    let s := s.allocLine (clusterOfCore core) va child
    match s.pushChild core va child st with
    | none => (s.freeCtx va (((s.place va).line?).getD child)).spawnDone core entry h h.line pf true next wrapped
    | some s =>
      s.spawnDone core entry h ({ h.line with joinCount := h.line.joinCount + 1 }.setReg d (BitVec.ofNat 64 va)) pf false next wrapped

/-! ## Launch queues (R304, R305) -/

def lqSlots (b : Nat) : Nat := if bits b 52 48 = 0 then 0 else 2 ^ bits b 52 48
def State.lqBaseOf (s : State) (n : Nat) : Nat := ((Table.get? s.regs.lqBase n).getD 0#64).toNat
def State.lqTailOf (s : State) (n : Nat) : Nat := ((Table.get? s.regs.lqTail n).getD 0#32).toNat
def State.lqHeadOf (s : State) (n : Nat) : Nat := ((Table.get? s.regs.lqHead n).getD 0#32).toNat

/-- The physical address of slot i of a queue. -/
def State.lqSlot (s : State) (n i : Nat) : Nat :=
  let b := s.lqBaseOf n
  b % 2 ^ 48 + 64 * (i % lqSlots b)

/-- A queue is disabled or holds no record. -/
def State.lqEmpty (s : State) (n : Nat) : Bool := lqSlots (s.lqBaseOf n) == 0 || s.lqTailOf n == s.lqHeadOf n

/-- A queue takes no further record (R305). -/
def State.lqFull (s : State) (n : Nat) : Bool :=
  decide (lqSlots (s.lqBaseOf n) ≤ (s.lqTailOf n + 2 ^ 32 - s.lqHeadOf n) % 2 ^ 32)

/-- What the arbiter waits for before it accesses a slot of a ring: the device coherence agent's copy, where the ring lies in the
host-coherent range (R80, R360), and before a write the expiry of a lease (R84). -/
def State.slotWaits (s : State) (n i : Nat) (write : Bool) : Option State :=
  let a := s.lqSlot n i
  match s.askHost a write with
  | some t => some t
  | none => if write && s.leased a 64 then some s else none

/-- The first launch locks HBM_HASHED_SIZE, CTXPOOL_BASE and CTXPOOL_COUNT. -/
def State.lockLaunch (s : State) : State := { s with regs := { s.regs with launchLocked := true } }

/-- What the insertion of a `launch` waits for (assumption 115). -/
def State.launchWaits (s : State) (n : Nat) : Option State := if s.lqFull n then none else s.slotWaits n (s.lqTailOf n) true

/-- A `launch` insertion: the position it takes, or none when the queue is disabled or full (R330). -/
def State.insertLaunch (s : State) (n : Nat) (record : Nat) : Option (Nat × State) :=
  let tail := s.lqTailOf n
  if s.lqFull n then none
  else
    let s := s.lockLaunch.cohPut (s.lqSlot n tail) (toBytes 64 record)
    some (tail, { s with regs := { s.regs with
      lqTail := Table.set s.regs.lqTail n (BitVec.ofNat 32 (tail + 1)) } })

end Sys2Proof.Machine
end

