-- ==== Sys2Proof/Machine/Home.lean ====
section
/-!
DEFINITION. Machine/Home.lean: the steps of a home slice (R66 to R74): reads, subscriptions, precision changes, stores,
atomics, write-backs and drop notices; the snoops of its holders; the combining front end (R87, R88); lease waits (R65, R84);
and accesses of software to lines of the context pool (R114).
-/
namespace Sys2Proof.Machine

/-! ## Requests at a home -/

/-- The physical address at which a request stands in the order of its home (R66). -/
def Req.homePa (r : Req) : Option Nat :=
  match r.phase with
  | .home pa _ _ => some pa
  | .acks pa _ _ => some pa
  | .turn _ pa _ => some pa
  | .xlat | .frozen _ => none

/-- An operation on a whole line. -/
def AccessOp.wholeLine : AccessOp → Bool
  | .cwb | .cinv | .prefetch _ | .notice _ => true
  | .load | .subscribe _ _ | .store _ | .atomic _ _ | .feset _ | .ldfe | .stfe _ | .barrier _ _ | .swait _
  | .sarm _ _ _ _ => false

def Req.isNotice (r : Req) : Bool := match r.op with | .notice _ => true | _ => false

/-- Two requests touch the same sector. -/
def Req.meets (r : Req) (pa : Nat) (q : Req) : Bool :=
  match q.homePa with
  | none => false
  | some p =>
    if r.op.wholeLine || q.op.wholeLine then lineOfAddr p == lineOfAddr pa else sectorOf p == sectorOf pa

/-- An access of the host, a peer or a copy unit that has not asked for its turn for this many cycles has given up its place. -/
def turnCycles : Nat := 64

/-- The place of an access that has given it up. -/
def Req.lapsed (r : Req) (cycle : Nat) : Bool :=
  match r.phase with
  | .turn _ _ asked => decide (asked + turnCycles < cycle)
  | .xlat | .home _ _ _ | .acks _ _ _ | .frozen _ => false

/-- The request is such a place, and no access of a core. -/
def Req.isTurn (r : Req) : Bool :=
  match r.phase with
  | .turn _ _ _ => true
  | .xlat | .home _ _ _ | .acks _ _ _ | .frozen _ => false

/-- The place of an agent's access to a sector. -/
def Req.placeOf (r : Req) (agent : Option CopyAgent) (pa : Nat) : Bool :=
  match r.phase with
  | .turn a p _ => a == agent && sectorOf p == sectorOf pa
  | .xlat | .home _ _ _ | .acks _ _ _ | .frozen _ => false

/-- No earlier request for the sector stands at the home (R66). -/
def State.firstAtHome (s : State) (n : Nat) (r : Req) (pa : Nat) : Bool :=
  (s.reqs.take n).all fun q => q.lapsed s.cycle || !r.meets pa q

def State.dropReq (s : State) (r : Req) : State := { s with reqs := s.reqs.erase r }
def State.replaceReq (s : State) (r q : Req) : State := { s with reqs := s.reqs.map fun x => if x = r then q else x }

/-- An unapplied snoop of a sector that a request touches. -/
def State.snoopPending (s : State) (r : Req) (pa : Nat) : Bool :=
  if r.op.wholeLine then [0, 1, 2, 3].any fun k => s.hasSnoop (pa / 256 * 256 + 64 * k) else s.hasSnoop pa

/-- The access of the host (no agent), a peer or a copy unit to a sector takes its turn at the home behind the requests that have
arrived before it, and closes the combining groups of the sector first (R66, R87, assumption 112): the state in which it waits, or
none. -/
def State.unitWaits (s : State) (agent : Option CopyAgent) (pa : Nat) : Option State :=
  if s.combine.any fun c => c.load.isNone && c.slice.isNone && sectorOf c.pa == sectorOf pa then
    some { s with combine := s.combine.map fun c =>
      if c.load.isNone && c.slice.isNone && sectorOf c.pa == sectorOf pa then { c with closing := true } else c }
  else if (s.reqs.takeWhile fun q => !q.placeOf agent pa).any fun q => !q.lapsed s.cycle && (match q.homePa with
      | some p => if q.op.wholeLine then lineOfAddr p == lineOfAddr pa else sectorOf p == sectorOf pa
      | none => false) then some s
  else none

/-- The access is over, and its place in the order of the sector with it. -/
def State.leaveHome (s : State) (agent : Option CopyAgent) (pa : Nat) : State :=
  { s with reqs := s.reqs.filter fun q => !q.placeOf agent pa }

/-- An access that waits at a home has its place there from its first try on (R66). -/
def State.keepPlace (s : State) (agent : Option CopyAgent) (pa : Nat) : State :=
  let die := if s.onDevice pa then s.homeDie pa else 0
  let q : Req := { who := { ctx := 0, gen := 0, domain := 0, part := 0, core := die * 4096, pc := 0, word := 0 },
                   va := 0, size := 0, op := .load, reply := .nothing, phase := .turn agent (sectorOf pa) s.cycle, posted := true,
                   acq := false, heldUntil := 0, via := none }
  { s with reqs := if s.reqs.any fun r => r.placeOf agent pa then s.reqs.map fun r => if r.placeOf agent pa then q else r
                   else (s.reqs.filter fun r => !r.lapsed s.cycle) ++ [q] }

/-- A migration freeze holds the requests for a frame (R54). -/
def State.frozenAt (s : State) (pa : Nat) : Bool :=
  s.migrations.any fun g => g.frozenAt.isSome && decide (g.oldFrame ≤ pa) && decide (pa < g.oldFrame + g.size)

/-- An entry of the combining front end and a request meet in a sector. -/
def CombineEntry.touches (c : CombineEntry) (r : Req) (pa : Nat) : Bool :=
  if r.op.wholeLine then lineOfAddr c.pa == lineOfAddr pa else sectorOf c.pa == sectorOf pa

/-- A group of atomics stands in the combining front end on a sector. -/
def State.combining (s : State) (r : Req) (pa : Nat) : Bool :=
  s.combine.any fun c => c.load.isNone && c.touches r pa

/-- A non-combinable access to the sector of an entry closes it early: an entry of loads goes, a group is performed at its
next step (R87). -/
def State.closeEarly (s : State) (r : Req) (pa : Nat) : State :=
  { s with combine := (s.combine.filter fun c => r.op == .load || c.load.isNone || c.slice.isSome || !c.touches r pa).map fun c =>
      if c.load.isNone && c.touches r pa then { c with closing := true } else c }

/-- What the home does with a request when its turn is asked for. -/
inductive Turn
  | go (s : State)
  | wait (s : State)
  | refuse (c : FaultCode) (detail : Option Nat)
  | frozen

/-- A write that is no request of a core waits for the lease of a line: one of the host or of a peer, that of a copy job, a
combined group, or a write-back (R84). -/
def State.heldElsewhere (s : State) (pa : Nat) : Bool :=
  (s.outers.any fun o => o.held == some (lineOfAddr pa)) ||
    (s.clusters.any fun (_, k) => k.jobs.any fun (_, x) => x.state == .active && x.held == some (lineOfAddr pa)) ||
    s.combine.any (fun c => c.load.isNone && lineOfAddr c.pa == lineOfAddr pa && decide (s.cycle < s.leaseOf pa)) ||
    s.noticeHeld pa

/-- A held write stands before a request for its line: that of an earlier request, or, before a read or a subscription, any
other (R84). -/
def State.behindHeld (s : State) (n pa : Nat) (reads : Bool) : Bool :=
  ((s.reqs.take n).any fun q => q.heldUntil != 0 && (q.homePa.map lineOfAddr) == some (lineOfAddr pa)) ||
    (s.outers.any fun o => o.held == some (lineOfAddr pa)) || (reads && s.heldElsewhere pa)

/-- A held write stands before a read or renewal of its line (R84). -/
def State.heldLine (s : State) (pa : Nat) : Bool :=
  (s.reqs.any fun q => q.heldUntil != 0 && (q.homePa.map lineOfAddr) == some (lineOfAddr pa)) || s.heldElsewhere pa

/-- An operation that only reads its line. -/
def AccessOp.onlyReads : AccessOp → Bool
  | .load | .subscribe _ _ | .prefetch _ => true
  | .store _ | .atomic _ _ | .feset _ | .ldfe | .stfe _ | .barrier _ _ | .swait _ | .sarm _ _ _ _ | .cwb | .cinv
  | .notice _ => false

/-- A store or full/empty store of the core that holds the pool line itself: it is decided by the line as it stands there, and
the line's eviction comes after it (R114, R128). -/
def State.ownLine (s : State) (r : Req) : Bool :=
  s.inPool r.va && (match r.op, s.place (r.va / 128 * 128) with
    | .store _, .entry c _ _ => c == r.who.core
    | .feset _, .entry c _ _ => c == r.who.core
    | _, _ => false)

/-- The turn of a request (R41, R54, R65, R66, R80, R84, R368); what its own brick has sent about the line goes first. -/
def State.turn (s : State) (n : Nat) (r : Req) (pa : Nat) : Turn :=
  if (!s.firstAtHome n r pa && !s.ownLine r) || s.behindHeld n pa r.op.onlyReads then .wait s
  else if s.onDevice pa && !s.dieLive (s.homeDie pa) then .refuse .homeOffline none
  else if s.frozenAt pa then .frozen
  else
    let s := s.settleOwn (dieOfCore r.who.core) pa
    if s.inPool r.va then (if s.snoopPending r pa then .wait s else .go s)
    else if s.alias pa r.va then .refuse .protection (some 5)
    else if s.snoopPending r pa || s.combining r pa then .wait (s.closeEarly r pa)
    else match (s.closeEarly r pa).entryRoom pa with
      | some s => .wait s
      | none => .go (s.closeEarly r pa)

/-- A request held by a freeze (R49, R54): a posted store holds the head of its buffer, and the thread waits with CLASS 3 when
it needs the buffer; the thread of any other access waits with CLASS 3 at once. -/
def State.freezeReq (s : State) (r : Req) (pa : Nat) : State :=
  let s := s.replaceReq r { r with phase := .frozen pa }
  if r.posted then (if r.op.holdsHead then s.holdHead r.who.core 3 else s)
  else (if r.op.holdsHead then s.popBuffer r.who.core else s).retag r.who 8 (pageValue 3 r.va) true

/-- The brick that answers for a physical address: its home, or the requesting brick for an address outside every brick. -/
def State.unitDie (s : State) (pa : Nat) (w : Who) : Nat := if s.onDevice pa then s.homeDie pa else dieOfCore w.core

/-- A request that fails at its home. -/
def State.refuseReq (s : State) (r : Req) (pa : Nat) (c : FaultCode) (detail : Option Nat) (log : Bool) : State :=
  let s := s.dropReq r
  let die := if c = .homeOffline then dieOfCore r.who.core else s.unitDie pa r.who
  match r.op with
  | .prefetch _ => s
  | .notice _ | .load | .subscribe _ _ | .store _ | .atomic _ _ | .feset _ | .ldfe | .stfe _ | .barrier _ _ | .swait _
  | .sarm _ _ _ _ | .cwb | .cinv => s.accessFault r.who r.va r.op r.posted die c detail log

/-- Take the turn of a request, or do what stands before it. -/
def State.withTurn (s : State) (n : Nat) (r : Req) (pa : Nat) (go : State → State) : State :=
  match s.turn n r pa with
  | .go s => go s
  | .wait s => s
  | .refuse c d => s.refuseReq r pa c d (c != .homeOffline)
  | .frozen => s.freezeReq r pa

/-! ## Lines of the context pool (R114) -/

/-- A context leaves its context L1: it stops issuing and drains (R128). -/
def State.startEviction (s : State) (core entry : Nat) (h : Held) (ending : Ending) : State :=
  s.putHeld core entry { h with draining := true, ending := ending }

/-- Recall a context from the context caches: the state, and whether its line is now in HBM. -/
def State.recallCtx (s : State) (va : Nat) : State × Bool :=
  match s.place va with
  | .entry c n h => (if h.draining then s else s.startEviction c n h (endingOf h.line), false)
  | .l2 c x =>
    let k := s.cluster c
    match s.poolPhys va true with
    | some pa => ((s.writeCtx pa va x.line).setCluster c { k with ctxL2 := Table.erase k.ctxL2 va }, true)
    | none => (s, false)
  | .transfer _ => (s, false)
  | .memory _ _ | .bad _ _ | .unmapped => (s, true)

/-- The bytes of a line that a software write cannot change (R114). -/
def lineByteFixed (i : Nat) : Bool := (decide (76 ≤ i) && decide (i ≤ 87)) || (decide (120 ≤ i) && decide (i ≤ 127))

/-- Bytes written into the 128 bytes of a line from byte o, less the fixed ones. -/
def writeLineBytes (old : List Byte) (o : Nat) (bs : List (Option Byte)) : List Byte :=
  old.mapIdx fun i b => if i < o || lineByteFixed i then b else (bs[i - o]?).join.getD b

/-- A write from byte o of a line reaches its PC, bytes 64 to 67. -/
def writesPc (o : Nat) (bs : List (Option Byte)) : Bool :=
  [64, 65, 66, 67].any fun i => decide (o ≤ i) && ((bs[i - o]?).join).isSome

/-- A PC that software writes was not formed by the sum of R144. -/
def State.pcWritten (s : State) (ctx o : Nat) (bs : List (Option Byte)) : State :=
  if writesPc o bs then { s with overruns := s.overruns.filter (· != ctx) } else s

/-- A software write to a pool line in HBM: none when the line's state refuses it; a line that fails its tag check is
poisoned (R114, R135). -/
def State.poolWrite (s : State) (w : Who) (va : Nat) (bs : List (Option Byte)) : State × Bool :=
  let ctx := va / 128 * 128
  match s.memPlace ctx with
  | .memory pa l =>
    if l.inState .faulted || l.inState .halted then
      ((s.pcWritten ctx (va % 128) bs).writeCtx pa ctx (lineOf (writeLineBytes l.bytes (va % 128) bs)).clearReserved, true)
    else (s, false)
  | .bad pa l => (s.poisonCtx ctx pa l w, false)
  | .entry _ _ _ | .l2 _ _ | .transfer _ | .unmapped => (s, false)

/-- A store that holds the head of a core's buffer meets a context of that core's own L1, whose write-back stands behind it:
it is decided by the state in which the line stands, as R136 decides a push into the caller's own line (R114). -/
def State.poolAhead (s : State) (r : Req) (pa : Nat) : State :=
  match s.place (r.va / 128 * 128), r.op with
  | .entry c n h, .store bs =>
    if c ≠ r.who.core then s
    else if h.line.inState .faulted || h.line.inState .halted then
      ((s.putHeld c n { h with line := (lineOf (writeLineBytes h.line.bytes (r.va % 128) (bs.map some))).clearReserved
                               overran := h.overran && !writesPc (r.va % 128) (bs.map some) }).dropReq
          r).accessDone
        r.who r.op r.posted r.reply 0 0
    else s.refuseReq r pa .protection (some 2) true
  | .entry c _ _, .feset _ => if c ≠ r.who.core then s else s.refuseReq r pa .protection (some 2) true
  | _, _ => s

/-- A software access to a pool line at its home (R114); one with an acquire first applies what has reached its brick (R294). -/
def State.poolAccess (s : State) (r : Req) (pa : Nat) : State :=
  let (s, here) := s.recallCtx (r.va / 128 * 128)
  if !here then s.poolAhead r pa
  else
    let s := if r.acq then s.acquireAt (dieOfCore r.who.core) else s
    let old := memNat s.mem pa r.size
    let done := fun (s : State) (v : Nat) =>
      let s := if r.reply = .reissue then s.deposit r.who r.va v else s
      s.accessDone r.who r.op r.posted r.reply v 0
    let write := fun (bs : List Byte) (v : Nat) (fl : BitVec 32) =>
      let (s, ok) := s.poolWrite r.who r.va (bs.map some)
      if ok then (s.dropReq r).accessDone r.who r.op r.posted r.reply v fl
      else s.refuseReq r pa .protection (some 2) true
    let bad := s.anyPoison pa r.size || s.quarantine.contains (r.va / 128 * 128)
    match r.op with
      | .load => if bad then s.refuseReq r pa .poisonedData none false else done (s.dropReq r) old
      | .subscribe f _ => if bad then s.refuseReq r pa .poisonedData none false else done (s.dropReq r) (toSub 0 f old)
      | .store bs => write bs 0 0
      | .atomic fn x =>
        let (v, fl) := fn.eval r.size old x
        write (toBytes r.size v) old (BitVec.ofNat 32 fl.mask)
      | .feset _ | .ldfe | .stfe _ | .barrier _ _ | .swait _ | .sarm _ _ _ _ => s.refuseReq r pa .protection (some 2) true
      | .cwb | .cinv | .prefetch _ | .notice _ => done (s.dropReq r) 0

/-! ## Reads, subscriptions and precision changes -/

/-- The value that an access reads from its sector. -/
def Req.value (r : Req) (master : Nat) (d : BitVec 512) : Nat :=
  match r.op with
  | .subscribe f _ => toSub master f (sectorNat d r.va r.size)
  | .load | .store _ | .atomic _ _ | .feset _ | .ldfe | .stfe _ | .barrier _ _ | .swait _ | .sarm _ _ _ _ | .cwb | .cinv
  | .prefetch _ | .notice _ => sectorNat d r.va r.size

/-- A subscription that the home serves as one (R68). -/
def State.subscribes (s : State) (r : Req) (pa master : Nat) : Option (Fmt × Bool) :=
  match r.op with
  | .subscribe f u => if s.onDevice pa && !s.inPool r.va && subscribable master f then some (f, u) else none
  | .load | .store _ | .atomic _ _ | .feset _ | .ldfe | .stfe _ | .barrier _ _ | .swait _ | .sarm _ _ _ _ | .cwb | .cinv
  | .prefetch _ | .notice _ => none

/-- The home answers a read or a subscription (R67, R68, R73, R74); a request with an acquire first applies what has reached
its brick (R262). -/
def State.answerRead (s : State) (r : Req) (pa : Nat) (wr : Bool) (master : Nat) : State :=
  let b := dieOfCore r.who.core
  let cl := clusterOfCore r.who.core
  let s := s.dropReq r
  if s.anyPoison pa r.size then s.accessFault r.who r.va r.op r.posted (s.unitDie pa r.who) .poisonedData none false
  else
    let s := if r.acq then s.acquireAt b else s
    match s.cachedRead cl r.va with
    | some (d, s) => s.accessDone r.who r.op r.posted r.reply (r.value master d) 0
    | none =>
      let v := r.value master (memSector s.mem pa)
      let s := match s.subscribes r pa master, r.op with
        | some (f, u), _ => s.grantSub cl r.va pa wr master f u
        | none, .subscribe _ _ => s.grantRead cl r.va pa wr master true
        | none, _ => s.grantRead cl r.va pa wr master false
      s.accessDone r.who r.op r.posted r.reply v 0

/-- The first load of an aligned 8-byte word that the home has served opens an entry for the loads after it; none opens for a
sector that the load has made exclusive, for poisoned data, nor where the front end is full (R87, assumption 108). -/
def State.openLoads (s : State) (r : Req) (pa : Nat) : State :=
  let w := pa / 8 * 8
  let x := s.dirSector pa
  if r.op = .load ∧ r.size ≤ 8 ∧ !s.reqs.contains r ∧ !s.anyPoison w 8 ∧ s.combineRoom (s.homeDie pa, homeSlice pa) ∧
      ([0, 1, 2, 3].all fun b => !(x.bricks.get b).owns) ∧ s.combine.all (fun c => c.load.isNone || c.slice.isSome || c.pa != w) then
    let v := BitVec.ofNat 64 (sectorNat (memSector s.mem pa) w 8)
    { s with combine := s.combine ++ [{ pa := w, size := 8, openedAt := s.cycle, members := [], slice := none, load := some (v, 1),
                                         closing := false }] }
  else s

/-- The entry takes a load of its word: the value, and how many loads have taken it (R87). -/
def CombineEntry.loads (c : CombineEntry) (s : State) (r : Req) (pa : Nat) : Option (BitVec 64 × Nat) :=
  c.load.filter fun (_, n) => c.slice.isNone && c.pa == pa / 8 * 8 && decide (r.size ≤ 8) && decide (s.cycle < c.openedAt + combineCycles) &&
    decide (n < combineMembers)

/-- The entry after one more load, where it takes it. -/
def CombineEntry.loadMore (c : CombineEntry) (s : State) (r : Req) (pa : Nat) : CombineEntry :=
  match c.loads s r pa with
  | some (v, k) => { c with load := some (v, k + 1) }
  | none => c

/-- A later load of the word takes the entry's value, and its brick the sector (R67, R87); none when it has to take its turn. -/
def State.joinLoad (s : State) (n : Nat) (r : Req) (pa : Nat) (wr : Bool) (master : Nat) : Option State :=
  let b := dieOfCore r.who.core
  match s.combine.findSome? (fun c => c.loads s r pa) with
  | none => none
  | some (v, _) =>
    if !s.firstAtHome n r pa || s.behindHeld n pa true || s.frozenAt pa || s.inPool r.va || s.alias pa r.va || s.hasSnoop pa ||
        (s.askShare pa r.va (some b)).hasSnoop pa || !s.dieLive (s.homeDie pa) || (s.cachedRead (clusterOfCore r.who.core) r.va).isSome then none
    else
      let s := { s.dropReq r with combine := s.combine.map fun (c : CombineEntry) => c.loadMore s r pa }
      let s := if r.acq then s.acquireAt b else s
      some ((s.grantRead (clusterOfCore r.who.core) r.va pa wr master true).accessDone r.who r.op r.posted r.reply
        (v.toNat / 2 ^ (8 * (pa % 8)) % 2 ^ (8 * r.size)) 0)

/-- A read at the home: a copy held in E or M elsewhere is taken back first. -/
def State.readAtHome (s : State) (n : Nat) (r : Req) (pa : Nat) (wr : Bool) (master : Nat) : State :=
  s.withTurn n r pa fun s =>
    if s.inPool r.va then s.poolAccess r pa
    else
      let asked := s.askShare pa r.va (some (dieOfCore r.who.core))
      if asked.hasSnoop pa then asked
      else match s.askHost pa false with
        | some s => s
        | none => (s.answerRead r pa wr master).openLoads r pa

/-- A brick receives one sector exclusively and clean, for `pref.ex` (R270). -/
def State.grantExclusive (s : State) (cl va pa : Nat) (wr : Bool) (master : Nat) : State :=
  let b := dieOfCluster cl
  let s := (((s.applyAt b pa).ensureDir pa va).markMigrations pa).dropLoads pa
  let s := (s.staleTiles b va fun _ => true).mapCopies b va fun _ => noCopy
  (s.setBrickState pa b .e []).install cl va pa wr master .e

/-- A sector of a prefetch: `.ex` obtains it exclusively unless it has a subscriber on a page with a master (R270) or its line
is leased (R84). -/
def State.prefetchExclusive (s : State) (ex : Bool) (pa master : Nat) : Bool :=
  ex && !(master != 0 && s.subscribed pa) && decide (s.leaseOf pa ≤ s.cycle)

/-- One sector of a prefetch: what stands before it, or none. -/
def State.prefetchAsk (s : State) (r : Req) (ex : Bool) (pa va master : Nat) : Option State :=
  let b := dieOfCore r.who.core
  let x := s.prefetchExclusive ex pa master
  let asked := if x then s.askExclusive pa va (some b) else s.askShare pa va (some b)
  if asked.hasSnoop pa then some asked else s.askHost pa x

/-- A prefetched sector enters the cluster's data L1: one that the brick holds from there, any other with the home's grant
(R270). -/
def State.prefetchSector (s : State) (cl va pa : Nat) (wr : Bool) (master : Nat) (excl : Bool) : State :=
  let held := s.cachedRead cl va
  if s.anyPoison pa 64 then s
  else if excl then (if s.brickOwns (dieOfCluster cl) va then s.claimInBrick cl va else s.grantExclusive cl va pa wr master)
  else (held.map (·.2)).getD (s.grantRead cl va pa wr master true)

/-- A prefetch at the home (R270): each sector that the brick does not hold is asked for first. -/
def State.prefetchAtHome (s : State) (n : Nat) (r : Req) (ex : Bool) (pa : Nat) (wr : Bool) (master : Nat) : State :=
  s.withTurn n r pa fun s =>
    let cl := clusterOfCore r.who.core
    let need := [0, 1, 2, 3].filter fun k =>
      let p := pa / 256 * 256 + 64 * k
      let v := r.va / 256 * 256 + 64 * k
      if s.prefetchExclusive ex p master then !s.brickOwns (dieOfCluster cl) v else (s.cachedRead cl v).isNone
    match need.findSome? fun k => s.prefetchAsk r ex (pa / 256 * 256 + 64 * k) (r.va / 256 * 256 + 64 * k) master with
    | some s => s
    | none =>
      [0, 1, 2, 3].foldl (fun s k =>
        let p := pa / 256 * 256 + 64 * k
        s.prefetchSector cl (r.va / 256 * 256 + 64 * k) p wr master (s.prefetchExclusive ex p master)) (s.dropReq r)

/-! ## Stores (R69) -/

/-- The bytes of a sector that a store writes. -/
def touchedBytes (va size : Nat) (i : Nat) : Bool := decide (va % 64 ≤ i) && decide (i < va % 64 + size)

/-- Copies in E or M, wherever they are, are taken back before the home performs a write itself. -/
def State.askOwners (s : State) (pa va : Nat) : State :=
  let s := (s.otherBricks pa none BrickState.owns).foldl (fun s b => s.snoop (.brick b) va pa .inval) s
  if (s.dirSector pa).host = .m then s.snoop .host va pa .inval else s

/-- The home performs a store whose turn has come: with subscribers it performs the store itself and waits for the
acknowledgements, while the store leaves its buffer as one pending at the caching slice (R288); otherwise it grants M
(R69). -/
def State.storeTurn (s : State) (r : Req) (bs : List Byte) (pa : Nat) (wr : Bool) (master : Nat) (held : Bool) : State :=
  let b := dieOfCore r.who.core
  let cl := clusterOfCore r.who.core
  if s.brickOwns b r.va then
    let d := (s.brickData b r.va).getD 0
    ((s.writeInBrick cl r.va (mergeBytes d (r.va % 64) (bs.map some))).dropReq r).accessDone r.who r.op r.posted r.reply 0 0
  else if s.subscribed pa then
    let asked := s.askOwners pa r.va
    if asked.hasSnoop pa then asked
    else
      let new := mergeBytes (memSector s.mem pa) (r.va % 64) (bs.map some)
      ((s.homeWrite pa r.va [b] new (touchedBytes r.va r.size) held).replaceReq r { r with phase := .acks pa 0 0 }).popBuffer
        r.who.core
  else
    let asked := s.askExclusive pa r.va (some b)
    if asked.hasSnoop pa then asked
    else match s.askHost pa true with
      | some s => s
      | none =>
        let new := mergeBytes (memSector s.mem pa) (r.va % 64) (bs.map some)
        (((s.grantModified cl r.va pa wr master new).writeVersion pa held).dropReq r).accessDone r.who r.op r.posted r.reply 0 0

/-- A write waits at the home until the line's last peer lease has expired (R84). -/
def State.holdForLease (s : State) (r : Req) (pa : Nat) : State := s.replaceReq r { r with heldUntil := s.leaseOf pa }

def State.storeAtHome (s : State) (n : Nat) (r : Req) (bs : List Byte) (pa : Nat) (wr : Bool) (master : Nat) (held : Bool) :
    State :=
  s.withTurn n r pa fun s =>
    if s.inPool r.va then s.poolAccess r pa
    else if s.cycle < s.leaseOf pa then s.holdForLease r pa
    else s.storeTurn r bs pa wr master held

/-! ## Atomics (R69, R271, R388) and the combining front end (R87, R88) -/

/-- The home performs an atomic whose turn has come; its reply follows the acknowledgements. -/
def State.atomicTurn (s : State) (r : Req) (fn : AtomicFn) (x pa : Nat) (held : Bool) : State :=
  let asked := s.askOwners pa r.va
  if asked.hasSnoop pa then asked
  else match s.askHost pa true with
    | some s => s
    | none =>
      if s.anyPoison pa r.size then s.refuseReq r pa .poisonedData none false
      else
        let s := s.ensureDir pa r.va
        let d := memSector s.mem pa
        let m := sectorNat d pa r.size
        let (v, fl) := fn.eval r.size m x
        let new := mergeBytes d (pa % 64) ((toBytes r.size v).map some)
        (s.homeWrite pa r.va [dieOfCore r.who.core] new (touchedBytes pa r.size) held).replaceReq r
          { r with phase := .acks pa m (BitVec.ofNat 32 fl.mask) }

/-- The atomics that the front end combines. -/
def AtomicFn.combines : AtomicFn → Bool
  | .add | .xadd _ => true
  | .and | .or | .xor | .min | .max | .minu | .maxu | .swap | .cas _ | .fadd _ | .qpush | .qpop => false

/-- A group takes members of one kind. -/
def AtomicFn.sameKind (a b : AtomicFn) : Bool :=
  match a, b with
  | .add, .add => true
  | .xadd _, .xadd _ => true
  | _, _ => false

def CombineEntry.fn? (c : CombineEntry) : Option AtomicFn :=
  match c.members with
  | m :: _ => match m.op with | .atomic fn _ => some fn | _ => none
  | [] => none

/-- The entry still takes this atomic. -/
def State.joinsGroup (s : State) (c : CombineEntry) (slice : Option (Nat × Nat)) (r : Req) (fn : AtomicFn) (pa : Nat) : Bool :=
  c.slice == slice && c.load.isNone && !c.closing && c.pa == pa && c.size == r.size && (c.fn?.map (·.sameKind fn)).getD false && decide (s.cycle < c.openedAt + combineCycles) &&
    decide (c.members.length < combineMembers)

/-- The atomic enters the entry of its word. -/
def State.joinGroup (s : State) (slice : Option (Nat × Nat)) (r : Req) (fn : AtomicFn) (pa : Nat) : State :=
  { s with combine := s.combine.map fun c => if s.joinsGroup c slice r fn pa then { c with members := c.members ++ [r] } else c }

/-- The atomic opens an entry for its word. -/
def State.openGroup (s : State) (slice : Option (Nat × Nat)) (r : Req) (pa : Nat) : State :=
  { s with combine := s.combine ++ [{ pa := pa, size := r.size, openedAt := s.cycle, members := [r], slice := slice, load := none,
                                       closing := false }] }

/-- An atomic that may be combined joins the entry of its word or opens one; while every entry of the front end is in use it
waits (assumptions 34 and 108). -/
def State.combineOne (s : State) (n : Nat) (r : Req) (fn : AtomicFn) (pa : Nat) : State :=
  if s.combine.any (fun c => s.joinsGroup c none r fn pa) && s.firstAtHome n r pa && !s.frozenAt pa && !s.alias pa r.va &&
      !s.behindHeld n pa false && s.dieLive (s.homeDie pa) then
    (s.dropReq r).joinGroup none r fn pa
  else
    s.withTurn n r pa fun s =>
      if s.combineRoom (s.homeDie pa, homeSlice pa) then (s.dropReq r).openGroup none r pa else s

def State.atomicAtHome (s : State) (n : Nat) (r : Req) (fn : AtomicFn) (x pa : Nat) (held : Bool) : State :=
  if fn.combines && !s.inPool r.va && s.leaseOf pa ≤ s.cycle && !held then s.combineOne n r fn pa
  else
    s.withTurn n r pa fun s =>
      if s.inPool r.va then s.poolAccess r pa
      else if s.cycle < s.leaseOf pa then s.holdForLease r pa
      else s.atomicTurn r fn x pa held

/-- The results of a group in the order of its members, and the final word (R88). -/
def combineGroup (size : Nat) : List Req → Nat → List (Req × Nat) × Nat
  | [], v => ([], v)
  | r :: rs, v =>
    let v' := match r.op with | .atomic fn x => (fn.eval size v x).1 | _ => v
    let (out, last) := combineGroup size rs v'
    ((r, v) :: out, last)

/-- Go on once the line has an entry, or room for one (R65, R80). -/
def State.withRoom (s : State) (pa : Nat) (go : State → State) : State :=
  match s.entryRoom pa with
  | some s => s
  | none => go s

/-- A group is performed at its home as one read-modify-write, compared once (R70, R87); it counts as held by a lease that has
run out since it opened (R83, R84). -/
def State.closeGroup (s : State) (n : Nat) (c : CombineEntry) : State :=
  match c.members with
  | [] => { s with combine := listErase s.combine n }
  | r :: _ =>
    let asked := s.askOwners c.pa r.va
    if asked.hasSnoop c.pa then asked
    else match s.askHost c.pa true with
      | some s => s
      | none => s.withRoom c.pa fun s =>
        let s := { s with combine := listErase s.combine n }
        if s.anyPoison c.pa c.size then
          c.members.foldl (fun s m => s.accessFault m.who m.va m.op false (s.unitDie c.pa m.who) .poisonedData none false) s
        else
          let s := s.ensureDir c.pa r.va
          let d := memSector s.mem c.pa
          let (out, last) := combineGroup c.size c.members (sectorNat d c.pa c.size)
          let new := mergeBytes d (c.pa % 64) ((toBytes c.size last).map some)
          let bricks := (c.members.map fun m => dieOfCore m.who.core).eraseDups
          let s := s.homeWrite c.pa r.va bricks new (touchedBytes c.pa c.size) (decide (c.openedAt < s.leaseOf c.pa))
          { s with reqs := s.reqs ++ out.map fun (m, v) => { m with phase := .acks c.pa v 0 } }

/-- A group is performed at the caching slice of a brick that owns its sector, or its members go on to the home when the brick
has lost it (R87, R271). -/
def State.closeSlice (s : State) (n : Nat) (c : CombineEntry) (b va : Nat) : State :=
  let s := { s with combine := listErase s.combine n }
  if !s.brickOwns b va then { s with reqs := s.reqs ++ c.members }
  else if s.linePoison b va then
    c.members.foldl (fun s m => s.accessFault m.who m.va m.op false b .poisonedData none false) s
  else
    let d := (s.brickData b va).getD 0
    let (out, last) := combineGroup c.size c.members (sectorNat d va c.size)
    let cl := clusterOfCore ((c.members.getLast?.map fun m => m.who.core).getD 0)
    let s := s.writeInBrick cl va (mergeBytes d (va % 64) ((toBytes c.size last).map some))
    out.foldl (fun s (m, v) => (if m.acq then s.acquireAt b else s).accessDone m.who m.op m.posted m.reply v 0) s

/-- A snoop, or another access, to the sector of the entries at the caching slice of a brick closes them first (R87): those of
loads go, and a group is performed. -/
def State.closeSlices (s : State) (b va : Nat) : State :=
  let s := s.closeLoads b va
  (s.combine.filter fun c => c.sliceAt b va).foldl (fun s c =>
    match s.combine.findIdx? (· == c) with
    | some n => s.closeSlice n c b ((c.slice.map (·.2)).getD 0)
    | none => s) s

/-! ## Write-backs, `cwb` and `cinv` -/

/-- `cwb` (R270): every dirty sector of the line in the brick goes home, and the brick keeps it clean. -/
def State.writeBackLine (s : State) (b va pa : Nat) (held : Bool) : State :=
  [0, 1, 2, 3].foldl (fun s k =>
    let p := pa / 256 * 256 + 64 * k
    let v := va / 256 * 256 + 64 * k
    if (s.brickDirty b (lineOfAddr v) k).isSome then
      (s.writeBackBrick b v p held).editCopies b v fun c => if c.st = .m then { c with st := .e } else c
    else s) s

/-- A brick holds dirty data of a line. -/
def State.brickDirtyLine (s : State) (b va : Nat) : Bool :=
  [0, 1, 2, 3].any fun k => (s.brickDirty b (lineOfAddr va) k).isSome

/-- `cinv` (R270): every copy is recalled; then the directory entry goes, and for host memory the agent gives up its
ownership. -/
def State.invalidateLine (s : State) (r : Req) (pa : Nat) : State :=
  let asked := s.recallLine pa r.va
  if asked.snoopPending r pa then asked
  else
    let s := (s.dropReq r).tidyDir pa
    let own := s.agentOwns (lineOfAddr pa)
    let out := if s.onDevice pa then [] else [0, 1, 2, 3].filterMap fun k =>
      let p := pa / 256 * 256 + 64 * k
      if own.get k = .m then some (OutMsg.cxlCacheWrite p (memSector s.mem p)) else none
    let s := if s.onDevice pa then s
      else { s with dca := Table.erase s.dca (lineOfAddr pa), dcaOwn := Table.erase s.dcaOwn (lineOfAddr pa),
                    outbox := s.outbox ++ out }
    s.accessDone r.who r.op r.posted r.reply 0 0

/-! ## The steps -/

/-- READ_REQUEST (R67): a load, or a prefetch, by a brick that does not hold the sector subscribed. -/
def execReadRequest (n : Nat) (s : State) : Result :=
  match s.reqs[n]? with
  | some r => match r.phase with
    | .home pa wr master => match r.op with
      | .load =>
        if (s.dirSector pa).bricks.get (dieOfCore r.who.core) = .sub then .next s
        else .next ((s.joinLoad n r pa wr master).getD (s.readAtHome n r pa wr master))
      | .prefetch ex => .next (s.prefetchAtHome n r ex pa wr master)
      | _ => .next s
    | .xlat | .acks _ _ _ | .frozen _ | .turn _ _ _ => .next s
  | none => .next s

/-- SUBSCRIBE_REQUEST (R68): a subscribed load by a brick that does not hold the sector subscribed. -/
def execSubscribeRequest (n : Nat) (s : State) : Result :=
  match s.reqs[n]? with
  | some r => match r.phase with
    | .home pa wr master => match r.op with
      | .subscribe _ _ =>
        if (s.dirSector pa).bricks.get (dieOfCore r.who.core) = .sub then .next s
        else .next (s.readAtHome n r pa wr master)
      | _ => .next s
    | .xlat | .acks _ _ _ | .frozen _ | .turn _ _ _ => .next s
  | none => .next s

/-- PRECISION_CHANGE (R74): a load or a subscribed load by a brick that holds the sector subscribed. -/
def execPrecisionChange (n : Nat) (s : State) : Result :=
  match s.reqs[n]? with
  | some r => match r.phase with
    | .home pa wr master => match r.op with
      | .load | .subscribe _ _ =>
        if (s.dirSector pa).bricks.get (dieOfCore r.who.core) = .sub then .next (s.readAtHome n r pa wr master)
        else .next s
      | _ => .next s
    | .xlat | .acks _ _ _ | .frozen _ | .turn _ _ _ => .next s
  | none => .next s

/-- The reply of a write that the home performed, once every message of its sector is acknowledged (R69); the store has left
its buffer before, and the entry of a sector that no one holds is freed (R65). -/
def State.acknowledge (s : State) (r : Req) (pa v : Nat) (fl : BitVec 32) : State :=
  if s.hasSnoop pa then s
  else
    let s := (s.dropReq r).tidyDir pa
    let s := if r.acq then s.acquireAt (dieOfCore r.who.core) else s
    if r.posted then s else s.reply r.who 1 (r.reply.body v fl)

/-- STORE_REQUEST (R69). -/
def execStoreRequest (n : Nat) (s : State) : Result :=
  match s.reqs[n]? with
  | some r => match r.op, r.phase with
    | .store bs, .home pa wr master => .next (if r.heldUntil = 0 then s.storeAtHome n r bs pa wr master false else s)
    | .store _, .acks pa v fl => .next (s.acknowledge r pa v fl)
    | _, _ => .next s
  | none => .next s

/-- HOME_ATOMIC (R69, R388). -/
def execHomeAtomic (n : Nat) (s : State) : Result :=
  match s.reqs[n]? with
  | some r => match r.op, r.phase with
    | .atomic fn x, .home pa _ _ => .next (if r.heldUntil = 0 then s.atomicAtHome n r fn x pa false else s)
    | .atomic _ _, .acks pa v fl => .next (s.acknowledge r pa v fl)
    | _, _ => .next s
  | none => .next s

/-- A notice carries dirty data. -/
def noticeDirty (d : Quad (Option (BitVec 512))) : Bool := [0, 1, 2, 3].any fun k => (d.get k).isSome

/-- The notice of an eviction at its home, over its line's circuit and in its turn (R33, R66): one with dirty data waits for the
expiry of a lease on its line (R84). -/
def State.noticeAtHome (s : State) (n : Nat) (r : Req) (d : Quad (Option (BitVec 512))) (pa : Nat) : State :=
  if (r.via.isNone && !s.lineOpen (dieOfCore r.who.core) pa) || !s.firstAtHome n r pa then s
  else if noticeDirty d && decide (s.cycle < s.leaseOf pa) then s.holdForLease r pa
  else (applyNotice (s.dropReq r) (dieOfCore r.who.core) r.va pa d (r.heldUntil != 0)).tidyDir pa

/-- A `cwb` whose turn has come (R270): its dirty data waits for the expiry of a lease on the line (R84). -/
def State.cwbAtHome (s : State) (n : Nat) (r : Req) (pa : Nat) : State :=
  s.withTurn n r pa fun s =>
    if s.cycle < s.leaseOf pa && s.brickDirtyLine (dieOfCore r.who.core) r.va then s.holdForLease r pa
    else ((s.writeBackLine (dieOfCore r.who.core) r.va pa (r.heldUntil != 0)).dropReq r).accessDone r.who r.op r.posted r.reply 0 0

/-- WRITE_BACK (R67): dirty sectors reach their home: those of an eviction, and those of `cwb` and `cinv` (R270). One to a leased
line waits for the expiry (R84). -/
def execWriteBack (n : Nat) (s : State) : Result :=
  match s.reqs[n]? with
  | some r => match r.op, r.phase with
    | .notice d, .home pa _ _ => .next (if noticeDirty d then s.noticeAtHome n r d pa else s)
    | .cwb, .home pa _ _ => .next (if r.heldUntil = 0 then s.cwbAtHome n r pa else s)
    | .cinv, .home pa _ _ =>
      .next (s.withTurn n r pa fun s => s.invalidateLine r pa)
    | _, _ => .next s
  | none => .next s

/-- DROP_NOTICE (R65, R67). -/
def execDropNotice (n : Nat) (s : State) : Result :=
  match s.reqs[n]? with
  | some r => match r.op, r.phase with
    | .notice d, .home pa _ _ =>
      .next (if noticeDirty d then s else s.noticeAtHome n r d pa)
    | _, _ => .next s
  | none => .next s

/-- A snoop of a brick: received over the line's circuit, once the pair can send it (R33) and after the group of its sector at the
brick's caching slice has closed (R87), or, once acknowledged, applied to the brick's copies with every other one of the sector that
has reached it, in their order (R291). A write-back of the brick that a lease holds goes first (R66, R84). -/
def State.snoopStep (s : State) (n b : Nat) (x : Snoop) : State :=
  if x.acked then s.applyAt b x.pa
  else if !s.lineOpen b x.pa || s.ownHeld b x.pa then s
  else (s.closeSlices b x.va).receiveSnoop n b x

/-- SNOOP_SHARE (R67). -/
def execSnoopShare (n : Nat) (s : State) : Result :=
  match s.snoops[n]? with
  | some x => match x.target, x.kind with
    | .brick b, .share => .next (s.snoopStep n b x)
    | _, _ => .next s
  | none => .next s

/-- SNOOP_INVALIDATE (R67): the holder receives and acknowledges the message, and applies it then or later (R291). -/
def execSnoopInvalidate (n : Nat) (s : State) : Result :=
  match s.snoops[n]? with
  | some x => match x.target, x.kind with
    | .brick b, .inval => .next (s.snoopStep n b x)
    | .brick b, .invalFmt _ => .next (s.snoopStep n b x)
    | _, _ => .next s
  | none => .next s

/-- UPDATE (R72, R73). -/
def execUpdate (n : Nat) (s : State) : Result :=
  match s.snoops[n]? with
  | some x => match x.target, x.kind with
    | .brick b, .update _ _ _ => .next (s.snoopStep n b x)
    | _, _ => .next s
  | none => .next s

/-- HOME_ENTRY_LEASE_EXPIRY (R65): the entry of a line that nothing but a lease kept is freed when the lease has expired. -/
def execHomeEntryLeaseExpiry (n : Nat) (s : State) : Result :=
  match Table.get? s.dir n with
  | some e => .next (if 0 < e.leaseExp && e.leaseExp ≤ s.cycle then s.tidyDir (n * 256) else s)
  | none => .next s

/-- An entry closes: after 16 cycles, at 16 requests, or because another access or a snoop has asked it to (R87). -/
def CombineEntry.due (c : CombineEntry) (cycle : Nat) : Bool :=
  c.closing || decide (c.openedAt + combineCycles ≤ cycle) || decide (combineMembers ≤ c.members.length) ||
    c.load.any fun (_, n) => decide (combineMembers ≤ n)

/-- COMBINE_ENTRY_CLOSE (R87): the group is performed; a lease on the line is waited for (R84). -/
def execCombineEntryClose (n : Nat) (s : State) : Result :=
  match s.combine[n]? with
  | some c =>
    if !c.due s.cycle then .next s
    else if c.load.isSome then .next { s with combine := listErase s.combine n }
    else match c.slice with
      | some (b, va) => .next (s.closeSlice n c b va)
      | none => .next (if s.cycle < s.leaseOf c.pa then s else s.closeGroup n c)
  | none => .next s

/-- BACK_INVALIDATE_RESPONSE (R79): the host yields its copy of a sector, with its dirty data. -/
def execBackInvalidateResponse (n : Nat) (data : Option (BitVec 512)) (s : State) : Result :=
  match s.snoops[n]? with
  | some x => match x.target with
    | .host =>
      let s := match data with
        | some d => s.acceptDirty x.pa d false
        | none => s
      let s := (s.modifySector x.pa fun y => { y with host := .i }).tidyDir x.pa
      .next { s with snoops := listErase s.snoops n, outbox := s.outbox.erase (.hostBackInval x.pa) }
    | .brick _ => .next s
  | none => .next s

/-- CXL_CACHE_GRANT (R80): the host grants the device coherence agent a sector of host memory. -/
def execCxlCacheGrant (n : Nat) (data : BitVec 512) (excl : Bool) (s : State) : Result :=
  match s.outbox[n]? with
  | some (.cxlCacheRead pa _) =>
    let own := (s.agentOwns (lineOfAddr pa)).set (sectorIndex pa) (if excl then HostState.m else .s)
    .next { s.ensureDir pa (noVaLine * 256) with
            mem := putSector s.mem pa data, dcaOwn := Table.set s.dcaOwn (lineOfAddr pa) own, outbox := listErase s.outbox n }
  | _ => .next s

/-- NACK_MESSAGE (R340): the failed store's PC enters DEFERRED_PC if that is zero; the core's waiters look again. -/
def State.applyNack (s : State) (ctx : Nat) (gen : BitVec 16) (pc : BitVec 32) : State :=
  let p := s.place ctx
  match p with
  | .bad pa l => s.poisonCtx ctx pa l { ctx := ctx, gen := gen, domain := BitVec.ofNat 16 l.domain,
                                        part := BitVec.ofNat 8 l.partition, core := 0, pc := pc, word := 0 }
  | .unmapped => s
  | .entry _ _ _ | .l2 _ _ | .transfer _ | .memory _ _ =>
    match p.line? with
    | none => s
    | some l =>
      if l.gen != gen || l.inState .free || l.inState .poisoned || l.deferredPc != 0 then s
      else s.putLine ctx p { l with deferredPc := pc }

/-- The threads that wait for the buffer of the core that holds a context look again. -/
def State.wakeBuffer (s : State) (ctx : Nat) : State :=
  match s.findEntry ctx with
  | some (c, _, _) =>
    let k := s.core c
    k.sbWaiters.foldl (fun s w => s.reply w 1 .wake) (s.setCore c { k with sbWaiters := [] })
  | none => s

def execNackMessage (n : Nat) (s : State) : Result :=
  match s.nacks[n]? with
  | some (ctx, gen, pc) =>
    match s.place ctx with
    | .transfer _ => .next s
    | .entry _ _ _ | .l2 _ _ | .memory _ _ | .bad _ _ | .unmapped =>
      .next (({ s with nacks := listErase s.nacks n }.applyNack ctx gen pc).wakeBuffer ctx)
  | none => .next s

end Sys2Proof.Machine
end

