-- ==== Sys2Proof/Machine/Jobs.lean ====
section
/-!
DEFINITION. Machine/Jobs.lean: the job queue of a copy unit (R108 to R110): identifiers, queries, the completion of a job
and its cancellation.
-/
namespace Sys2Proof.Machine

/-! ## Identifiers and status words (R108, R282) -/

def jobCluster (j : Nat) : Nat := bits j 26 16
def jobSeq (j : Nat) : Nat := bits j 15 6
def jobSlotOf (j : Nat) : Nat := bits j 5 0
def jobId (cl seq slot : Nat) : Nat := cl * 2 ^ 16 + seq % 2 ^ 10 * 2 ^ 6 + slot

def JobStatus.num : JobStatus → Nat
  | .ok => 0 | .cancelled => 1 | .protection => 2 | .bounds => 3 | .poisoned => 4 | .homeOffline => 5
  | .noCircuit => 6 | .migAbort => 7 | .expired => 8

/-- The status word (R282). -/
def jobWord (st : Option JobStatus) : Word64 :=
  match st with
  | some x => BitVec.ofNat 64 (2 ^ 8 + x.num)
  | none => 0

/-- The job that an identifier names, if its slot still holds it (R108, R109). -/
def State.jobOf (s : State) (j : Nat) : Option JobSlot :=
  (Table.get? (s.cluster (jobCluster j)).jobs (jobSlotOf j)).filter fun x => x.seq == jobSeq j

/-- What a query of an identifier finds (R109). -/
def State.jobStatus (s : State) (j : Nat) : Option JobStatus :=
  match s.jobOf j with
  | none => some .expired
  | some x => match x.state with
    | .done st => some st
    | .queued | .active | .pageWait => none

/-! ## Completion (R109, R110) -/

/-- A job ends with a status: its slot is DONE, and every thread that waits on it is woken with the status word. -/
def State.jobDone (s : State) (cl slot : Nat) (st : JobStatus) : State :=
  let k := s.cluster cl
  match Table.get? k.jobs slot with
  | none => s
  | some x =>
    let y : JobSlot := { x with state := .done st, order := k.jobOrder, waiters := [] }
    let s := s.setCluster cl { k with jobs := Table.set k.jobs slot y, jobOrder := k.jobOrder + 1 }
    x.waiters.foldl (fun s (w, d) => s.reply w 2 (.done [(d, jobWord (some st))] none 0)) s

/-- A job is no longer one that a refresh completes (R109, R281). -/
def ClusterState.leaveRefresh (k : ClusterState) (slot : Nat) : ClusterState :=
  { k with refreshes := k.refreshes.map fun r => { r with jobs := r.jobs.filter (· != slot) } }

def JobSlot.isDone (x : JobSlot) : Bool := match x.state with | .done _ => true | .queued | .active | .pageWait => false

/-- An ACTIVE job ends with a status once the writes that it has made are performed (R109, R298). -/
def State.endWith (s : State) (cl slot : Nat) (st : JobStatus) : State :=
  let k := s.cluster cl
  s.setCluster cl { k with jobs := Table.modify k.jobs slot fun x =>
    if x.state = .active ∧ x.ending = none then { x with ending := some st } else x }

/-- A job ends before its last line: an ACTIVE one once the writes that it has made are performed, any other at once; a `tload.sub`
job writes nothing itself, and its refresh goes on without it (R109, R298). -/
def State.endEarly (s : State) (cl slot : Nat) (x : JobSlot) (st : JobStatus) : State :=
  match x.state, x.kind with
  | .done _, _ => s
  | .active, .tloadSub _ | .pageWait, .tloadSub _ => (s.setCluster cl ((s.cluster cl).leaveRefresh slot)).jobDone cl slot st
  | .active, .copy _ _ _ | .active, .copy2 _ _ _ _ _ _ | .active, .gather _ _ _ _ _ | .active, .tload _ _ _
  | .active, .tstore _ _ _ | .active, .migrate _ _ => s.endWith cl slot st
  | .queued, _ | .pageWait, _ => s.jobDone cl slot st

/-- The `jcancel` column of R109. -/
def State.jobCancel (s : State) (j : Nat) : State :=
  match s.jobOf j with
  | none => s
  | some x => s.endEarly (jobCluster j) (jobSlotOf j) x .cancelled

/-- A thread waits for a job. -/
def State.jobAwait (s : State) (j : Nat) (w : Who) (d : Reg) : State :=
  let k := s.cluster (jobCluster j)
  s.setCluster (jobCluster j)
    { k with jobs := Table.modify k.jobs (jobSlotOf j) fun x => { x with waiters := x.waiters ++ [(w, d)] } }

/-! ## Submission (R108) -/

/-- The port through which a submission comes: its core's, or the router's for a context elsewhere. -/
def JobReq.port (r : JobReq) : Nat := if clusterOfCore r.who.core = r.cluster then r.who.core % 8 else 8

/-- The submission that a cluster's queue takes next: round robin over the ports that submit, behind the one served last; through one
port the earliest. -/
def nextSubmission (k : ClusterState) (qs : List JobReq) (cl : Nat) : Option JobReq :=
  let rank := fun (r : JobReq) => (r.port + 8 - k.submitPort) % 9
  leastBy (fun a b => decide (rank a < rank b)) (qs.filter fun r => r.cluster == cl)

/-- The slot that a submission takes: a FREE slot, of which the model takes the lowest (assumption 122), else the DONE slot that
completed longest ago; with the SEQ the job gets, which is 0 in a slot that was FREE (assumption 122). -/
def submitSlot (jobs : Table JobSlot) : Option (Nat × Nat) :=
  match freeIndex jobs 64 0 with
  | some i => some (i, 0)
  | none =>
    let done := jobs.filter fun (_, x) => match x.state with | .done _ => true | .queued | .active | .pageWait => false
    (done.foldl (fun (best : Option (Nat × JobSlot)) y => match best with
      | none => some y
      | some z => if y.2.order < z.2.order then some y else some z) none).map fun (i, x) => (i, (x.seq + 1) % 1024)

/-- Place a job in a queue: its identifier, or none when no slot can be taken. -/
def State.submitJob (s : State) (cl : Nat) (w : Who) (kind : JobKind) : Option (Nat × State) :=
  let k := s.cluster cl
  match submitSlot k.jobs with
  | none => none
  | some (i, seq) =>
    let x : JobSlot := { seq := seq, state := .queued, order := k.jobOrder, who := w, kind := kind, progress := 0,
                         held := none, ending := none, waiters := [] }
    some (jobId cl seq i, s.setCluster cl { k with jobs := Table.set k.jobs i x, jobOrder := k.jobOrder + 1 })

end Sys2Proof.Machine
end

