-- ==== Sys2Proof/Machine/Translation.lean ====
section
/-!
DEFINITION. Machine/Translation.lean: the steps of translation and protection: the lookup of a request (R41, R44, R45) and
where it goes from there (R34, R259, R359, R361), PLB refills (R39), `plbi` and `tlbi` (R40, R46), page-fault messages (R51)
and handler wakes (R336), and page migration (R53 to R55).
-/
namespace Sys2Proof.Machine

/-! ## Where a translated request goes (R16, R34, R259, R274) -/

/-- A circuit of the active table that is up and leads from a brick to an off-package port (R365). -/
def State.circuitTo (s : State) (die port : Nat) : Bool :=
  s.mortar.active.any fun (_, e) =>
    let x := e.toNat
    bit x 63 && bits x 62 61 == 2 && bit x 15 && bits x 9 6 == port && bits x 5 4 == die

/-- Such a circuit is being tuned: the brick holds its messages for the port until then (R367). -/
def State.circuitTuning (s : State) (die port : Nat) : Bool :=
  s.mortar.active.any fun (_, e) =>
    let x := e.toNat
    bit x 63 && bits x 62 61 == 1 && bit x 15 && bits x 9 6 == port && bits x 5 4 == die

/-- The optical port of a peer address (R361). -/
def peerPort (pa : Nat) : Nat := bits pa 45 43

/-- The atomics that the host port and a Talak port can carry (R274). -/
def AtomicFn.outside (fn : AtomicFn) (size : Nat) (talak : Bool) : Bool :=
  match fn with
  | .add | .swap => size == 4 || size == 8
  | .cas _ => size == 4 || size == 8 || (size == 16 && !talak)
  | .and | .or | .xor | .min | .max | .minu | .maxu | .fadd _ | .xadd _ | .qpush | .qpop => false

/-- A translated request goes to its home at a physical address: it arrives there behind those that have arrived before (R66),
over the circuit of its line where the home is another brick's; it waits while the pair cannot send (R33). -/
def State.toHomeSlice (s : State) (r : Req) (pa : Nat) (wr : Bool) (master : Nat) : State :=
  let a := dieOfCore r.who.core
  let b := s.unitDie pa r.who
  if s.dieLive b && !s.pairOpen a b pa then s
  else
    let s := s.dropReq r
    { s with reqs := s.reqs ++ [{ r with phase := .home pa wr master, via := s.circuitOf a b pa }] }

/-- The host port (8) or the optical port (0 to 7) through which a context has written (R263). -/
def State.markPort (s : State) (w : Who) (port : Nat) : State :=
  match s.findEntry w.ctx with
  | some (c, n, h) => if h.ports.contains port then s else s.putHeld c n { h with ports := h.ports ++ [port] }
  | none => s

/-- A request leaves the device: over PCIe (no port) or to a Talak port. A posted write leaves its store buffer then. -/
def State.sendOut (s : State) (r : Req) (pa master : Nat) (port : Option Nat) : State :=
  let q : OutReq := { who := r.who, va := r.va, pa := pa, size := r.size, op := r.op, reply := r.reply,
                      master := master, posted := r.posted, acq := r.acq, unit := none, mask := 2 ^ r.size - 1,
                      sentAt := s.cycle }
  let s := { s.dropReq r with outbox := s.outbox ++ [match port with | some p => .talak p q | none => .pcie q] }
  let wait := !r.op.holdsHead || !r.posted || port.isSome
  let s := if wait then { s with outReqs := s.outReqs ++ [q] } else s
  if r.op.holdsHead then (s.popBuffer r.who.core).markPort r.who (port.getD 8) else s

/-- A request for an address outside the device (R259, R274, R359, R361). -/
def State.goOutside (s : State) (r : Req) (pa master : Nat) (port : Option Nat) : State :=
  let die := dieOfCore r.who.core
  let fail := fun (c : FaultCode) => (s.dropReq r).accessFault r.who r.va r.op r.posted die c (some 2) false
  match r.op with
  | .prefetch _ | .notice _ => s.dropReq r
  | .cwb | .cinv => (s.dropReq r).accessDone r.who r.op r.posted r.reply 0 0
  | .feset _ | .ldfe | .stfe _ | .barrier _ _ | .swait _ | .sarm _ _ _ _ => fail .protection
  | .load | .subscribe _ _ | .store _ => if 8 < r.size ∧ r.reply ≠ .reissue then fail .protection else s.sendOut r pa master port
  | .atomic fn _ => if fn.outside r.size port.isSome then s.sendOut r pa master port else fail .unsupportedAtomic

/-- A translated request goes to its home, to the host port or to an optical port. -/
def State.route (s : State) (r : Req) (pa : Nat) (wr : Bool) (master : Nat) : State :=
  let die := dieOfCore r.who.core
  match s.rangeOf pa with
  | .hashed | .die _ | .hostCoherent | .hole =>
    match r.op with
    | .feset _ | .ldfe | .stfe _ | .barrier _ _ | .swait _ | .sarm _ _ _ _ =>
      (s.dropReq r).accessFault r.who r.va r.op r.posted die .protection (some 2) false
    | .atomic fn _ =>
      if fn = .qpush ∨ fn = .qpop then (s.dropReq r).accessFault r.who r.va r.op r.posted die .protection (some 2) false
      else s.toHomeSlice r pa wr (if s.inPool r.va then 0 else master)
    | .load | .subscribe _ _ | .store _ | .cwb | .cinv | .prefetch _ | .notice _ =>
      if s.inPool r.va && r.op.wholeLine then
        (match r.op with
         | .prefetch _ => s.dropReq r
         | _ => (s.dropReq r).accessDone r.who r.op r.posted r.reply 0 0)
      else s.toHomeSlice r pa wr (if s.inPool r.va then 0 else master)
  | .hostUncached => s.goOutside r pa master none
  | .peer =>
    if s.circuitTo die (peerPort pa) || r.op.wholeLine then s.goOutside r pa master (some (peerPort pa))
    else if s.circuitTuning die (peerPort pa) then s
    else (s.dropReq r).accessFault r.who r.va r.op r.posted die .noCircuit none false

/-! ## The translation cache (R46) -/

def tlbEntries : Nat := 65536

/-- The place of an entry in a translation cache: its size and its page. -/
def tlbKey (e : Nat) : Nat := if bit e 1 then 2 ^ 48 + bits e 55 25 else bits e 55 16

/-- Install a checked entry; a full cache gives up its first one. -/
def State.tlbInstall (s : State) (die e derived : Nat) : State :=
  let b := s.brick die
  let t := if b.tlb.length < tlbEntries then b.tlb else b.tlb.drop 1
  let x : TlbEntry := { entry := BitVec.ofNat 256 e, die := derived }
  s.setBrick die { b with tlb := Table.set t (tlbKey e) x }

/-- A lookup of a brick: the entry or the cause, and the state with the entry installed (R44, R45, R48). -/
def State.lookup (s : State) (die v : Nat) (write : Bool) : Except Nat Nat × State :=
  match s.tlbLookup die v, s.ptLookup v with
  | some _, _ => (s.translate die v write, s)
  | none, some e =>
    match s.checkEntry e v with
    | .ok d => (s.translate die v write, s.tlbInstall die e d)
    | .error c => (.error c, s)
  | none, none => (.error causeNotPresent, s)

/-- An operation that the page's WR must allow. -/
def AccessOp.writes : AccessOp → Bool
  | .store _ | .atomic _ _ => true
  | .load | .subscribe _ _ | .feset _ | .ldfe | .stfe _ | .barrier _ _ | .swait _ | .sarm _ _ _ _ | .cwb | .cinv
  | .prefetch _ | .notice _ => false

/-- TRANSLATION_LOOKUP (R41, R44, R45, R50). -/
def execTranslationLookup (n : Nat) (s : State) : Result :=
  match s.reqs[n]? with
  | some r => match r.phase with
    | .xlat =>
      match s.lookup (dieOfCore r.who.core) r.va r.op.writes with
      | (.ok e, s) => .next (s.route r (pteAddr e r.va) (pteWr e) (pteMaster e))
      | (.error c, s) => .next ((s.dropReq r).pageFaulted r c)
    | .home _ _ _ | .acks _ _ _ | .frozen _ | .turn _ _ _ => .next s
  | none => .next s

/-! ## The PLB (R39, R40) -/

/-- Two regions of power-of-two size overlap. -/
def regionsMeet (a n b m : Nat) : Bool := let k := max n m; decide (a / 2 ^ k = b / 2 ^ k)

def plbMeets (e : PlbEntry) (domain : Option Nat) (base log2 : Nat) : Bool :=
  (match domain with | some d => decide (65536 ≤ d) || bits e.toNat 127 112 == d | none => true) &&
    regionsMeet (bits e.toNat 55 0) (bits e.toNat 103 98) base log2

/-- What a refill has found for an address of a domain lies in the range of a `plbi` (R40). -/
def Denied.meets (d : Denied) (domain : Option Nat) (base log2 : Nat) : Bool :=
  (match domain with | some x => decide (65536 ≤ x) || d.domain == x | none => true) && regionsMeet d.va 0 base log2

/-- Install a PLB entry round-robin, in place of every entry of its domain that it overlaps (R39). -/
def CoreState.plbInstall (c : CoreState) (e : Nat) : CoreState :=
  let t := c.plb.filter fun (_, x) => !plbMeets x (some (bits e 127 112)) (bits e 55 0) (bits e 103 98)
  { c with plb := Table.set t c.plbNext (BitVec.ofNat 128 e), plbNext := (c.plbNext + 1) % 64 }

/-- What a refill that finds no usable entry leaves at the core for the reissued access. -/
def PlbFill.refusal (f : PlbFill) : Denied :=
  { ctx := f.who.ctx, gen := f.who.gen, domain := f.who.domain.toNat, va := f.va }

/-- PLB_REFILL (R39): a walk that finds no usable entry leaves the reissue its protection violation, where the context is still
held by the core (assumption 13). -/
def execPlbRefill (n : Nat) (s : State) : Result :=
  match s.plbFills[n]? with
  | some f =>
    let s := { s with plbFills := listErase s.plbFills n }
    let c := s.core f.core
    let here := (s.findEntry f.who.ctx).any fun (k, _, h) => k == f.core && h.line.gen == f.who.gen
    let c := match s.refillEntry f.who.domain.toNat f.who.part.toNat f.va with
      | some e => c.plbInstall e
      | none => if here then { c with denied := c.denied ++ [f.refusal] } else c
    .next ((s.setCore f.core c).reply f.who 8 .wake)
  | none => .next s

/-- One of the agents of a `plbi` or `tlbi` has acted; the last acknowledgement completes the instruction. -/
def State.invAck (s : State) (n : Nat) (v : InvReq) (agent : Nat) : State :=
  let left := v.left.filter (· != agent)
  if left.isEmpty then { s with invs := listErase s.invs n }.reply v.who 1 (.done [] none 0)
  else { s with invs := listSet s.invs n { v with left := left } }

/-- PLBI_CORE_INVALIDATE (R40): what earlier refills have found in the range goes with the entries. -/
def execPlbiCoreInvalidate (n core : Nat) (s : State) : Result :=
  match s.invs[n]? with
  | some v =>
    if v.domain.isSome && v.left.contains core then
      let c := s.core core
      let s := s.setCore core { c with plb := c.plb.filter fun (_, x) => !plbMeets x v.domain v.base v.log2
                                       denied := c.denied.filter fun d => !d.meets v.domain v.base v.log2 }
      .next (s.invAck n v core)
    else .next s
  | none => .next s

/-- A brick removes the translations that overlap a range and clears the recorded WR of its L2 lines (R46). -/
def State.tlbiAt (s : State) (die base log2 : Nat) : State :=
  let b := s.brick die
  let meets := fun (t : TlbEntry) =>
    regionsMeet (bits t.entry.toNat 55 0 / 2 ^ 16 * 2 ^ 16) (pteSizeLog2 t.entry.toNat) base log2
  let s := s.setBrick die { b with tlb := b.tlb.filter fun (_, t) => !meets t }
  { s with l2 := s.l2.modify die fun t => t.map fun (v, l) =>
      if regionsMeet (v * 256) 8 base log2 then (v, { l with wr := false }) else (v, l) }

/-- TLBI_BRICK_INVALIDATE (R46). -/
def execTlbiBrickInvalidate (n : Nat) (die : Die) (s : State) : Result :=
  match s.invs[n]? with
  | some v =>
    if v.domain.isNone && v.left.contains die.val then .next ((s.tlbiAt die.val v.base v.log2).invAck n v die.val)
    else .next s
  | none => .next s

/-! ## Page-fault messages (R50, R51) and handler wakes (R336) -/

def PfMsg.bytes (m : PfMsg) : List Byte :=
  toBytes 8 (m.va % 2 ^ 56) ++ toBytes 8 (m.who.ctx % 2 ^ 56) ++
    toBytes 16 (m.die % 4 + m.access % 16 * 2 ^ 64 + m.cause % 16 * 2 ^ 68 + m.who.part.toNat * 2 ^ 72 +
      m.who.domain.toNat * 2 ^ 80 + m.who.pc.toNat * 2 ^ 96)

def State.pfqTailOf (s : State) (p : Nat) : Nat := ((Table.get? s.regs.pfqTail p).getD 0#32).toNat
def State.pfqHeadOf (s : State) (p : Nat) : Nat := ((Table.get? s.regs.pfqHead p).getD 0#32).toNat
def State.pfqBaseOf (s : State) (p : Nat) : Nat := ((Table.get? s.regs.pfqBase p).getD 0#64).toNat
def ringSlots (base : Nat) : Nat := if bits base 52 48 = 0 then 0 else 2 ^ bits base 52 48

/-- A handler's address can be used (R336). -/
def State.handlerUsable (s : State) (va : Nat) : Bool := va % 128 == 0 && s.inPool va

/-- Wake the handler of a queue, or log that its address cannot be used (R336); `who` gives the context, the PC, the domain and
the partition of what was queued. -/
def State.wakeHandler (s : State) (die : Nat) (fault : Bool) (queue handler : Nat) (who : Nat × BitVec 32 × BitVec 16 × BitVec 8) :
    State :=
  if s.handlerUsable handler then
    let h : HandlerWake := { die := die, fault := fault, queue := queue, handler := handler, retryAt := s.cycle,
                             sent := false, logged := none }
    if s.handlerWakes.any fun x => x.fault == fault && x.queue == queue && x.handler == handler then
      { s with handlerWakes := s.handlerWakes.map fun x =>
          if x.fault == fault && x.queue == queue && x.handler == handler then { x with retryAt := s.cycle } else x }
    else { s with handlerWakes := s.handlerWakes ++ [h] }
  else
    s.log { die := die, event := 6, detail := 0xFE, pc := who.2.1, domain := who.2.2.1, part := who.2.2.2, sourceDie := die,
            ctx := who.1, addr := handler }

/-- PFQ_MESSAGE_ACCEPT (R51): a message is written unless its queue is full or disabled. -/
def execPfqMessageAccept (die : Die) (n : Nat) (s : State) : Result :=
  let b := s.brick die.val
  match b.pfHeld[n]? with
  | some m =>
    let p := m.who.part.toNat
    let slots := ringSlots (s.pfqBaseOf p)
    let tail := s.pfqTailOf p
    if slots ≤ (tail + 2 ^ 32 - s.pfqHeadOf p) % 2 ^ 32 || s.leased (s.pfqBaseOf p % 2 ^ 48 + 32 * (tail % slots)) 32 then .next s
    else
      let s := s.setBrick die.val { b with pfHeld := listErase b.pfHeld n }
      let s := s.cohPut (s.pfqBaseOf p % 2 ^ 48 + 32 * (tail % slots)) m.bytes
      let s := { s with regs := { s.regs with pfqTail := Table.set s.regs.pfqTail p (BitVec.ofNat 32 (tail + 1)) } }
      .next (s.wakeHandler 0 false p (((Table.get? s.regs.pfqHandler p).getD 0#64).toNat % 2 ^ 56) (m.who.ctx, m.who.pc, m.who.domain, m.who.part))
  | none => .next s

/-! ## Page migration (R53 to R55) -/

/-- A round of copying may still be wanted before the freeze. -/
def Migration.roundDue (g : Migration) : Bool :=
  g.frozenAt.isNone && (g.rounds == 0 || (decide (64 < g.marked.length) && decide (g.rounds < 16)))

/-- The lines of a frame. -/
def Migration.lines (g : Migration) : List Nat := (List.range (g.size / 256)).map fun i => g.oldFrame / 256 + i

/-- The old frame holds an address. -/
def Migration.holds (g : Migration) (pa : Nat) : Bool := decide (g.oldFrame ≤ pa) && decide (pa < g.oldFrame + g.size)

/-- The held requests of a frame are released with RETRY: each thread reissues, a store at the head of its buffer is sent again
and a thread that waits for that buffer looks again, and what no thread waits for is translated again (R54). -/
def State.releaseFrozen (s : State) (g : Migration) : State :=
  let mine := fun (r : Req) => match r.phase with
    | .frozen pa => g.holds pa
    | .xlat | .home _ _ _ | .acks _ _ _ | .turn _ _ _ => false
  let held := s.reqs.filter mine
  let s := { s with reqs := s.reqs.filter fun r => !mine r }
  held.foldl (fun s r =>
    if !r.posted then s.reply r.who 8 .wake
    else if r.op.holdsHead then
      let c := s.core r.who.core
      let s := s.setCore r.who.core { c with sbPhase := .idle }
      match (s.place r.who.ctx).line? with
      | some l => if l.waitKind = 8 ∧ l.waitValue / 2 ^ 24 = 3 then s.reply r.who 8 .wake else s
      | none => s
    else { s with reqs := s.reqs ++ [{ r with phase := .xlat, heldUntil := 0 }] }) s

end Sys2Proof.Machine
end

