-- ==== Sys2Proof/Machine/Registers.lean ====
section
/-!
DEFINITION. Machine/Registers.lean: the registers of the register window (R17, R42, R56, R86, R113, R138, R304, R337, R364,
R376 to R379): where they lie (R30, R377, R378), what a load reads, and what a write does or why it is refused (R401).
-/
namespace Sys2Proof.Machine

/-! ## The layout -/

/-- The ID of a block's record (R378). -/
def blockId : Block → Nat
  | .translation => 1 | .coherence => 2 | .context => 3 | .code => 4 | .scheduling => 5 | .fault => 6 | .mortar => 7
  | .hostPort => 8 | .attestation => 9 | .hbm => 10 | .partition => 11 | .capability => 0 | .unmapped => 0

/-- The blocks of a brick's list (R378). -/
def blocksOf (die : Nat) : List Block :=
  if die = 0 then [.translation, .coherence, .context, .code, .scheduling, .fault, .mortar, .hostPort, .attestation, .hbm,
    .partition]
  else [.coherence, .scheduling, .fault, .mortar, .hostPort, .attestation, .hbm, .partition]

/-- Bytes from a block's start to the end of its last register. -/
def blockSize : Block → Nat
  | .translation => 0x900 | .coherence => 0x20 | .context => 0x10 | .code => 8 | .scheduling => 0x3010 | .fault => 0x118
  | .mortar => 0x580 | .hostPort => 8 | .attestation => 0x228 | .hbm => 8 | .partition => 0x200 | .capability => 0
  | .unmapped => 0

/-- LENGTH of a record in words (R377, R378). -/
def recordWords (b : Block) : Nat := if b = .hostPort then 3 else 2

/-- The records of a list from a byte offset on, each with its offset: every record follows the one before it, after the words
left free (assumption 11). -/
def recordsFrom (die o : Nat) : List Block → List (Block × Nat)
  | [] => []
  | b :: bs => (b, o) :: recordsFrom die (o + 8 * (recordWords b + Config.recordGap die (blockId b) % 256)) bs

/-- The capability list of a brick, which begins at CAPBASE (R377). -/
def records (die : Nat) : List (Block × Nat) := recordsFrom die 0 (blocksOf die)

/-- The record that holds a byte of a brick's window, with its offset. -/
def recordAt (die o : Nat) : Option (Block × Nat) :=
  (records die).find? fun (b, p) => decide (p ≤ o) && decide (o < p + 8 * recordWords b)

/-- NEXT of the record at an offset: the offset of the record after it, or 0 at the end of the list (R377). -/
def recordNext (die p : Nat) : Nat := (((records die).dropWhile fun (_, q) => q ≤ p).head?.map (·.2)).getD 0

/-- The block and the offset in it of a byte of a brick's window. -/
def blockAt (die o : Nat) : Block × Nat :=
  match recordAt die o with
  | some _ => (.capability, o)
  | none =>
    match (blocksOf die).find? fun b =>
      decide (Config.blockOffset die (blockId b) ≤ o) && decide (o < Config.blockOffset die (blockId b) + blockSize b) with
    | some b => (b, o - Config.blockOffset die (blockId b))
    | none => (.unmapped, o)

/-- The register that holds a byte of a block: its offset and width in bytes. -/
def registerAt (die : Nat) (b : Block) (o : Nat) : Option (Nat × Nat) :=
  let word := some (o / 8 * 8, 8)
  match b with
  | .translation =>
    if die ≠ 0 then none
    else if o < 0x18 then word
    else if 0x100 ≤ o ∧ o < 0x900 ∧ o % 32 < 24 then word else none
  | .coherence => if o < 0x20 ∧ o % 8 < 4 then some (o / 8 * 8, 4) else none
  | .context => if die = 0 ∧ o < 0x10 then word else none
  | .code => if die = 0 ∧ o < 8 then word else none
  | .scheduling =>
    if 0x3000 ≤ o ∧ o < 0x3010 then word
    else if die ≠ 0 then none
    else if o < 0x2000 then (if o % 32 < 24 then word else none)
    else if o < 0x2208 then word else none
  | .fault => if (0x100 ≤ o ∧ o < 0x118) ∨ (die = 0 ∧ o < 8) then word else none
  | .mortar =>
    if o < 0x410 then word
    else if 0x420 ≤ o ∧ o < 0x440 then word
    else if 0x500 ≤ o ∧ o < 0x580 then word else none
  | .hostPort | .hbm => if o < 8 then word else none
  | .attestation => if o < 0x30 ∨ (0x100 ≤ o ∧ o < 0x228) then word else none
  | .partition => if o < 0x200 then word else none
  | .capability => word
  | .unmapped => none

/-- The access form that R30 asks for. -/
def registerFault (die : Nat) (b : Block) (o width : Nat) : Option FaultCode :=
  match registerAt die b o with
  | none => some .protection
  | some (base, w) => if o = base ∧ width = w then none else some .misaligned

/-! ## Loads -/

def regOf (t : Table (BitVec 64)) (n : Nat) : Nat := ((Table.get? t n).getD 0#64).toNat
def reg32Of (t : Table (BitVec 32)) (n : Nat) : Nat := ((Table.get? t n).getD 0#32).toNat

/-- A word of a capability record (R377, R378). -/
def State.capabilityWord (s : State) (die o : Nat) : Nat :=
  match recordAt die o with
  | none => 0
  | some (b, p) =>
    match (o - p) / 8 with
    | 0 => blockId b + 1 * 2 ^ 16 + recordWords b * 2 ^ 24 + recordNext die p * 2 ^ 32
    | 1 => Config.blockOffset die (blockId b) % 2 ^ 32
    | _ => boolBit s.boot.ready + 2 * boolBit s.boot.recovery

def dieStateCode : DieState → Nat | .live => 0 | .quiescing => 1 | .reset => 2 | .admitting => 3

/-- The value of a register. -/
def State.readRegister (s : State) (die : Nat) (b : Block) (o : Nat) : Nat :=
  let g := s.regs
  let k := s.brick die
  match b with
  | .translation =>
    if o = 0 then g.ptBase.toNat
    else if o = 8 then g.ptLog2b.toNat
    else if o = 0x10 then g.drtBase.toNat
    else
      let n := (o - 0x100) / 32
      match (o - 0x100) % 32 with
      | 0 => regOf g.pfqBase n
      | 8 => reg32Of g.pfqHead n * 2 ^ 32 + reg32Of g.pfqTail n
      | _ => regOf g.pfqHandler n
  | .coherence =>
    if o = 0 then k.cohLease.toNat
    else if o = 8 then k.cohLeaseMin.toNat
    else if o = 0x10 then k.cohLeaseMax.toNat
    else k.portCompat.toNat
  | .context => if o = 0 then g.ctxPoolBase.toNat else g.ctxPoolCount.toNat
  | .code => g.ovtDirBase.toNat
  | .scheduling =>
    if o = 0x3000 then k.spillBase.toNat
    else if o = 0x3008 then k.freemapBase.toNat
    else if o = 0x2200 then g.expandLow.toNat
    else if 0x2000 ≤ o then ((Table.get? g.prioCap ((o - 0x2000) / 8)).getD 31#64).toNat
    else match o % 32 with
      | 0 => regOf g.lqBase (o / 32)
      | 8 => reg32Of g.lqHead (o / 32) * 2 ^ 32 + reg32Of g.lqTail (o / 32)
      | _ => regOf g.lqPrio (o / 32)
  | .fault =>
    if o = 0 then g.fqDirBase.toNat
    else if o = 0x100 then k.elogBase.toNat
    else if o = 0x108 then k.elogHead.toNat * 2 ^ 32 + k.elogTail.toNat
    else k.elogLost.toNat
  | .mortar =>
    let m := s.mortar
    if o < 0x200 then regOf m.shadow (o / 8)
    else if o < 0x400 then regOf m.active ((o - 0x200) / 8)
    else if o = 0x408 then m.ctStatus.toNat
    else if o < 0x420 then 0
    else if o < 0x440 then dieStateCode (m.bricks.get ((o - 0x420) / 8))
    else if o % 16 = 0 then regOf m.talakVbase ((o - 0x500) / 16)
    else regOf m.talakCfg ((o - 0x500) / 16)
  | .hostPort => g.powerLimit.toNat
  | .attestation =>
    if o < 0x20 then regOf s.att.nonce (o / 8)
    else if o < 0x28 then 0
    else if o < 0x30 then boolBit s.att.done + 2 * boolBit s.att.busy
    else ofBytes ((s.att.report.drop (o - 0x100)).take 8)
  | .hbm => g.hashedSize.toNat
  | .partition => regOf k.rects (o / 8)
  | .capability => s.capabilityWord die o
  | .unmapped => 0

/-! ## Writes (R401) -/

/-- What a write does: the next state, or it is refused. -/
abbrev WriteOut := Option State

/-- A base with a size field: aligned to its size times a unit, with a size of 0 or 4 to 16, and [63:53] zero; a ring of size
field 0 is disabled and takes any base (assumption 103). -/
def ringOk (v unit : Nat) : Bool :=
  let z := bits v 52 48
  bits v 63 53 == 0 && (z == 0 || (decide (4 ≤ z) && decide (z ≤ 16) && bits v 47 0 % (unit * 2 ^ z) == 0))

def powerOfTwo (v : Nat) : Bool := (List.range 64).any fun i => v == 2 ^ i

def baseOk (v align : Nat) : Bool := bits v 63 48 == 0 && v % align == 0

def State.withRegs (s : State) (f : DevRegs → DevRegs) : WriteOut := some { s with regs := f s.regs }
def State.withBrick (s : State) (die : Nat) (f : Brick → Brick) : WriteOut := some (s.setBrick die (f (s.brick die)))

/-- The translation block (R42). -/
def State.writeTranslation (s : State) (o v : Nat) : WriteOut :=
  let x := BitVec.ofNat 64 v
  if o = 0 then
    (if baseOk v (256 * 2 ^ (s.regs.ptLog2b.toNat % 32)) then s.withRegs fun g => { g with ptBase := x } else none)
  else if o = 8 then
    (if (v = 0 ∨ (10 ≤ v ∧ v ≤ 28)) ∧ s.regs.ptBase.toNat % (256 * 2 ^ v) = 0 then
      s.withRegs fun g => { g with ptLog2b := x } else none)
  else if o = 0x10 then
    (if baseOk v (2 ^ 21) then s.withRegs fun g => { g with drtBase := x, drtWritten := true } else none)
  else
    let n := (o - 0x100) / 32
    if o % 32 = 0 then
      (if ringOk v 32 then s.withRegs fun g => { g with pfqBase := Table.set g.pfqBase n x } else none)
    else
      (if v % 128 = 0 ∧ v < 2 ^ 56 then s.withRegs fun g => { g with pfqHandler := Table.set g.pfqHandler n x } else none)

/-- The coherence block (R86). -/
def State.writeCoherence (s : State) (die o v : Nat) : WriteOut :=
  let x := BitVec.ofNat 32 v
  let k := s.brick die
  if o = 0 then (if 1000 ≤ v ∧ v ≤ 1000000 then s.withBrick die fun k => { k with cohLease := x } else none)
  else if o = 8 then
    (if powerOfTwo v && decide (1024 ≤ v) && decide (v ≤ 65536) && decide (v ≤ k.cohLeaseMax.toNat) then
      s.withBrick die fun k => { k with cohLeaseMin := x } else none)
  else if o = 0x10 then
    (if powerOfTwo v && decide (k.cohLeaseMin.toNat ≤ v) && decide (v ≤ 1048576) then
      s.withBrick die fun k => { k with cohLeaseMax := x } else none)
  else (if v < 256 then s.withBrick die fun k => { k with portCompat := x } else none)

/-- The context block (R113): locked by the first launch. -/
def State.writeContext (s : State) (o v : Nat) : WriteOut :=
  let x := BitVec.ofNat 64 v
  if s.regs.launchLocked then none
  else if o = 0 then (if v < 2 ^ 56 ∧ v % 2 ^ 16 = 0 then s.withRegs fun g => { g with ctxPoolBase := x } else none)
  else (if 1 ≤ v ∧ v ≤ 2 ^ 29 then s.withRegs fun g => { g with ctxPoolCount := x } else none)

/-- A physical range lies in the die window of a brick (R16). -/
def State.inDieWindow (s : State) (die pa n : Nat) : Bool :=
  s.rangeOf pa == .die die && s.rangeOf (pa + (n - 1)) == .die die

/-- The scheduling block (R304). -/
def State.writeScheduling (s : State) (die o v : Nat) : WriteOut :=
  let x := BitVec.ofNat 64 v
  if o = 0x3000 then (if baseOk v (2 ^ 16) && s.inDieWindow die v (8 * s.poolCount) then s.withBrick die fun k => { k with spillBase := x } else none)
  else if o = 0x3008 then (if baseOk v (2 ^ 16) then s.withBrick die fun k => { k with freemapBase := x } else none)
  else if o = 0x2200 then (if 64 ≤ v ∧ v ≤ 65536 then s.withRegs fun g => { g with expandLow := x } else none)
  else if 0x2000 ≤ o then
    (if v < 32 then s.withRegs fun g => { g with prioCap := Table.set g.prioCap ((o - 0x2000) / 8) x } else none)
  else if o % 32 = 0 then
    (if ringOk v 64 then s.withRegs fun g => { g with lqBase := Table.set g.lqBase (o / 32) x } else none)
  else (if v < 32 then s.withRegs fun g => { g with lqPrio := Table.set g.lqPrio (o / 32) x } else none)

/-- The fault block (R337): HEAD of ELOG_PTR is written by software, TAIL is not. -/
def State.writeFault (s : State) (die o v : Nat) : WriteOut :=
  let x := BitVec.ofNat 64 v
  if o = 0 then (if baseOk v (2 ^ 21) then s.withRegs fun g => { g with fqDirBase := x, fqWritten := true } else none)
  else if o = 0x100 then (if ringOk v 32 then s.withBrick die fun k => { k with elogBase := x } else none)
  else s.withBrick die fun k => { k with elogHead := BitVec.ofNat 32 (v / 2 ^ 32) }

/-- A value that CT_SHADOW takes (R365, R401): its reserved bits and LINK are zero, and where B_EXT is 1, so is B_BRICK, and B_PORT
is an off-package port; what is left a commit checks (R367, assumption 102). -/
def shadowOk (v : Nat) : Bool :=
  bits v 62 61 == 0 && bits v 60 16 == 0 && bits v 14 12 == 0 && (!bit v 15 || (bits v 11 10 == 0 && decide (bits v 9 6 < 8)))

/-- The Mortar block (R362, R364). -/
def State.writeMortar (s : State) (o v : Nat) : WriteOut :=
  let x := BitVec.ofNat 64 v
  let m := s.mortar
  if o < 0x200 then (if shadowOk v then some { s with mortar := { m with shadow := Table.set m.shadow (o / 8) x } } else none)
  else if o < 0x500 then none
  else if o % 16 = 0 then
    (if v < 2 ^ 56 then some { s with mortar := { m with talakVbase := Table.set m.talakVbase ((o - 0x500) / 16) x } } else none)
  else
    (if bits v 63 32 = 0 ∧ bits v 30 22 = 0 ∧ 16 ≤ bits v 21 16 ∧ bits v 21 16 ≤ 43 then
      some { s with mortar := { m with talakCfg := Table.set m.talakCfg ((o - 0x500) / 16) x } } else none)

/-- A write to a register that has no row of its own; none is a refusal. CT_STATUS and ATT_STATUS, which the hardware writes, refuse
every write (assumption 103). -/
def State.writeRegister (s : State) (die : Nat) (b : Block) (o v : Nat) : WriteOut :=
  let x := BitVec.ofNat 64 v
  match b with
  | .translation => s.writeTranslation o v
  | .coherence => s.writeCoherence die o v
  | .context => s.writeContext o v
  | .code => if baseOk v (2 ^ 20) then s.withRegs fun g => { g with ovtDirBase := x, ovtWritten := true } else none
  | .scheduling => s.writeScheduling die o v
  | .fault => s.writeFault die o v
  | .mortar => s.writeMortar o v
  | .hostPort => if die = 0 ∧ 1000 ≤ v ∧ v ≤ 3000 then s.withRegs fun g => { g with powerLimit := x } else none
  | .attestation =>
    if o < 0x20 then some { s with att := { s.att with nonce := Table.set s.att.nonce (o / 8) x } } else none
  | .hbm =>
    if die = 0 ∧ v ≤ 48 ∧ s.regs.launchLocked = false then s.withRegs fun g => { g with hashedSize := x } else none
  | .partition | .capability | .unmapped => none

/-! ## The rows of their own -/

/-- The registers whose writes have rows of their own in the table of steps. -/
inductive OwnRow | lqPtr | pfqPtr | elogLost | partRect | ctCommit | brickState | attGo
  deriving DecidableEq, Repr

def ownRow (b : Block) (o : Nat) : Option OwnRow :=
  match b with
  | .scheduling => if o < 0x2000 ∧ o % 32 = 8 then some .lqPtr else none
  | .translation => if 0x100 ≤ o ∧ o % 32 = 8 then some .pfqPtr else none
  | .fault => if o = 0x110 then some .elogLost else none
  | .partition => some .partRect
  | .mortar => if o = 0x400 then some .ctCommit else if 0x420 ≤ o ∧ o < 0x440 then some .brickState else none
  | .attestation => if o = 0x20 then some .attGo else none
  | .coherence | .context | .code | .hostPort | .hbm | .capability | .unmapped => none

/-- The context behind a write, for the log. -/
def srcWho : RegSrc → Option Who
  | .ctx w => some w
  | .host | .talak _ => none

/-- A REGISTER_REFUSED entry (event 2) with the register's offset. -/
def State.logRefused (s : State) (w : RegAccess) : State :=
  let a := regWindow + w.die.val * 2 ^ 32 + Config.blockOffset w.die.val (blockId w.block) + w.offset
  let v : Who := (srcWho w.src).getD { ctx := 0, gen := 0, domain := 0, part := 0, core := w.die.val * 4096, pc := 0, word := 0 }
  s.log { die := w.die.val, event := 2, detail := w.offset, pc := v.pc, domain := v.domain, part := v.part,
          sourceDie := dieOfCore v.core, ctx := v.ctx, addr := a }

/-- The store of a context that a write comes from, among the requests on their way. -/
def State.findWrite (s : State) (w : RegAccess) : Option BankReq :=
  match w.src with
  | .host | .talak _ => none
  | .ctx who => s.bankQ.find? fun r => r.who == who && (match r.op, targetOf r.addr with
      | .store bs, .reg die o => die == w.die.val && blockAt die o == (w.block, w.offset) && bs.length == w.width &&
          ofBytes bs == w.value.toNat
      | _, _ => false)

/-- A write to the register window: the form that R30 asks for, then its effect or its refusal; the context's store
completes or takes its fault, and a peer's PUT is acknowledged (R361). A write of a context that no store on its way carries does
nothing. -/
def State.regWrite (s : State) (w : RegAccess) (effect : State → WriteOut) : State :=
  let apply := fun (s : State) => match effect s with
    | some s => s
    | none => s.logRefused w
  let fault := match registerFault w.die.val w.block w.offset w.width with
    | some c => some c
    | none => if w.block = .capability then some .protection else none
  match w.src with
  | .host => if fault.isSome then s else apply s
  | .talak p =>
    if fault.isSome then s
    else
      let s := apply s
      { s with outbox := s.outbox ++ [.talakAck p.val] }
  | .ctx _ =>
    match s.findWrite w with
    | none => s
    | some r =>
      let s := { s with bankQ := s.bankQ.erase r }
      match fault with
      | some c => s.accessFault r.who r.addr r.op r.posted w.die.val c (some 2) false
      | none => (apply s).accessDone r.who r.op r.posted r.reply 0 0

/-- REGISTER_WRITE (R30, R401). -/
def execRegisterWrite (w : RegAccess) (s : State) : Result :=
  if (ownRow w.block w.offset).isSome && (registerFault w.die.val w.block w.offset w.width).isNone then .next s
  else .next (s.regWrite w fun s => s.writeRegister w.die.val w.block w.offset w.value.toNat)

/-- A row of its own takes the writes of its register only. -/
def State.ownWrite (s : State) (w : RegAccess) (row : OwnRow) (effect : State → Nat → WriteOut) : State :=
  if ownRow w.block w.offset = some row then s.regWrite w fun s => effect s w.value.toNat else s

/-- LAUNCH_QUEUE_TAIL_WRITE (R304, R305, R375): a disabled queue refuses it; the first accepted one locks the registers. -/
def execLaunchQueueTailWrite (w : RegAccess) (s : State) : Result :=
  .next (s.ownWrite w .lqPtr fun s v =>
    let n := w.offset / 32
    if lqSlots (s.lqBaseOf n) = 0 then none
    else s.lockLaunch.withRegs fun g => { g with lqTail := Table.set g.lqTail n (BitVec.ofNat 32 v) })

/-- PFQ_HEAD_WRITE (R42, R51). -/
def execPfqHeadWrite (w : RegAccess) (s : State) : Result :=
  .next (s.ownWrite w .pfqPtr fun s v =>
    s.withRegs fun g => { g with pfqHead := Table.set g.pfqHead ((w.offset - 0x100) / 32) (BitVec.ofNat 32 (v / 2 ^ 32)) })

/-- ELOG_LOST_CLEAR (R337): a write of zero clears it, and other writes are ignored. -/
def execElogLostClear (w : RegAccess) (s : State) : Result :=
  .next (s.ownWrite w .elogLost fun s v =>
    if v = 0 then s.withBrick w.die.val fun k => { k with elogLost := 0#32 } else some s)

/-- Two rectangles share a cluster (R56). -/
def rectsMeet (a b : Nat) : Bool :=
  decide (bits a 4 0 ≤ bits b 12 8) && decide (bits b 4 0 ≤ bits a 12 8) && decide (bits a 19 16 ≤ bits b 27 24) &&
    decide (bits b 19 16 ≤ bits a 27 24)

/-- A PART_RECT value that a brick accepts for a partition (R56). -/
def State.rectOk (s : State) (die p v : Nat) : Bool :=
  bits v 63 32 == 0 && bits v 30 28 == 0 && bits v 23 20 == 0 && bits v 15 13 == 0 && bits v 7 5 == 0 &&
    decide (bits v 4 0 ≤ bits v 12 8) && decide (bits v 19 16 ≤ bits v 27 24) &&
    (!bit v 31 || (s.brick die).rects.all fun (q, r) => q == p || !bit r.toNat 31 || !rectsMeet v r.toNat)

/-- PART_RECT_WRITE (R56). -/
def execPartRectWrite (w : RegAccess) (s : State) : Result :=
  .next (s.ownWrite w .partRect fun s v =>
    let p := w.offset / 8
    if s.rectOk w.die.val p v then
      s.withBrick w.die.val fun k => { k with rects := Table.set k.rects p (BitVec.ofNat 64 v) }
    else none)

/-- ATT_GO (R376): a write of 1 starts a report unless one is in progress; a write of another value is ignored (assumption 103). -/
def execAttGo (w : RegAccess) (s : State) : Result :=
  .next (s.ownWrite w .attGo fun s v =>
    if v = 1 && !s.att.busy then some { s with att := { s.att with busy := true, done := false } } else some s)

end Sys2Proof.Machine
end

