-- ==== Sys2Proof/Machine/BankEvents.lean ====
section
/-!
DEFINITION. Machine/BankEvents.lean: the steps of the banks and wait tables (R30, R57, R93 to R99, R276), of the store buffer
(R52, R260, R271) and of fence probes (R263).
-/
namespace Sys2Proof.Machine

/-! ## Banks and register blocks -/

/-- The reply of a register block to an access that is no store (R30). -/
def State.registerAccess (s : State) (r : BankReq) (die o : Nat) : State :=
  let (b, off) := blockAt die o
  match r.op with
  | .load =>
    match registerFault die b off r.size with
    | some c => s.accessFault r.who r.addr r.op r.posted die c (some 2) false
    | none =>
      let v := s.readRegister die b off
      let s := if r.reply = .reissue then s.deposit r.who r.addr v else s
      s.accessDone r.who r.op r.posted r.reply v 0
  | _ => s.accessFault r.who r.addr r.op r.posted die ((registerFault die b off r.size).getD .misaligned) (some 2) false

/-- The unit at a window address lies on a brick that does not take the request (R57, R368). -/
def State.routerRefuses (s : State) (w : Who) (cl : Nat) : Option (FaultCode × Bool) :=
  if !s.dieLive (dieOfCluster cl) && dieOfCluster cl != dieOfCore w.core then some (.homeOffline, false)
  else if s.inPartition w.part.toNat cl then none
  else some (.protection, true)

/-- The reply of a queue operation or of `sarm` (R278, R326). -/
def queueBody (op : AccessOp) (reply : ReplyTo) (v : Option Nat) : MsgBody :=
  let failed := match op with | .sarm _ _ _ _ => true | _ => false
  match reply, v with
  | .queue d pf, some x => .done [(d, BitVec.ofNat 64 x)] (some (pf, !failed)) 0
  | .queue _ pf, none => .done [] (some (pf, failed)) 0
  | .nothing, _ | .reg _ _ _, _ | .pair _, _ | .subscribed _ _, _ | .jump _ _, _ | .reissue, _ => .done [] none 0

/-- The limit of an enlisted wait (R97, R107, R276). -/
def waitLimit (k : ClusterState) (c : WaitCond) : Nat := if c.kind = 3 then k.feLimit.toNat else k.barLimit.toNat

/-- A waiter is enlisted, or finds the table full and reissues later (R96). -/
def State.bankWait (s : State) (r : BankReq) (c : WaitCond) : State :=
  let cl := clusterAt r.addr
  let e : WaitEntry := { who := r.who, addr := r.addr, cond := c, since := s.cycle, limit := waitLimit (s.cluster cl) c }
  match s.enlist cl e with
  | some (i, s) => s.retag r.who c.kind (waitValue cl (some i)) (c.kind != 5)
  | none =>
    ({ s with noents := s.noents ++ [(r.who, c.kind, s.cycle)] }).retag r.who c.kind (waitValue cl none) true

/-- The bank of a CLM or TSP word performs a request (R31, R95). -/
def State.bankServe (s : State) (r : BankReq) (die : Nat) : State :=
  let (s, out) := s.bankDo r
  match out with
  | .value v fl =>
    let s := if r.acq then s.acquireAt (dieOfCore r.who.core) else s
    let s := if r.reply = .reissue then s.deposit r.who r.addr v else s
    s.accessDone r.who r.op r.posted r.reply v (BitVec.ofNat 32 fl.mask)
  | .queue v => (if r.acq then s.acquireAt (dieOfCore r.who.core) else s).reply r.who 1 (queueBody r.op r.reply v)
  | .fault c va => s.accessFault r.who va r.op r.posted die c (some 2) (c == .protection)
  | .wait c => s.bankWait r c

/-- CLM_TSP_BANK_ACCESS (R31, R99): one request is checked by the router of its cluster and performed at its bank; one to a
TSP waits until its banks grant its port. A store to the register window is a REGISTER_WRITE and is left to it. -/
def execClmTspBankAccess (n : Nat) (s : State) : Result :=
  match s.bankQ[n]? with
  | none => .next s
  | some r =>
    let t := { s with bankQ := listErase s.bankQ n }
    match targetOf r.addr with
    | .paged | .hole => .next (t.accessFault r.who r.addr r.op r.posted (dieOfCore r.who.core) .protection (some 2) false)
    | .reg die o => match r.op with
      | .store _ => .next s
      | _ => .next (t.registerAccess r die o)
    | .clm _ _ | .tsp _ _ =>
      let cl := clusterAt r.addr
      let die := dieOfCluster cl
      match t.routerRefuses r.who cl with
      | some (c, log) =>
        .next (t.accessFault r.who r.addr r.op r.posted (if log then die else dieOfCore r.who.core) c
          (if log then some 2 else none) log)
      | none =>
        match targetOf r.addr with
        | .tsp _ off =>
          (match t.grantBank cl off r.size (portAt cl r.who) (s.bankQ.take n) with
           | some t => .next (t.bankServe r die)
           | none => .next s)
        | .clm _ _ | .paged | .reg _ _ | .hole => .next (t.bankServe r die)

/-! ## Timeouts of waits -/

/-- An enlisted wait whose limit has passed leaves the table, and its thread takes the fault (R97). -/
def State.waitTimeout (s : State) (cl idx : Nat) (code : FaultCode) (kinds : List Nat) : State :=
  let k := s.cluster cl
  match Table.get? k.waits idx with
  | none => s
  | some e =>
    if !kinds.contains e.cond.kind || s.cycle < e.since + e.limit then s
    else
      (s.setCluster cl { k with waits := Table.erase k.waits idx }).reply e.who e.cond.kind
        (.fault code .none (BitVec.ofNat 32 e.limit) e.addr (dieOfCluster cl))

/-- FE_WAIT_TIMEOUT (R97). -/
def execFeWaitTimeout (cluster idx : Nat) (s : State) : Result := .next (s.waitTimeout cluster idx .feTimeout [3])

/-- BAR_WAIT_TIMEOUT (R107, R276): `barc` and `swait`. -/
def execBarWaitTimeout (cluster idx : Nat) (s : State) : Result := .next (s.waitTimeout cluster idx .barTimeout [4, 5])

/-- FE_NOENT_RETRY (R96): every 256 cycles. -/
def execFeNoentRetry (ctx : Nat) (s : State) : Result :=
  match s.noents.find? fun (w, _, _) => w.ctx == ctx with
  | some (w, kind, since) =>
    if s.cycle < since + 256 then .next s
    else .next ({ s with noents := s.noents.erase (w, kind, since) }.reply w kind .wake)
  | none => .next s

/-! ## The store buffer -/

/-- The write-back of an eviction stands in the buffer as an entry of no bytes (R128). -/
def SbEntry.isWriteBack (e : SbEntry) : Bool := match e.op with | .notice _ => true | _ => false

/-- The TOUCHED bit of the slice group that a context sends to (R118, R260). -/
def State.touch (s : State) (w : Who) (va : Nat) : State :=
  match s.findEntry w.ctx with
  | some (c, n, h) =>
    let g := cachingSlice va / 4
    s.putHeld c n { h with line := h.line.setTouched (setBits h.line.touched g g 1) }
  | none => s

/-- The brick can write a sector itself: it holds E or M and the page's recorded WR is 1 (R41, R67). -/
def State.writableHere (s : State) (brick va : Nat) : Bool :=
  s.brickOwns brick va && ((Table.get? (s.l2.get brick) (lineOfAddr va)).map fun l => l.wr).getD false

/-- An atomic performed at the caching slice of a brick that owns its sector (R271, R388). -/
def State.atomicHere (s : State) (e : SbEntry) (fn : AtomicFn) (x : Nat) : State :=
  let cl := clusterOfCore e.who.core
  let b := dieOfCluster cl
  if s.linePoison b e.va then s.accessFault e.who e.va e.op e.posted b .poisonedData none false
  else
    let d := (s.brickData b e.va).getD 0
    let m := sectorNat d e.va e.size
    let (v, fl) := fn.eval e.size m x
    let s := s.writeInBrick cl e.va (mergeBytes d (e.va % 64) ((toBytes e.size v).map some))
    let s := if e.acq then s.acquireAt b else s
    s.accessDone e.who e.op e.posted e.reply m (BitVec.ofNat 32 fl.mask)

/-- The head's request for the paged space. -/
def SbEntry.req (e : SbEntry) : Req :=
  { who := e.who, va := e.va, size := e.size, op := e.op, reply := e.reply, phase := .xlat, posted := e.posted, acq := e.acq,
    heldUntil := 0, via := none }

def SbEntry.bankReq (e : SbEntry) : BankReq :=
  { who := e.who, addr := e.va, size := e.size, op := e.op, reply := e.reply, posted := e.posted, acq := e.acq }

/-- The head goes to its target: it stays at the head until a store is performed, and leaves at once otherwise. -/
def State.sendHead (s : State) (core : Nat) (e : SbEntry) : State :=
  if e.op.holdsHead then
    let c := s.core core
    s.setCore core { c with sbPhase := .sent }
  else s.popBuffer core

/-- An integer or exact add to a sector that its brick owns joins the group of its word at the caching slice or opens one,
after every group of the sector that it does not join has closed; while every entry of the slice's front end is in use it
stays at the head of its buffer (R87, assumption 34). -/
def State.combineHere (s : State) (core : Nat) (e : SbEntry) (fn : AtomicFn) : State :=
  let b := dieOfCore core
  let slice := some (b, e.va)
  let pa := s.ownedPa b e.va
  if s.combine.any fun c => s.joinsGroup c slice e.req fn pa then (s.popBuffer core).joinGroup slice e.req fn pa
  else
    let s := s.closeSlices b e.va
    if !s.brickOwns b e.va then s
    else if s.combineRoom (b, cachingSlice e.va) then (s.popBuffer core).openGroup slice e.req pa
    else s

/-- STORE_BUFFER_ACCEPT (R52, R260, R271): the head of the buffer is sent to its target. -/
def execStoreBufferAccept (core : Nat) (s : State) : Result :=
  let c := s.core core
  match c.sbPhase, c.storeBuf with
  | .idle, e :: _ =>
    if e.isWriteBack then .next s
    else match targetOf e.va with
      | .paged =>
        let s := s.touch e.who e.va
        let cl := clusterOfCore core
        if s.writableHere (dieOfCluster cl) e.va && !s.inPool e.va then
          match e.op with
          | .store bs =>
            let s := s.closeSlices (dieOfCluster cl) e.va
            let d := (s.brickData (dieOfCluster cl) e.va).getD 0
            .next ((s.writeInBrick cl e.va (mergeBytes d (e.va % 64) (bs.map some))).accessDone e.who e.op e.posted e.reply
              0 0)
          | .atomic .qpush _ | .atomic .qpop _ => .next { s.sendHead core e with reqs := s.reqs ++ [e.req] }
          | .atomic fn x =>
            if fn.combines then .next (s.combineHere core e fn)
            else .next (((s.popBuffer core).closeSlices (dieOfCluster cl) e.va).atomicHere e fn x)
          | _ => .next { s.sendHead core e with reqs := s.reqs ++ [e.req] }
        else .next { s.sendHead core e with reqs := s.reqs ++ [e.req] }
      | .clm _ _ | .tsp _ _ | .reg _ _ | .hole => .next { s.sendHead core e with bankQ := s.bankQ ++ [e.bankReq] }
  | _, _ => .next s

/-! ## Fence probes -/

/-- The zero-length read that the host port issues behind the writes of a context (R263), at the first byte of the
host-uncached range (assumption 98). -/
def hostProbe (w : Who) (cycle : Nat) : OutReq :=
  { who := w, va := 0x800000000000, pa := 0x800000000000, size := 0, op := .load, reply := .nothing, master := 0, posted := false, acq := false,
    unit := none, mask := 0, sentAt := cycle }

/-- The access is the zero-length read of a probe. -/
def OutReq.isProbe (q : OutReq) : Bool := q.size == 0

/-- The host port's probe once its zero-length read is on its way. -/
def hostReadWaits : Nat × Nat := (100, 1)

/-- The slice group or port has still to perform a store or an atomic of the context that reached it (R263), or one whose bytes the
context has read (R293). -/
def State.probeBusy (s : State) (w : Who) (p : Nat × Nat) : Bool :=
  if p.1 < 100 then
    s.reqs.any (fun r => r.who.ctx == w.ctx && (r.op.writes || r.op.wholeLine) && !r.isNotice && (match r.op with
      | .prefetch _ => false
      | _ => true)) || (s.combine.any fun c => c.members.any fun r => r.who.ctx == w.ctx) ||
      (match s.findEntry w.ctx with
       | some (c, _, h) => s.pendingIn (dieOfCore c) h.observed
       | none => false)
  else if p = hostReadWaits then s.outReqs.any fun q => q.isProbe && q.who.ctx == w.ctx
  else if p.1 = 100 then true
  else s.outReqs.any fun q => q.posted && q.unit.isNone && q.who.ctx == w.ctx && peerPort q.pa == p.1 - 101

/-- The host port's probe before it has sent its read. -/
def hostStart : Nat × Nat := (100, 0)

/-- FENCE_PROBE (R263): a slice or a port echoes a probe; the host port first issues a zero-length read behind the PCIe
writes, and echoes when it has completed. -/
def execFenceProbe (n : Nat) (s : State) : Result :=
  match s.fences[n]? with
  | some f =>
    if f.probes.contains hostStart then
      let q := hostProbe f.who s.cycle
      .next { s with fences := listSet s.fences n { f with probes := f.probes.erase hostStart ++ [hostReadWaits] },
                     outReqs := s.outReqs ++ [q], outbox := s.outbox ++ [.pcie q] }
    else match f.probes.find? fun p => !s.probeBusy f.who p with
      | some p =>
        .next { s with fences := listSet s.fences n { f with probes := f.probes.erase p, echoed := f.echoed ++ [p] } }
      | none => .next s
  | none => .next s

/-- Every probe has echoed: the fence reissues and finds its scope drained. -/
def State.fenceDone (s : State) (f : FenceProbe) : State :=
  let s := match s.findEntry f.who.ctx with
    | some (c, n, h) => if h.line.gen = f.who.gen then s.putHeld c n { h with fenced := some f.scope } else s
    | none => s
  s.reply f.who 1 .wake

/-- PROBE_ECHO (R263). -/
def execProbeEcho (n : Nat) (s : State) : Result :=
  match s.fences[n]? with
  | some f =>
    match f.echoed with
    | [] => .next s
    | _ :: rest =>
      if rest.isEmpty && f.probes.isEmpty then .next ({ s with fences := listErase s.fences n }.fenceDone f)
      else .next { s with fences := listSet s.fences n { f with echoed := rest } }
  | none => .next s

end Sys2Proof.Machine
end

