-- ==== Sys2Proof/Machine/ContextEvents.lean ====
section
/-!
DEFINITION. Machine/ContextEvents.lean: the steps of a context line: messages and joins (R132, R133, R317), wakes (R350, R111),
`kill` and `resume` at the home (R343, R344, R351, R352), timed wakes (R328, R51), claims and fills (R125 to R127), evictions
(R128 to R130, R339) and the write-backs of a context L2 that wait for a page (R113).
-/
namespace Sys2Proof.Machine

/-! ## Messages (R132, R133) -/

/-- The message completes the wait of its context. -/
def State.msgTaken (s : State) (m : Msg) : Bool :=
  match s.place m.ctx with
  | .bad _ _ | .unmapped => false
  | .entry _ _ h => h.line.gen == m.gen && h.line.inState .wait && h.line.waitKind == m.kind
  | .l2 _ x => x.line.gen == m.gen && x.line.inState .wait && x.line.waitKind == m.kind
  | .transfer t => t.line.gen == m.gen && t.line.inState .wait && t.line.waitKind == m.kind
  | .memory _ l => l.gen == m.gen && l.inState .wait && l.waitKind == m.kind

/-- The completion is an acquire at device or system scope: a job's, a barrier's, a tile or matrix instruction's, or that of a
load or an atomic which acquires (R292, R294). -/
def Msg.acquires (m : Msg) : Bool :=
  match m.body with
  | .done _ _ _ => m.kind == 2 || m.kind == 5 || tileWord m.who.word || (m.kind == 1 && acquireWord m.who.word)
  | .jump _ _ | .wake | .fault _ _ _ _ _ | .child _ _ _ _ _ _ => false

/-- A freeze holds what reaches the page of a context line (R54). -/
def State.ctxFrozen (s : State) (va : Nat) : Bool := (s.poolPhys va false).any s.frozenAt

/-- A message to a line waits while the line moves, while its page is not mapped or is frozen, or while its home is not LIVE
(R54, R132, R368). -/
def State.mustHold (s : State) (va : Nat) : Bool :=
  let p := s.place va
  p.moving || p == .unmapped || s.ctxFrozen va || !s.dieLive (s.ctxHome va)

/-- The reply RETRY of Geyser has arrived: the time before the reissue counts from now (R244). -/
def State.startRetry (s : State) (m : Msg) : State :=
  { s with mxRetries := s.mxRetries.map fun (w, since) => (w, if w == m.who && m.kind == 1 then s.cycle else since) }

/-- The message takes effect: the reply of a `spawn` to a context in an entry makes the child (R323). -/
def State.deliver (s : State) (m : Msg) : State :=
  let s := s.startRetry m
  match m.body, s.place m.ctx with
  | .child child st d pf next wrapped, .entry c n h =>
    if s.msgTaken m then s.bearChild c n h child st d pf next wrapped else s
  | _, _ => s.applyMsg m

/-- CONTEXT_MESSAGE_APPLY (R133): a discarded reply of a `tdesc` sends its handle back (R232). -/
def execContextMessageApply (n : Nat) (s : State) : Result :=
  match s.msgs[n]? with
  | none => .next s
  | some m =>
    if s.mustHold m.ctx then .next s
    else
      let taken := s.msgTaken m
      let s := { s with msgs := listErase s.msgs n }
      let s := if taken && m.acquires then s.acquireAt (s.placeDie m.ctx (s.place m.ctx)) else s
      let s := match m.handle with
        | some h => if taken then s else { s with discards := s.discards ++ [h] }
        | none => s
      .next (s.deliver m)

/-- The context of a line, for a report about it; a bad line met by a message that carries no domain is reported to the domain that
the line holds (R135, assumption 128). -/
def lineWho (va : Nat) (l : Line) : Who :=
  { ctx := va, gen := l.gen, domain := BitVec.ofNat 16 l.domain, part := BitVec.ofNat 8 l.partition, core := 0, pc := l.pc,
    word := 0 }

/-- A join message of a brick reaches a line (R317). -/
def State.applyJoin (s : State) (va sender : Nat) : State :=
  let p := s.place va
  match p with
  | .bad pa l => s.poisonCtx va pa l (lineWho va l)
  | .unmapped => s
  | .entry _ _ _ | .l2 _ _ | .transfer _ | .memory _ _ =>
    match p.line? with
    | none => s
    | some l =>
      if l.inState .free || l.inState .poisoned then s
      else if l.joinCount = 0 then
        s.log { die := s.placeDie va p, event := 7, detail := 0, pc := 0, domain := BitVec.ofNat 16 l.domain,
                part := BitVec.ofNat 8 l.partition, sourceDie := sender, ctx := va, addr := 0 }
      else
        let l := { l with joinCount := l.joinCount - 1 }
        if l.joinCount = 0 && l.inState .wait && l.waitKind == 6 then s.endWait va p l else s.putLine va p l

/-- JOIN_MESSAGE (R317). -/
def execJoinMessage (n : Nat) (s : State) : Result :=
  match s.joins[n]? with
  | none => .next s
  | some (va, sender) => if s.mustHold va then .next s else .next ({ s with joins := listErase s.joins n }.applyJoin va sender)

/-! ## Wakes (R350) -/

/-- The held head of a context's buffer is sent again (R52, R129). -/
def State.retryHead (s : State) (va : Nat) : State :=
  match s.findEntry va with
  | some (c, _, _) =>
    let k := s.core c
    if pageHeld k va then s.setCore c { k with sbPhase := .idle } else s
  | none => s

/-- The jobs, overlay loads and refreshes of a context that wait for a page go on, a refresh also for a job that it has absorbed
(R111, R112, R94). -/
def ClusterState.resumeWork (k : ClusterState) (va : Nat) : ClusterState :=
  let job := fun (x : JobSlot) => if x.who.ctx = va ∧ x.state = .pageWait then { x with state := JobState.active } else x
  { k with jobs := k.jobs.map fun (i, x) => (i, job x)
           loads := k.loads.map fun l => if l.who.ctx = va then { l with pageWait := false } else l
           refreshes := k.refreshes.map fun r =>
             if r.who.ctx = va ∨ r.jobs.any (fun j => (Table.get? k.jobs j).any fun x => x.who.ctx == va) then
               { r with pageWait := false } else r }

def State.resumeWork (s : State) (va : Nat) : State :=
  { s with clusters := s.clusters.map fun (c, k) => (c, k.resumeWork va) }

/-- A wake reaches a line that does not move; it carries no domain, so the record of a bad line goes to the line's own (R135,
assumption 128). -/
def State.applyWake (s : State) (va : Nat) : State :=
  let p := s.place va
  match p with
  | .bad pa l => s.poisonCtx va pa l (lineWho va l)
  | .unmapped => s
  | .entry _ _ _ | .l2 _ _ | .transfer _ | .memory _ _ =>
    match p.line? with
    | none => s
    | some l => if l.inState .wait && l.waitKind == 8 then (s.endWait va p l).clearOverran va else s

/-- A context that has to leave its entry is kept there by the head of the buffer (R129). -/
def State.heldByHead (s : State) (va : Nat) : Bool :=
  match s.place va with
  | .entry c _ h => (h.draining || h.kept.isSome) && pageHeld (s.core c) va
  | .l2 _ _ | .transfer _ | .memory _ _ | .bad _ _ | .unmapped => false

/-- The context of a line waits under KIND PAGE. -/
def State.inPageWait (s : State) (va : Nat) : Bool :=
  match (s.place va).line? with
  | some l => l.inState .wait && l.waitKind == 8
  | none => false

/-- WAKE_MESSAGE (R350, R129): a context that is kept in its entry by the head of the buffer has only that head retried; one in
WAIT with KIND PAGE reissues, its held head with it (assumption 52). -/
def execWakeMessage (n : Nat) (s : State) : Result :=
  match s.wakes[n]? with
  | none => .next s
  | some va =>
    let t := { s with wakes := listErase s.wakes n }.resumeWork va
    if s.heldByHead va then .next ((t.dropTimers va headWake).retryHead va)
    else if s.mustHold va then .next s
    else if s.inPageWait va then .next ((t.retryHead va).applyWake va)
    else .next (t.applyWake va)

/-! ## Timed wakes (R328, R51) -/

/-- The first multiple of 256 cycles at or after e. -/
def sleepTick (e : Nat) : Nat := (e + 255) / 256 * 256

/-- SLEEP_WAKE (R328). -/
def execSleepWake (ctx : Nat) (s : State) : Result :=
  match s.timers.find? fun (w, kind, e) => w.ctx == ctx && kind == 9 && decide (sleepTick e ≤ s.cycle) with
  | some (w, kind, e) => .next ({ s with timers := s.timers.erase (w, kind, e) }.reply w 9 (.done [] none 0))
  | none => .next s

/-- The CLASS of the PAGE wait of a context (R49). -/
def State.pageClass (s : State) (va : Nat) : Nat := (((s.place va).line?).map fun l => l.waitValue / 2 ^ 24).getD 0

/-- The timed wake of a context of a kind that is due. -/
def State.timerDue (s : State) (ctx kind : Nat) : Option (Who × Nat × Nat) :=
  s.timers.find? fun (w, k, e) => w.ctx == ctx && k == kind && decide (e ≤ s.cycle)

/-- PAGE_FAULT_TIMED_WAKE (R51, R129): that of a held head retries it; that of a thread with CLASS 5 retries the head of the buffer,
and the thread reissues. While a head keeps the context in its entry, the thread's own wake waits. -/
def execPageFaultTimedWake (ctx : Nat) (s : State) : Result :=
  match s.timerDue ctx headWake with
  | some x =>
    let t := { s with timers := s.timers.erase x }
    .next (if s.heldByHead ctx then t.retryHead ctx else t)
  | none => match s.timerDue ctx 8 with
    | some x =>
      let t := { s with timers := s.timers.erase x }
      if s.heldByHead ctx then .next s
      else .next ((if s.pageClass ctx = 5 then t.retryHead ctx else t).reply x.1 8 .wake)
    | none => .next s

/-! ## `kill` and `resume` at the home (R343, R344, R351, R352) -/

/-- A full/empty, sync or barrier wait of a context leaves its wait table (R343). -/
def State.dropWaits (s : State) (va : Nat) : State :=
  { s with clusters := s.clusters.map fun (c, k) => (c, { k with waits := k.waits.filter fun (_, e) => e.who.ctx != va })
           noents := s.noents.filter fun (w, _, _) => w.ctx != va }

/-- The entries of a context in a store buffer whose head waits for a page are discarded and logged (R129). -/
def State.discardStores (s : State) (core va : Nat) : State :=
  let c := s.core core
  if !pageHeld c va then s
  else
    let mine := fun (e : SbEntry) => e.who.ctx == va && !e.isWriteBack
    let s := s.setCore core { c with storeBuf := c.storeBuf.filter fun e => !mine e, sbPhase := .idle, sbWaiters := [] }
    let s := c.sbWaiters.foldl (fun s w => s.reply w 1 .wake) s
    (c.storeBuf.filter mine).foldl (fun s e =>
      s.log { die := dieOfCore core, event := 11, detail := 0, pc := e.who.pc, domain := e.who.domain, part := e.who.part,
              sourceDie := dieOfCore core, ctx := va, addr := e.va }) s

/-- The reply of a home command. -/
def HomeCmd.answer (k : HomeCmd) (s : State) (code : Nat) : State :=
  s.reply k.who 1 (.done [(k.d, BitVec.ofNat 64 code)] none 0)

/-- An access that parks its thread stands at the home of a pool line and waits for a context L1 to give up that line (R114). -/
def State.awaitsRecall (s : State) (r : Req) : Bool :=
  !r.posted && s.inPool r.va && (s.findEntry (r.va / 128 * 128)).isSome &&
    (match r.phase with | .home _ _ _ => true | .xlat | .acks _ _ _ | .frozen _ | .turn _ _ _ => false)

/-- A context is still on its way out of its context L1 to be freed. -/
def State.freeing (s : State) (va : Nat) : Bool :=
  match s.findEntry va with
  | some (_, _, h) => h.draining && h.ending == .freed
  | none => false

/-- An access of a context that waits for a line to be recalled does not hold up the context's eviction, which that recall could wait
for. It holds up the freeing of a killed context, unless what it waits for is this freeing or another (R300, assumption 55). -/
def State.passesRecall (s : State) (va : Nat) (r : Req) : Bool :=
  s.awaitsRecall r && (match s.findEntry va with
    | some (_, _, h) => h.ending != .freed || r.va / 128 * 128 == va || s.freeing (r.va / 128 * 128)
    | none => false)

/-- A store that its home has still to acknowledge, of the brick on which a context runs, whose bytes the context has read
(R288, R293). -/
def State.observedPending (s : State) (va : Nat) : Bool :=
  match s.findEntry va with
  | some (c, _, h) => s.pendingIn (dieOfCore c) h.observed
  | none => false

/-- The accesses of a context that have left its core and are not yet performed: those that write, which its eviction and its
freeing come after (R128, R292, R300), with the error replies on their way to it, and the unacknowledged stores of its brick that it
has read (R293). A request that a freeze holds reissues, and is not one. -/
def State.unacked (s : State) (va : Nat) : Bool :=
  let writes := fun (w : Who) (op : AccessOp) => w.ctx == va && !op.onlyReads && op != .cinv &&
    (match op with | .notice _ => false | _ => true)
  s.nacks.any (fun (c, _, _) => c == va) ||
    s.reqs.any (fun r => writes r.who r.op && !s.passesRecall va r && (match r.phase with | .frozen _ => r.posted | _ => true)) ||
    s.combine.any (fun c => c.members.any fun r => r.who.ctx == va) || s.bankQ.any (fun q => writes q.who q.op) ||
    (s.outReqs.any fun q => q.unit.isNone && (writes q.who q.op || (q.isProbe && q.who.ctx == va))) || s.observedPending va

/-- The state code that a `kill` finds, and what it starts or does. -/
def State.killLine (s : State) (va : Nat) : Option (Nat × State) :=
  match s.place va with
  | .transfer _ | .unmapped => none
  | .entry c n h =>
    if h.draining && !pageHeld (s.core c) va then none
    else
      let s := (s.discardStores c va).dropWaits va
      some (h.line.stateCode, s.putHeld c n { h with draining := true, ending := .freed, gang := false, records := [] })
  | .l2 _ x => if s.ctxFrozen va || s.unacked va then none
    else some (x.line.stateCode, ((s.dropWaits va).dropMember va).freeCtx va x.line)
  | .memory _ l =>
    if l.inState .free then some (0, s) else if s.ctxFrozen va || s.unacked va then none
    else some (l.stateCode, ((s.dropWaits va).dropMember va).freeCtx va l)
  | .bad pa l =>
    some (CtxState.poisoned.code, (((s.poisonCtx va pa l (lineWho va l)).dropWaits va).dropMember va).freeCtx va l)

/-- A head that has begun to wait for a page while its context is on its way out to be freed is discarded (R129, R300). -/
def State.discardLate (s : State) (va : Nat) : State :=
  match s.findEntry va with
  | some (c, _, _) => s.discardStores c va
  | none => s

/-- KILL_AT_HOME (R343, R344, R351): the home stops a held context and frees it after its drain, or frees the line at once;
the reply follows when the line is FREE. -/
def execKillAtHome (n : Nat) (s : State) : Result :=
  match s.kills[n]? with
  | none => .next s
  | some k =>
    match k.found with
    | some code => if s.freeing k.target then .next (s.discardLate k.target) else .next (k.answer { s with kills := listErase s.kills n } code)
    | none =>
      if !s.dieLive (s.ctxHome k.target) then .next s
      else match s.killLine k.target with
        | none => .next s
        | some (code, t) =>
          if t.freeing k.target then .next { t with kills := listSet t.kills n { k with found := some code } }
          else .next (k.answer { t with kills := listErase t.kills n } code)

/-- A FAULTED or HALTED line becomes READY (R352); a timed wake of a wait that its fault has ended goes. -/
def State.resumeLine (s : State) (va : Nat) (p : Place) (l : Line) : State :=
  let s := { s with timers := s.timers.filter fun (w, _, _) => w.ctx != va }
  let l := { (((l.setLastFault 0).setWait 0 0).setState .ready) with deferredPc := 0 }
  (s.putLine va p l).enterReady va l p.l2Brick .dev

/-- The status of a `resume` and its effect (R352). -/
def State.resumeAt (s : State) (va : Nat) : Nat × State :=
  let p := s.place va
  match p with
  | .bad pa l => (1, s.poisonCtx va pa l (lineWho va l))
  | .unmapped => (1, s)
  | .entry _ _ _ | .l2 _ _ | .transfer _ | .memory _ _ =>
    match p.line? with
    | none => (1, s)
    | some l =>
      if l.inState .faulted || l.inState .halted then
        (if l.affinity = 0 then (2, s) else (0, s.resumeLine va p l))
      else (1, s)

/-- RESUME_AT_HOME (R352). -/
def execResumeAtHome (n : Nat) (s : State) : Result :=
  match s.resumes[n]? with
  | none => .next s
  | some k =>
    if s.mustHold k.target then .next s
    else
      let (code, t) := { s with resumes := listErase s.resumes n }.resumeAt k.target
      .next (k.answer t code)

/-! ## Claims (R125 to R127, R314) -/

/-- The entry of a ready queue whose claim is outstanding is taken out (R381). -/
def State.dropOffered (s : State) (die va : Nat) : State :=
  match (s.brick die).ready.findIdx? fun e => e.va == va && e.offered with
  | some i => s.readyDrop die i
  | none => s

/-- The home sends the line to the claimant. -/
def State.grantClaim (s : State) (c : Claim) (l : Line) : State :=
  let t : Transfer := { va := c.va, line := l, core := c.core, entry := c.entry, gang := c.gang }
  let s := match s.poolPhys c.va false with
    | some pa => s.trackCtx pa c.va (some (dieOfCore c.core))
    | none => s
  { s.dropOffered c.die c.va with transfers := s.transfers ++ [t] }

/-- The claim is lost for one of the cases of R125, or because its home is not LIVE (5, R368). -/
def State.loseClaim (s : State) (c : Claim) (case : Nat) : State := { s with claimsLost := s.claimsLost ++ [(c, case)] }

/-- The home decides a claim (R125). -/
def State.decideClaim (s : State) (c : Claim) : State :=
  let check := fun (l : Line) (grant : State) =>
    if l.gen != c.gen then s.loseClaim c 2 else if l.inState .ready then grant.grantClaim c l else s.loseClaim c 3
  if !s.dieLive (s.ctxHome c.va) then s.loseClaim c 5
  else match s.place c.va with
    | .transfer _ => s.loseClaim c 1
    | .entry _ _ h => if h.line.gen != c.gen then s.loseClaim c 2 else s.loseClaim c 3
    | .l2 cl x =>
      let k := s.cluster cl
      check x.line (s.setCluster cl { k with ctxL2 := Table.erase k.ctxL2 c.va })
    | .memory _ l => check l s
    | .bad pa l => (s.poisonCtx c.va pa l { lineWho c.va l with domain := c.domain }).loseClaim c 3
    | .unmapped =>
      (s.log { die := s.ctxHome c.va, event := 4, detail := 0, pc := 0, domain := 0, part := 0,
               sourceDie := dieOfCore c.core, ctx := c.va, addr := c.va }).loseClaim c 4

/-- What a claim waits for at the home: a freeze of the page (R54), the circuits between the two bricks (R33), room for the entry
of the line in the home directory (R65), or the host's copies of the line, which its holder's M excludes (R63, R79). -/
def State.claimWaits (s : State) (c : Claim) : Option State :=
  match s.poolPhys c.va false with
  | none => none
  | some pa =>
    let home := s.homeDie pa
    if s.frozenAt pa || (s.dieLive home && !s.pairOpen (dieOfCore c.core) home pa) then some s
    else match s.place c.va with
      | .memory _ l =>
        if !l.inState .ready then none
        else match s.dirRoom pa with
          | some t => some t
          | none =>
            let asked := s.recallHost pa c.va
            if asked.hasSnoop pa || asked.hasSnoop (pa + 64) then some asked else none
      | .entry _ _ _ | .l2 _ _ | .transfer _ | .bad _ _ | .unmapped => none

/-- CONTEXT_CLAIM (R125, R126): the home takes the claims for one line in arrival order. -/
def execContextClaim (n : Nat) (s : State) : Result :=
  match s.claims[n]? with
  | none => .next s
  | some c =>
    if (s.claims.take n).any fun x => x.va == c.va then .next s
    else match s.claimWaits c with
      | some s => .next s
      | none => .next ({ s with claims := listErase s.claims n }.decideClaim c)

/-- The cycles before an entry that met a page fault is offered again (R314). -/
def reofferCycles : Nat := 65536

/-- A ready-queue entry goes to the tail of its level, to be offered again no sooner than a cycle; a context that has none gets
one with a steal domain. -/
def State.deferEntry (s : State) (die va until_ : Nat) (st : Steal) : State :=
  let b := s.brick die
  match b.ready.findIdx? fun e => e.va == va && e.offered with
  | some i =>
    match b.ready[i]? with
    | some e =>
      let e : ReadyEntry := { e with offered := false, notBefore := until_, tried := [], refused := false }
      s.setReady die (listErase b.ready i ++ [e])
    | none => s
  | none =>
    let level := ((s.place va).line?.map Line.priority).getD 0
    s.readyPush die { va := va, level := level, gain := 0, steal := st, since := s.cycle, offered := false,
                      notBefore := until_, tried := [], refused := false }

/-- An entry is offered again as soon as its home is LIVE (R368). -/
def State.keepEntry (s : State) (die va : Nat) : State :=
  let b := s.brick die
  if b.ready.any fun e => e.va == va && e.offered then
    s.setBrick die { b with ready := b.ready.map fun e => if e.va = va then { e with offered := false } else e }
  else s.deferEntry die va 0 .dev

/-- A child of a deque whose claim was refused for its page or its home: one of steal domain core goes back to the bottom of the
claimant's deque, or is claimed again while that is full; any other enters the Caldera's queue with its steal domain
(assumption 100). -/
def State.returnChild (s : State) (c : Claim) (st : Steal) (until_ : Nat) : State :=
  let k := s.core c.core
  if st ≠ .core then (s.clearEntry c.core c.entry).deferEntry c.die c.va until_ st
  else if k.deque.length < dequeSize then
    ((s.setCore c.core { k with deque := k.deque ++ [{ va := c.va, steal := st }] }).clearEntry c.core c.entry).dequeOverflow c.core
  else { s with claims := s.claims ++ [c] }

/-- CLAIM_LOST (R127, R314): the placeholder goes, and the Caldera acts by the case. A gang's claim that met a page fault or
a home that is not LIVE is sent again into its entry. -/
def execClaimLost (n : Nat) (s : State) : Result :=
  match s.claimsLost[n]? with
  | none => .next s
  | some (c, case) =>
    let s := { s with claimsLost := listErase s.claimsLost n }
    if c.gang && decide (4 ≤ case) && s.dieLive c.die then .next { s with claims := s.claims ++ [c] }
    else
      let t := s.clearEntry c.core c.entry
      let until_ := if case = 4 then s.cycle + reofferCycles else 0
      if case < 4 then .next (t.dropOffered c.die c.va)
      else match c.child with
        | some st => .next (s.returnChild c st until_)
        | none => .next (if case = 4 then t.deferEntry c.die c.va until_ .dev else t.keepEntry c.die c.va)

/-- CLAIM_PAGE_FAULT_REOFFER (R314). -/
def execClaimPageFaultReoffer (die : Die) (n : Nat) (s : State) : Result :=
  let b := s.brick die.val
  match b.ready[n]? with
  | some e =>
    if e.notBefore = 0 || decide (s.cycle < e.notBefore) then .next s
    else .next (s.setBrick die.val { b with ready := listSet b.ready n { e with notBefore := 0 } })
  | none => .next s

/-- CONTEXT_FILL (R120, R125, R128): the line becomes RESIDENT in its entry, with a system-scope acquire. -/
def execContextFill (n : Nat) (s : State) : Result :=
  match s.transfers[n]? with
  | none => .next s
  | some t =>
    let h : Held := { va := t.va, line := t.line.setState .resident, parkedAt := s.cycle, issuedAt := 0, draining := false,
                      ending := .toReady, records := [], fenced := none, overran := s.overruns.contains t.va,
                      skip := s.skips.contains t.va, gang := t.gang || s.gangOut.contains t.va, ports := [], popped := none,
                      kept := none, observed := [] }
    let c := s.core t.core
    let s := { s with transfers := listErase s.transfers n, overruns := s.overruns.filter (· != t.va),
                      skips := s.skips.filter (· != t.va), gangOut := s.gangOut.filter (· != t.va) }
    let s := s.setCore t.core { c with entries := Table.set c.entries t.entry (.held h) }
    .next ((s.cacheCtx t.va (dieOfCore t.core)).acquireAt (dieOfCore t.core))

/-! ## Evictions (R128 to R130, R339) -/

/-- The write-back of a context stands in a store buffer. -/
def hasWriteBack (c : CoreState) (va : Nat) : Bool := c.storeBuf.any fun e => e.isWriteBack && e.who.ctx == va

/-- CONTEXT_EVICTION (R128 step 2): the write-back of a context that has stopped issuing enters the buffer when a place is
free. -/
def execContextEviction (core entry : Nat) (s : State) : Result :=
  let c := s.core core
  match (Table.get? c.entries entry).bind L1Entry.ctx? with
  | some h =>
    if !h.draining || hasWriteBack c h.va then .next s
    else if sbSize ≤ c.storeBuf.length then .next (s.tagHeld core false)
    else
      let e : SbEntry := { who := { lineWho h.va h.line with core := core }, va := h.va, size := 0, op := .notice (Quad.all none),
                           reply := .nothing, posted := true, acq := false }
      .next ((s.setCore core { c with storeBuf := c.storeBuf ++ [e] }).tagHeld core false)
  | none => .next s

/-- The line as it is written back, and its records: a deferred error is raised at this drain (R130, R339, R340). -/
def writeBackOf (h : Held) (die : Nat) : Line × List FaultRec :=
  let l := h.line.setTouched 0
  let l := if l.inState .resident then l.setState .ready else l
  if l.deferredPc = 0 then (l, h.records)
  else
    let r := faultRecord l h.va l.deferredPc .deferredStore .deferred .store l.pc 0 die
    let m := if l.inState .faulted then l else (l.setLastFault FaultCode.deferredStore.num).setState .faulted
    if h.records.any fun x => x.code == .deferredStore then (m, h.records) else (m, h.records ++ [r])

/-- What an entry holds once its context has left it. -/
def L1Entry.successor : L1Entry → Option L1Entry
  | .victim _ next => some (.claiming next)
  | .gangVictim _ t m => some (.gang t m)
  | .held _ | .claiming _ | .gang _ _ => none

/-- A claim for a context into an entry: it carries the GENERATION and the domain that the line has now, a line that fails its tag
check among them (R125, assumption 126). -/
def State.sendClaim (s : State) (va core entry die : Nat) (gang : Bool) (child : Option Steal) : State :=
  let l := (s.place va).line?
  { s with claims := s.claims ++ [{ va := va, gen := (l.map fun l => l.gen).getD 0,
                                     domain := BitVec.ofNat 16 ((l.map Line.domain).getD 0), core := core, entry := entry,
                                     die := die, gang := gang, child := child }] }

/-- The entry is freed, or passes to the claim that reserved it (R127). -/
def State.vacate (s : State) (core entry : Nat) (e : L1Entry) : State :=
  match e.successor with
  | none => s.clearEntry core entry
  | some x =>
    let c := s.core core
    let s := s.setCore core { c with entries := Table.set c.entries entry x }
    match x with
    | .claiming va => s.sendClaim va core entry (dieOfCore core) false none
    | .held _ | .victim _ _ | .gang _ _ | .gangVictim _ _ _ => s

/-- What a line does not hold goes with its context out of the context L1: the mark that the sum of R144 reached 65,536 (assumption
119); the skipped turn (R327) and the gang residence (R318), which a fault or `halt` ends. -/
def State.carryOut (s : State) (h : Held) (l : Line) : State :=
  let ends := l.inState .faulted || l.inState .halted
  { s with overruns := if h.overran then s.overruns ++ [h.va] else s.overruns
           skips := if h.skip && !ends then s.skips ++ [h.va] else s.skips
           gangOut := if h.gang && !ends then s.gangOut ++ [h.va] else s.gangOut }

/-- The write-back at the head of the buffer is performed: the line is freed, or enters the context L2 of its cluster. -/
def State.writeBackHeld (s : State) (core entry : Nat) (e : L1Entry) (h : Held) : State :=
  if h.ending = .freed then
    if s.ctxFrozen h.va then s else ((s.popBuffer core).freeCtx h.va (h.line.setTouched 0)).vacate core entry e
  else
    let (l, records) := writeBackOf h (dieOfCore core)
    let (t, put) := s.ctxL2Put (clusterOfCore core) h.va l
    if !put then t
    else
      let k := (t.popBuffer core).core core
      let t := ((t.popBuffer core).setCore core (k.forget h.va)).vacate core entry e
      let t := t.carryOut h l
      let t := if l.inState .ready then t.enterReady h.va l (some (dieOfCore core)) .dev else t
      records.foldl State.report t

/-- The eviction is a system release (R292, R299): the host port's zero-length read goes out behind the PCIe writes of the context
(R263 step 3), and the write-back waits for it. -/
def State.probeHost (s : State) (core entry : Nat) (h : Held) : State :=
  let q := hostProbe (lineWho h.va h.line) s.cycle
  { s.putHeld core entry { h with ports := h.ports.filter (· != 8) } with
    outReqs := s.outReqs ++ [q], outbox := s.outbox ++ [.pcie q] }

/-- CONTEXT_WRITEBACK_PERFORMED (R128, R130, R122, R339). -/
def execContextWritebackPerformed (core entry : Nat) (s : State) : Result :=
  let c := s.core core
  match Table.get? c.entries entry with
  | none => .next s
  | some e =>
    match e.ctx?, c.storeBuf with
    | some h, w :: _ =>
      if h.draining && w.isWriteBack && w.who.ctx == h.va && !s.unacked h.va then
        .next (if h.ports.contains 8 then s.probeHost core entry h else s.writeBackHeld core entry e h)
      else .next s
    | _, _ => .next s

/-- CONTEXT_WRITEBACK_RETRY (R113): the write-back of a line of a context L2 whose pool page faulted is tried again every
4,096 cycles. -/
def execContextWritebackRetry (ctx : Nat) (s : State) : Result :=
  match s.place ctx with
  | .l2 cl x =>
    if !x.wbWait || decide (s.cycle < x.retryAt) then .next s
    else
      let k := s.cluster cl
      match s.poolPhys ctx true with
      | some pa => .next ((s.writeCtx pa ctx x.line).setCluster cl { k with ctxL2 := Table.erase k.ctxL2 ctx })
      | none =>
        let y : L2Ctx := { x with retryAt := s.cycle + retryCycles }
        .next (s.setCluster cl { k with ctxL2 := Table.set k.ctxL2 ctx y })
  | .entry _ _ _ | .transfer _ | .memory _ _ | .bad _ _ | .unmapped => .next s

end Sys2Proof.Machine
end

