-- ==== Sys2Proof/Machine/FaultEvents.lean ====
section
/-!
DEFINITION. Machine/FaultEvents.lean: the fault queues and their records (R332 to R335), the wakes of handlers (R336), the
error logs (R337, R338) and soft errors (R341).
-/
namespace Sys2Proof.Machine

/-! ## Fault records (R332) -/

/-- The CLASS of a record (R331). -/
def FaultClass.num : FaultClass → Nat
  | .sync => 1 | .deferred => 2 | .machine => 3 | .tile => 4

/-- The 32 bytes of a record. -/
def FaultRec.bytes (r : FaultRec) : List Byte :=
  toBytes 32 (r.va % 2 ^ 56 + r.ctx % 2 ^ 56 * 2 ^ 64 + r.gen.toNat * 2 ^ 134 + r.die % 4 * 2 ^ 150 +
    r.part.toNat * 2 ^ 152 + r.domain.toNat * 2 ^ 160 + r.access.num * 2 ^ 176 + r.cls.num * 2 ^ 180 +
    r.code.num * 2 ^ 184 + r.aux.toNat * 2 ^ 192 + r.pc.toNat * 2 ^ 224)

/-! ## Fault queues (R334, R335) -/

def State.fqAddr (s : State) (domain : Nat) : Nat := s.regs.fqDirBase.toNat % 2 ^ 48 + 32 * domain
def State.fqEntry (s : State) (domain : Nat) : Nat := s.cohWide (s.fqAddr domain) 32

def fqTail (e : Nat) : Nat := bits e 191 160
def fqHead (e : Nat) : Nat := bits e 159 128
def fqDropped (e : Nat) : Nat := bits e 127 112
def fqLog2 (e : Nat) : Nat := bits e 68 64

/-- A directory entry that R335 accepts. -/
def fqValid (e : Nat) : Bool :=
  bit e 48 && bits e 255 248 == 0 && bits e 111 69 == 0 && bits e 63 49 == 0 && decide (4 ≤ fqLog2 e) &&
    decide (fqLog2 e ≤ 16) && bits e 47 0 % (32 * 2 ^ fqLog2 e) == 0

/-- An error-log entry about a record. -/
def recordLog (die event detail : Nat) (r : FaultRec) : LogEntry :=
  { die := die, event := event, detail := detail, pc := r.pc, domain := r.domain, part := r.part, sourceDie := r.die,
    ctx := r.ctx, addr := 0 }

/-- A lease holds the directory entry or the slot that the arbiter of a domain's fault queue writes. -/
def State.recordLeased (s : State) (domain : Nat) : Bool :=
  let e := s.fqEntry domain
  s.regs.fqWritten && fqValid e &&
    (s.leased (s.fqAddr domain) 32 || s.leased (bits e 47 0 + 32 * (fqTail e % 2 ^ fqLog2 e)) 32)

/-- The arbiter of a domain's fault queue appends a record (R335). -/
def State.appendRecord (s : State) (r : FaultRec) : State :=
  let dom := r.domain.toNat
  let die := dom % 4
  let a := s.fqAddr dom
  let e := s.fqEntry dom
  if !s.regs.fqWritten || !fqValid e then s.log (recordLog die 6 0xFF r)
  else
    let n := 2 ^ fqLog2 e
    let s :=
      if n ≤ (fqTail e + 2 ^ 32 - fqHead e) % 2 ^ 32 then
        (s.cohPut a (toBytes 32 (setBits e 127 112 (min (fqDropped e + 1) 0xFFFF)))).log (recordLog die 5 r.code.num r)
      else
        (s.cohPut (bits e 47 0 + 32 * (fqTail e % n)) r.bytes).cohPut a (toBytes 32 (setBits e 191 160 (fqTail e + 1)))
    s.wakeHandler die true dom (bits e 247 192) (r.ctx, r.pc, r.domain, r.part)

/-- The records that a sending brick holds for arbiters on bricks that are not LIVE (R371). -/
def heldRecords : Nat := 1024

/-- FAULT_RECORD_APPEND (R335, R371). -/
def execFaultRecordAppend (n : Nat) (s : State) : Result :=
  match s.faultQ[n]? with
  | none => .next s
  | some r =>
    let t := { s with faultQ := listErase s.faultQ n }
    if s.dieLive (r.domain.toNat % 4) then .next (if s.recordLeased r.domain.toNat then s else t.appendRecord r)
    else
      let before := (s.faultQ.take n).filter fun x => x.die == r.die && !s.dieLive (x.domain.toNat % 4)
      if before.length < heldRecords then .next s else .next (t.log (recordLog r.die 5 r.code.num r))

/-! ## Handler wakes (R336) -/

/-- The queue of a wake has been read to its end. -/
def State.queueDone (s : State) (h : HandlerWake) : Bool :=
  if h.fault then
    let e := s.fqEntry h.queue
    fqHead e == fqTail e
  else s.pfqHeadOf h.queue == s.pfqTailOf h.queue

/-- A wake that finds its handler HALTED makes it READY as under `resume` (R336, R352). -/
def State.wakeHalted (s : State) (va : Nat) (p : Place) (l : Line) : State :=
  if l.affinity = 0 then s else s.resumeLine va p l

/-- A handler that cannot run is logged once for each state it is found in (R336). -/
def State.logHandler (s : State) (h : HandlerWake) (l : Line) : State × HandlerWake :=
  let c := l.stateCode
  if h.sent && (l.inState .faulted || l.inState .poisoned || l.inState .free) && h.logged != some c then
    (s.log { die := h.die, event := 6, detail := c, pc := 0, domain := BitVec.ofNat 16 l.domain,
             part := BitVec.ofNat 8 l.partition, sourceDie := h.die, ctx := h.handler, addr := h.handler },
     { h with logged := some c })
  else (s, h)

/-- HANDLER_WAKE_RETRY (R336): a wake is sent, and again every 4,096 cycles until it finds the handler HALTED or the queue
read to its end. -/
def execHandlerWakeRetry (n : Nat) (s : State) : Result :=
  match s.handlerWakes[n]? with
  | none => .next s
  | some h =>
    if s.cycle < h.retryAt then .next s
    else
      let t := { s with handlerWakes := listErase s.handlerWakes n }
      if s.queueDone h then .next t
      else if s.mustHold h.handler then
        .next { s with handlerWakes := listSet s.handlerWakes n { h with retryAt := s.cycle + retryCycles, sent := true } }
      else
        let p := s.place h.handler
        match p with
        | .bad pa l => .next (s.poisonCtx h.handler pa l (lineWho h.handler l))
        | .unmapped => .next s
        | .entry _ _ _ | .l2 _ _ | .transfer _ | .memory _ _ =>
          match p.line? with
          | none => .next s
          | some l =>
            if l.inState .halted then .next (t.wakeHalted h.handler p l)
            else
              let (s, h) := s.logHandler h l
              let h : HandlerWake := { h with retryAt := s.cycle + retryCycles, sent := true }
              .next { s with handlerWakes := listSet s.handlerWakes n h }

/-! ## The error logs (R337, R338) -/

def LogEntry.bytes (e : LogEntry) : List Byte :=
  toBytes 32 (e.addr % 2 ^ 56 + e.ctx % 2 ^ 56 * 2 ^ 64 + e.sourceDie % 4 * 2 ^ 128 + e.detail % 2 ^ 32 * 2 ^ 160 +
    e.event % 256 * 2 ^ 192 + e.part.toNat * 2 ^ 200 + e.domain.toNat * 2 ^ 208 + e.pc.toNat * 2 ^ 224)

/-- A lost entry is counted, saturating. -/
def Brick.countLost (b : Brick) : Brick :=
  { b with elogLost := BitVec.ofNat 32 (min (b.elogLost.toNat + 1) (2 ^ 32 - 1)) }

/-- The arbiter of a brick's log accepts an entry (R337); a new entry sends its MSI-X vector (R358). -/
def State.appendLog (s : State) (e : LogEntry) : State :=
  let b := s.brick e.die
  let n := ringSlots b.elogBase.toNat
  if n ≤ (b.elogTail.toNat + 2 ^ 32 - b.elogHead.toNat) % 2 ^ 32 then s.setBrick e.die b.countLost
  else
    let s := s.cohPut (bits b.elogBase.toNat 47 0 + 32 * (b.elogTail.toNat % n)) e.bytes
    let b := s.brick e.die
    let s := s.setBrick e.die { b with elogTail := b.elogTail + 1 }
    { s with outbox := s.outbox ++ [.msix (e.die % 4)] }

/-- A lease holds the slot that a brick's log writes next (R84). -/
def State.logLeased (s : State) (die : Nat) : Bool :=
  let b := s.brick die
  let n := ringSlots b.elogBase.toNat
  n != 0 && s.leased (bits b.elogBase.toNat 47 0 + 32 * (b.elogTail.toNat % n)) 32

/-- ERROR_LOG_APPEND (R337). -/
def execErrorLogAppend (n : Nat) (s : State) : Result :=
  match s.elogQ[n]? with
  | none => .next s
  | some e => .next (if s.logLeased e.die then s else { s with elogQ := listErase s.elogQ n }.appendLog e)

/-! ## Soft errors (R341) -/

/-- DETAIL of an array (R338). -/
def eccCode : EccArray → Nat
  | .hbm => 0 | .l2 => 1 | .dataL1 => 2 | .tsp => 3 | .clm => 4 | .context => 5 | .mortar => 6

/-- The brick that logs an error of an array: brick 0 for one of Mortar's. -/
def eccDie (die : Nat) (a : EccArray) : Nat := if a = .mortar then 0 else die

def State.logEcc (s : State) (event die : Nat) (a : EccArray) (ctx addr : Nat) : State :=
  s.log { die := eccDie die a, event := event, detail := eccCode a, pc := 0, domain := 0, part := 0, sourceDie := die, ctx := ctx,
          addr := addr }

/-- A brick's caches hold a sector by physical address: its virtual address, and whether the copy is dirty. -/
def State.cachedAt (s : State) (brick pa : Nat) : Option (Nat × Bool) :=
  (s.l2.get brick).findSome? fun (v, l) =>
    if l.pa = pa / 256 * 256 ∧ ((l.sectors.get (sectorIndex pa)).st ≠ .i ∨ (s.brickDirty brick v (sectorIndex pa)).isSome) then
      some (v * 256 + pa % 256, (s.brickDirty brick v (sectorIndex pa)).isSome) else none

/-- An uncorrectable error in the data of an array (R341): one of a clean copy in a brick's caches is seen by the accesses that
read that copy; one of dirty data, or of a memory, by every later read of the unit. -/
def State.eccData (s : State) (die : Nat) (a : EccArray) (addr : Nat) : State :=
  match a with
  | .l2 | .dataL1 =>
    match s.cachedAt die addr with
    | some (_, true) => s.poisonUnit addr
    | some (_, false) =>
      if s.badCopies.contains (die, sectorOf addr) then s else { s with badCopies := s.badCopies ++ [(die, sectorOf addr)] }
    | none => s
  | .hbm | .tsp | .clm | .context | .mortar => s.poisonUnit addr

/-- An uncorrectable error in a line that a context cache or a transfer holds (R341): the line is written back with a poison mark, so
that its next read from HBM gives CONTEXT_POISONED. -/
def State.eccHeld (s : State) (ctx die : Nat) : State :=
  ({ s with badCtxs := if s.badCtxs.contains ctx then s.badCtxs else s.badCtxs ++ [ctx] } : State).logEcc 10 die .context ctx ctx

/-- ECC_ERROR (R341): a corrected error is logged; an uncorrectable one poisons its data unit, or the context whose line
was read. -/
def execEccError (site : EccSite) (s : State) : Result :=
  match site with
  | .corrected die a => .next (s.logEcc 9 die.val a 0 0)
  | .data die a addr =>
    .next ((s.eccData die.val a addr).logEcc 10 die.val a 0 addr)
  | .contextLine ctx =>
    match s.place ctx with
    | .memory pa l =>
      if l.inState .free || s.quarantine.contains ctx then .next s
      else .next ((s.poisonCtx ctx pa l (lineWho ctx l)).logEcc 10 (s.homeDie pa) .hbm ctx pa)
    | .entry c _ _ => .next (s.eccHeld ctx (dieOfCore c))
    | .l2 c _ => .next (s.eccHeld ctx (dieOfCluster c))
    | .transfer t => .next (s.eccHeld ctx (dieOfCore t.core))
    | .bad _ _ | .unmapped => .next s

end Sys2Proof.Machine
end

