-- ==== Sys2Proof/Machine/Reads.lean ====
section
/-!
DEFINITION. Machine/Reads.lean: reads that an instruction needs before it can go on (R206, R231, R330), and what it reads
when it is reissued after its wait.
-/
namespace Sys2Proof.Machine

/-- The bytes of a context line as they stand in HBM once the home has recalled the context (R114, R128, R134). -/
def State.recalledBytes (s : State) (va : Nat) (l : Line) : List Byte :=
  let l := l.setTouched 0
  let l := if l.inState .resident then l.setState .ready else l
  ({ l with tag := ctxTag s.boot.boots va l }).bytes

/-- Bytes of a line that a context cache has, read as after its recall. -/
def State.recalledRead (s : State) (va n : Nat) (l : Line) : Except FaultCode Nat :=
  let ctx := va / 128 * 128
  if s.badCtxs.contains ctx then .error .poisonedData
  else .ok (ofBytes (((s.recalledBytes ctx l).drop (va % 128)).take n))

/-- What a reissued instruction reads again of a target that no cache holds, once the reply to its wait has come: the bytes
that stand there now, or, of a page outside the device, those that the reply brought. A line of the context pool that is back in
a context cache reads as a recall would write it (assumption 17). -/
def State.reread (s : State) (va n : Nat) (tg : Target) (brought : Nat) : Option (Except FaultCode Nat) :=
  match tg with
  | .clm _ _ | .tsp _ _ => some (if s.anyPoison va n then .error .poisonedData else .ok (memNat s.mem va n))
  | .reg die o =>
    let (b, off) := blockAt die o
    some (match registerFault die b off n with
      | some c => .error c
      | none => .ok (s.readRegister die b off))
  | .paged =>
    if !s.inPool va then some (.ok brought)
    else match s.place (va / 128 * 128) with
      | .memory pa _ | .bad pa _ =>
        some (if s.anyPoison (pa + va % 128) n || s.quarantine.contains (va / 128 * 128) then .error .poisonedData
          else .ok (memNat s.mem (pa + va % 128) n))
      | .entry _ _ h => some (s.recalledRead va n h.line)
      | .l2 _ x => some (s.recalledRead va n x.line)
      | .transfer t => some (s.recalledRead va n t.line)
      | .unmapped => none
  | .hole => none

/-- An address lies in the line of the context that issues. -/
def State.readsSelf (s : State) (b : Barrel) (va : Nat) (tg : Target) : Bool :=
  tg == .paged && s.inPool va && va / 128 * 128 == b.held.va

/-- What stands for the read of a target that no cache holds: what the reissued instruction reads again; or, in the issuing context's
own line, the bytes as a recall would write them, since that recall would take the context out of its core at every reissue
(assumption 17). -/
def State.readAgain (s : State) (b : Barrel) (va n : Nat) (tg : Target) : Option (Except FaultCode Nat) :=
  if s.readsSelf b va tg then some (s.recalledRead va n b.held.line)
  else b.held.popped.bind fun (a, v) => if a = va then s.reread va n tg v else none

/-- The read of an instruction leaves the core: the thread parks with KIND MEM and VALUE 8, and reissues (R206). -/
def State.sendRead (s : State) (b : Barrel) (va n : Nat) (tg : Target) : State :=
  if tg = .paged then s.toHome b va n .load .reissue false else s.toBank b va n .load .reissue false

/-- Read n bytes after their checks and go on with them: in the barrel where the store buffer, a cache or a near bank has
them; otherwise the thread parks, reissues and reads again. -/
def withRead (s : State) (b : Barrel) (va n : Nat) (tg : Target) (poisonAux : BitVec 32) (go : State → Nat → Result) :
    Result :=
  match forwardFrom b.held.va va n (s.core b.core).storeBuf with
  | .bytes bs => go s (ofBytes bs)
  | .part => .next (s.awaitBuffer b)
  | .none =>
    let near := if nearTarget b.core tg then
        s.nearBank b tg { who := b.who, addr := va, size := n, op := .load, reply := .reissue, posted := false, acq := false }
      else none
    match near with
    | some (t, _) =>
      if s.anyPoison va n then .next (t.takeFault b b.held.line .poisonedData .load poisonAux va)
      else go t (memNat s.mem va n)
    | none =>
      match (if tg = .paged then s.cachedRead (clusterOfCore b.core) va else none) with
      | some (d, s') =>
        if s.linePoison (dieOfCore b.core) va then
          .next (s.takeFault b b.held.line .poisonedData .load poisonAux va)
        else go s' (sectorNat d va n)
      | none =>
        match s.readAgain b va n tg with
        | some (.ok v) => go s v
        | some (.error c) =>
          .next (s.takeFault b b.held.line c .load (if c = .poisonedData then poisonAux else b.word) va)
        | none => .next (s.sendRead b va n tg)

end Sys2Proof.Machine
end

