-- ==== Sys2Proof/Machine/Tile.lean ====
section
/-!
DEFINITION. Machine/Tile.lean: issuing a tile instruction (R221, R222, R225 to R234): the checks of the core, the release at
device scope, and the operation on its way to the home cluster. Each shared operation stands first; one definition for
every constructor follows.
-/
namespace Sys2Proof.Machine

/-- The operand word of a tile or matrix fault (R333). -/
def operandWord (operand row : Nat) : BitVec 32 := BitVec.ofNat 32 (operand % 16 * 2 ^ 28 + row % 64)

/-- A fault of a tile or matrix instruction that the core raises from register values: ACCESS 8 (R332). -/
def State.operandFault (s : State) (b : Barrel) (code : FaultCode) (operand fva : Nat) : State :=
  s.takeFault b b.held.line code .none (operandWord operand 0) fva

/-- The first part of check 1 and check 2 of R222, from the registers that hold handles: operand number and register
value. -/
def withHandles (s : State) (b : Barrel) (hs : List (Nat × Word64)) (go : Nat → Result) : Result :=
  match hs.find? fun (_, h) => decide (2 ^ 32 ≤ h.toNat) with
  | some (op, h) => .next (s.operandFault b .staleHandle op h.toNat)
  | none =>
    match hs with
    | [] => go 0
    | (_, h) :: rest =>
      if rest.any fun (_, k) => handleCluster k.toNat != handleCluster h.toNat then .next (s.operandFault b .bounds 15 0)
      else go (handleCluster h.toNat)

/-- The wait value of a tile instruction (R221). -/
def destValue : Option Reg → Nat
  | some d => d.val
  | none => 8

/-- Send a tile operation: the release at device scope, then the park (R221). -/
def sendTile (s : State) (b : Barrel) (op : TileOp) (kind value : Nat) : Result :=
  withFence s b .dev true fun s b =>
    .next ({ s with tileArrivals := s.tileArrivals ++ [op] }.parkAdvance b kind value)

/-- A tile instruction over handles (R221, R222). -/
def tileInstr (g : Guard) (t : Tail) (s : State) (hs : Line → List (Nat × Reg)) (kind : Line → Word64 → TileKind) (r : Rm)
    (sat : Bool) (key : Line → Word64) (dest : Option Reg) : Result :=
  issue g t s fun b =>
    let l := b.held.line
    let regs := (hs l).map fun (n, r) => (n, l.reg r)
    withHandles s b regs fun cl =>
      sendTile s b
        { who := b.who, cluster := cl, kind := kind l (t.value s b false), handles := regs.map fun (n, h) => (n, h.toNat),
          rm := r, sat := sat, key := key l, dest := dest } 1 (destValue dest)

def noTail : Tail := .imm 0

/-- Element-wise with two sources and a key in c (R225, R226). -/
def tileMap2 (k : TileKind) (g : Guard) (d a b c : Reg) (r : Rm) (o : Bool) (s : State) : Result :=
  tileInstr g noTail s (fun _ => [(0, d), (1, a), (2, b)]) (fun _ _ => k) r o (fun l => l.reg c) none

def opTadd := tileMap2 .add
def opTsub := tileMap2 .sub
def opTmul := tileMap2 .mul
def opTmax := tileMap2 .max
def opTmin := tileMap2 .min

def opTfma (g : Guard) (d a b c : Reg) (r : Rm) (o : Bool) (s : State) : Result :=
  tileInstr g noTail s (fun _ => [(0, d), (1, a), (2, b), (3, c)]) (fun _ _ => .fma) r o (fun _ => 0) none

def opTscale (g : Guard) (d a b : Reg) (t : Tail) (r : Rm) (o : Bool) (s : State) : Result :=
  tileInstr g t s (fun _ => [(0, d), (1, a)]) (fun _ x => .scale (x.setWidth 32)) r o (fun l => l.reg b) none

def opTcvt (g : Guard) (d a b : Reg) (r : Rm) (o : Bool) (s : State) : Result :=
  tileInstr g noTail s (fun _ => [(0, d), (1, a)]) (fun _ _ => .cvt) r o (fun l => l.reg b) none

/-- The operands of a reduction (R227): with AXIS 1 the register d holds the destination's handle. -/
def reduceInstr (k : TileKind) (row : Bool) (g : Guard) (d a : Reg) (r : Rm) (s : State) : Result :=
  tileInstr g noTail s (fun _ => if row then [(0, d), (1, a)] else [(1, a)]) (fun _ _ => k) r false (fun _ => 0)
    (if row then none else some d)

def opTredmax (g : Guard) (d a : Reg) (x y : Bool) (r : Rm) (s : State) : Result :=
  reduceInstr (.redMax x y) x g d a r s

def opTredsum (g : Guard) (d a : Reg) (x : Bool) (r : Rm) (s : State) : Result := reduceInstr (.redSum x) x g d a r s

def opTtrans (g : Guard) (d a : Reg) (r : Rm) (o : Bool) (s : State) : Result :=
  tileInstr g noTail s (fun _ => [(0, d), (1, a)]) (fun _ _ => .trans) r o (fun _ => 0) none

def opTfill (g : Guard) (d : Reg) (t : Tail) (n : Bool) (r : Rm) (o : Bool) (s : State) : Result :=
  tileInstr g t s (fun _ => [(0, d)]) (fun _ x => .fill n x) r o (fun _ => 0) none

def opTget (g : Guard) (d a : Reg) (t : Tail) (s : State) : Result :=
  tileInstr g t s (fun _ => [(1, a)]) (fun _ x => .get x) .rne false (fun _ => 0) (some d)

/-- `tset` (R230): the handle is in d, the index in a. -/
def opTset (g : Guard) (d a : Reg) (t : Tail) (s : State) : Result :=
  tileInstr g t s (fun _ => [(0, d)]) (fun l x => .set (l.reg a) x) .rne false (fun _ => 0) none

/-- `tinfo` (R234). -/
def opTinfo (g : Guard) (d a : Reg) (t : Tail) (s : State) : Result :=
  issue g t s fun b =>
    let n := (t.value s b false).toNat
    let h := b.held.line.reg a
    withHandles s b [(1, h)] fun cl =>
      if 3 < n then .next (s.operandFault b .bounds 15 0)
      else
        sendTile s b { who := b.who, cluster := cl, kind := .info n, handles := [(1, h.toNat)], rm := .rne, sat := false,
                       key := 0, dest := some d } 1 d.val

/-- `tfree` parks with KIND JOB on the descriptor (R119, R221, R233). -/
def opTfree (g : Guard) (a : Reg) (s : State) : Result :=
  issue0 g s fun b =>
    let h := b.held.line.reg a
    withHandles s b [(1, h)] fun cl =>
      sendTile s b { who := b.who, cluster := cl, kind := .free, handles := [(1, h.toNat)], rm := .rne, sat := false,
                     key := 0, dest := none } 2 (2 ^ 27 + cl * 2 ^ 16 + handleIndex h.toNat)

/-- `tdesc` at the issuing core (R231 steps 1 and 2): the release, the template, the target cluster. The reads of the
template fault with ACCESS 0. -/
def opTdesc (g : Guard) (d a : Reg) (t : Tail) (pf : PReg) (s : State) : Result :=
  issue g t s fun b0 =>
    withFence s b0 .dev true fun s b =>
      let ea := (b.held.line.reg a).toNat
      let x := t.value s b false
      let cl := if x = BitVec.allOnes 64 then clusterOfCore b.core else x.toNat
      let bt := { b with word := operandWord 15 0 }
      match spaceAddr b.core .g ea with
      | none => .next (s.fault bt .protection .load ea)
      | some va =>
        if va % 32 ≠ 0 then .next (s.fault b .misaligned .load va)
        else
          withAccess s bt .g ea 32 .pair rightsR .load fun s va tg =>
            withRead s b va 32 tg (operandWord 15 0) fun s v =>
              if 2047 < cl then .next (s.operandFault b .bounds 15 0)
              else if !s.inPartition b.held.line.partition cl then .next (s.operandFault b .protection 15 0)
              else
                let op : TileOp := { who := b.who, cluster := cl, kind := .desc (BitVec.ofNat 256 v) pf, handles := [],
                                     rm := .rne, sat := false, key := 0, dest := some d }
                .next ({ s with tileArrivals := s.tileArrivals ++ [op] }.parkAdvance b 1 d.val)

/-! One definition for every constructor. -/

def execTdesc (g : Guard) (d a b : Reg) (pf : PReg) (s : State) : Result :=
  opTdesc g d a (.reg b) pf s
def execTdescRL (g : Guard) (d a : Reg) (pf : PReg) (lit : BitVec 32) (s : State) : Result :=
  opTdesc g d a (.lit lit) pf s
def execTdescRK (g : Guard) (d a : Reg) (pf : PReg) (k : BitVec 8) (s : State) : Result :=
  opTdesc g d a (.const k) pf s
def execTdescRI (g : Guard) (d a : Reg) (imm : BitVec 13) (s : State) : Result :=
  opTdesc g d a (.imm imm) 0 s
def execTfree (g : Guard) (a : Reg) (s : State) : Result :=
  opTfree g a s
def execTinfo (g : Guard) (d a b : Reg) (s : State) : Result :=
  opTinfo g d a (.reg b) s
def execTinfoRI (g : Guard) (d a : Reg) (imm : BitVec 13) (s : State) : Result :=
  opTinfo g d a (.imm imm) s
def execTadd (g : Guard) (d a b c : Reg) (r : Rm) (o : Bool) (s : State) : Result :=
  opTadd g d a b c r o s
def execTsub (g : Guard) (d a b c : Reg) (r : Rm) (o : Bool) (s : State) : Result :=
  opTsub g d a b c r o s
def execTmul (g : Guard) (d a b c : Reg) (r : Rm) (o : Bool) (s : State) : Result :=
  opTmul g d a b c r o s
def execTmax (g : Guard) (d a b c : Reg) (r : Rm) (o : Bool) (s : State) : Result :=
  opTmax g d a b c r o s
def execTmin (g : Guard) (d a b c : Reg) (r : Rm) (o : Bool) (s : State) : Result :=
  opTmin g d a b c r o s
def execTfma (g : Guard) (d a b c : Reg) (r : Rm) (o : Bool) (s : State) : Result :=
  opTfma g d a b c r o s
def execTscale (g : Guard) (d a b c : Reg) (r : Rm) (o : Bool) (s : State) : Result :=
  opTscale g d a b (.reg c) r o s
def execTscaleRL (g : Guard) (d a b : Reg) (r : Rm) (o : Bool) (lit : BitVec 32) (s : State) : Result :=
  opTscale g d a b (.lit lit) r o s
def execTscaleRK (g : Guard) (d a b : Reg) (r : Rm) (o : Bool) (k : BitVec 8) (s : State) : Result :=
  opTscale g d a b (.const k) r o s
def execTcvt (g : Guard) (d a b : Reg) (r : Rm) (o : Bool) (s : State) : Result :=
  opTcvt g d a b r o s
def execTredmax (g : Guard) (d a : Reg) (x y : Bool) (r : Rm) (s : State) : Result :=
  opTredmax g d a x y r s
def execTredsum (g : Guard) (d a : Reg) (x : Bool) (r : Rm) (s : State) : Result :=
  opTredsum g d a x r s
def execTtrans (g : Guard) (d a : Reg) (r : Rm) (o : Bool) (s : State) : Result :=
  opTtrans g d a r o s
def execTfill (g : Guard) (d b : Reg) (n : Bool) (r : Rm) (o : Bool) (s : State) : Result :=
  opTfill g d (.reg b) n r o s
def execTfillRL (g : Guard) (d : Reg) (n : Bool) (r : Rm) (o : Bool) (lit : BitVec 32) (s : State) : Result :=
  opTfill g d (.lit lit) n r o s
def execTfillRK (g : Guard) (d : Reg) (r : Rm) (o : Bool) (k : BitVec 8) (s : State) : Result :=
  opTfill g d (.const k) false r o s
def execTget (g : Guard) (d a b : Reg) (s : State) : Result :=
  opTget g d a (.reg b) s
def execTgetRL (g : Guard) (d a : Reg) (lit : BitVec 32) (s : State) : Result :=
  opTget g d a (.lit lit) s
def execTgetRK (g : Guard) (d a : Reg) (k : BitVec 8) (s : State) : Result :=
  opTget g d a (.const k) s
def execTgetRI (g : Guard) (d a : Reg) (imm : BitVec 13) (s : State) : Result :=
  opTget g d a (.imm imm) s
def execTset (g : Guard) (d a b : Reg) (s : State) : Result :=
  opTset g d a (.reg b) s
def execTsetRL (g : Guard) (d a : Reg) (lit : BitVec 32) (s : State) : Result :=
  opTset g d a (.lit lit) s
def execTsetRK (g : Guard) (d a : Reg) (k : BitVec 8) (s : State) : Result :=
  opTset g d a (.const k) s
def execTsetRI (g : Guard) (d a : Reg) (imm : BitVec 13) (s : State) : Result :=
  opTset g d a (.imm imm) s

end Sys2Proof.Machine
end

