-- ==== Sys2Proof/Machine/Matrix.lean ====
section
/-!
DEFINITION. Machine/Matrix.lean: issuing a matrix instruction (R241, R243, R251 to R256): the checks of the core, the
release at device scope, and the request on its way to the home cluster's Geyser. Each shared operation stands first; one
definition for every constructor follows.
-/
namespace Sys2Proof.Machine

/-- A matrix instruction over handles: operand number and register (R241, R243, R251). -/
def matrixInstr (g : Guard) (t : Tail) (s : State) (hs : List (Nat × Reg)) (kind : Word64 → MxKind) (dest : Option Reg) :
    Result :=
  issue g t s fun b =>
    let l := b.held.line
    let regs := hs.map fun (n, r) => (n, l.reg r)
    withHandles s b regs fun cl =>
      let q : MxReq := { who := b.who, cluster := cl, kind := kind (t.value s b false),
                         handles := regs.map fun (n, h) => (n, h.toNat), priority := l.priority, holdClass := l.holdClass,
                         dest := dest, arrived := s.cycle }
      withFence s b .dev true fun s b =>
        .next ({ s with mxArrivals := s.mxArrivals ++ [q] }.parkAdvance b 1 (destValue dest))

/-- `mxm` and `mxmz` (R235, R253): the block scales are bits [15:0] of the tail. -/
def multiply (zero : Bool) (g : Guard) (d a b : Reg) (t : Tail) (tr neg : Bool) (s : State) : Result :=
  matrixInstr g t s [(0, d), (1, a), (2, b)]
    (fun x => .mxm zero tr neg (signed 8 x.toNat) (signed 8 (x.toNat / 256)) (decide (2 ^ 16 ≤ x.toNat))) none

def opMxm := multiply false
def opMxmz := multiply true

/-- `mxflush` (R254). -/
def opMxflush (g : Guard) (a : Reg) (all : Bool) (s : State) : Result :=
  matrixInstr g noTail s [(1, a)] (fun _ => .flush all) none

/-- `mxnorm` (R255). -/
def opMxnorm (g : Guard) (d a : Reg) (t : Tail) (s : State) : Result :=
  matrixInstr g t s [(1, a)] (fun x => .norm x) (some d)

/-- `mxexp` (R256). -/
def opMxexp (g : Guard) (d a : Reg) (clr : Bool) (s : State) : Result :=
  matrixInstr g noTail s [(1, a)] (fun _ => .exp clr) (some d)

/-! One definition for every constructor. -/

def execMxm (g : Guard) (d a b c : Reg) (t n : Bool) (s : State) : Result :=
  opMxm g d a b (.reg c) t n s
def execMxmRL (g : Guard) (d a b : Reg) (t n : Bool) (lit : BitVec 32) (s : State) : Result :=
  opMxm g d a b (.lit lit) t n s
def execMxmRK (g : Guard) (d a b : Reg) (t n : Bool) (k : BitVec 8) (s : State) : Result :=
  opMxm g d a b (.const k) t n s
def execMxmz (g : Guard) (d a b c : Reg) (t n : Bool) (s : State) : Result :=
  opMxmz g d a b (.reg c) t n s
def execMxmzRL (g : Guard) (d a b : Reg) (t n : Bool) (lit : BitVec 32) (s : State) : Result :=
  opMxmz g d a b (.lit lit) t n s
def execMxmzRK (g : Guard) (d a b : Reg) (t n : Bool) (k : BitVec 8) (s : State) : Result :=
  opMxmz g d a b (.const k) t n s
def execMxflush (g : Guard) (a : Reg) (l : Bool) (s : State) : Result :=
  opMxflush g a l s
def execMxnorm (g : Guard) (d a b : Reg) (s : State) : Result :=
  opMxnorm g d a (.reg b) s
def execMxnormRL (g : Guard) (d a : Reg) (lit : BitVec 32) (s : State) : Result :=
  opMxnorm g d a (.lit lit) s
def execMxexp (g : Guard) (d a : Reg) (l : Bool) (s : State) : Result :=
  opMxexp g d a l s

end Sys2Proof.Machine
end

