-- ==== Sys2Proof/Machine/Scheduler.lean ====
section
/-!
DEFINITION. Machine/Scheduler.lean: the steps of the scheduling block, of Caldera and of a core's slot table: launch records
and chunks (R305 to R310), aging (R313), offers (R314, R381), steals (R315, R316), gangs (R318, R319) and issue (R321,
R124).
-/
namespace Sys2Proof.Machine

/-! ## Cores and clusters of a partition -/

/-- The clusters of a rectangle of a brick, in rising order. -/
def rectClusters (die r : Nat) : List Nat :=
  if bit r 31 then
    (List.range (bits r 27 24 + 1 - bits r 19 16)).flatMap fun y =>
      (List.range (bits r 12 8 + 1 - bits r 4 0)).map fun x => die * 512 + (bits r 19 16 + y) * 32 + bits r 4 0 + x
  else []

def State.partClusters (s : State) (part die : Nat) : List Nat :=
  match Table.get? (s.brick die).rects part with
  | some r => rectClusters die r.toNat
  | none => []

def coresOf (cls : List Nat) : List Nat := cls.flatMap fun c => (List.range 8).map fun i => c * 8 + i

/-- The cores of a brick in a partition, in rising order. -/
def State.partCores (s : State) (part die : Nat) : List Nat := coresOf (s.partClusters part die)

/-! ## Launch records (R306, R307) -/

def recEntryPc (r : Nat) : Nat := bits r 31 0
def recCount (r : Nat) : Nat := bits r 63 32
def recCursor (r : Nat) : Nat := bits r 95 64
def recGang (r : Nat) : Nat := bits r 111 96
def recAffinity (r : Nat) : Nat := bits r 123 120
def recDomain (r : Nat) : Nat := bits r 143 128
def recStackBase (r : Nat) : Nat := bits r 439 384
def recStackLog2 (r : Nat) : Nat := bits r 453 448

def recSteal (r : Nat) : Steal :=
  match bits r 113 112 with
  | 0 => .core
  | 1 => .clu
  | 2 => .die
  | _ => .dev

/-- What the arbiter waits for before it accesses the record at HEAD of a queue. -/
def State.headWaits (s : State) (q : Nat) (write : Bool) : Option State :=
  if s.lqEmpty q then none else s.slotWaits q (s.lqHeadOf q) write

/-- The record at HEAD of a queue that holds one, once it can be read. -/
def State.headRecord (s : State) (q : Nat) : Option Nat :=
  if s.lqEmpty q || (s.headWaits q false).isSome then none else some (s.cohWide (s.lqSlot q (s.lqHeadOf q)) 64)

/-- The record at HEAD has been handed out in part. -/
def State.openedHead (s : State) (q : Nat) : Bool := (Table.get? s.regs.lqOpened q).map BitVec.toNat == some (s.lqHeadOf q)

/-- A brick of an affinity mask holds a rectangle of a partition. -/
def State.usableMask (s : State) (aff part : Nat) : Bool := [0, 1, 2, 3].any fun d => bit aff d && s.partOnBrick part d

/-- A record that the arbiter accepts (R307). -/
def State.recordOk (s : State) (q r : Nat) : Bool :=
  bits r 511 454 == 0 && bits r 447 440 == 0 && bits r 191 144 == 0 && bits r 127 124 == 0 && !bit r 119 &&
    recCount r != 0 && (recCursor r == 0 || s.openedHead q) && decide (recGang r ≤ 4096) &&
    (decide (recGang r < 2) || recCount r % recGang r == 0) && recEntryPc r % 4 == 0 && recStackBase r % 8 == 0 &&
    (recStackLog2 r == 0 || (decide (3 ≤ recStackLog2 r) && decide (recStackLog2 r ≤ 40))) &&
    (match s.rightsDesc (recDomain r) with | some d => descValid d && bits d 7 0 == q / 4 | none => false) &&
    s.usableMask (recAffinity r) (q / 4)

def State.putCursor (s : State) (q v : Nat) : State := s.cohPut (s.lqSlot q (s.lqHeadOf q) + 8) (toBytes 4 v)

def State.nextHead (s : State) (q : Nat) : State :=
  { s with regs := { s.regs with lqHead := Table.set s.regs.lqHead q (BitVec.ofNat 32 (s.lqHeadOf q + 1)),
                                 lqOpened := Table.erase s.regs.lqOpened q } }

/-- LAUNCH_RECORD_DISCARD (R307). -/
def execLaunchRecordDiscard (q : Nat) (s : State) : Result :=
  match s.headRecord q with
  | none => .next ((s.headWaits q false).getD s)
  | some r =>
    if s.recordOk q r then .next s
    else match s.headWaits q true with
    | some s => .next s
    | none =>
      let h := s.lqHeadOf q
      let s := s.putCursor q (2 ^ 32 - 1)
      let s := s.log { die := 0, event := 3, detail := q * 2 ^ 16 + h % 2 ^ 16, pc := 0, domain := 0, part := 0,
                       sourceDie := 0, ctx := 0, addr := 0 }
      .next (s.nextHead q)

/-! ## Chunks (R308 to R310) -/

/-- A brick may expand the record at HEAD of a queue. -/
def State.mayExpand (s : State) (die q r : Nat) : Bool :=
  s.recordOk q r && bit (recAffinity r) die && s.partOnBrick (q / 4) die

/-- The open record that a Caldera takes: the highest LQ_PRIO, then the lowest queue index. -/
def State.openRecord (s : State) (die : Nat) : Option (Nat × Nat) :=
  let open_ := s.regs.lqBase.filterMap fun (q, _) =>
    match s.headRecord q with
    | some r => if s.mayExpand die q r then some (q, r) else none
    | none => none
  leastBy (fun a b => decide (regOf s.regs.lqPrio b.1 < regOf s.regs.lqPrio a.1) ||
    (regOf s.regs.lqPrio a.1 == regOf s.regs.lqPrio b.1 && decide (a.1 < b.1))) open_

/-- Reserve up to n pool lines, one at a time (R310). -/
def State.reserveLines (s : State) (die : Nat) : Nat → List Nat × State
  | 0 => ([], s)
  | n + 1 => match s.reserveCtx die with
    | none => ([], s)
    | some (k, s) =>
      let (ks, s) := State.reserveLines s die n
      (k :: ks, s)

def State.returnLines (s : State) (ks : List Nat) : State := ks.foldl (fun s k => s.setFreeBit k true) s

def chunkSize : Nat := 64

/-- CHUNK_REQUEST (R308): a gang's lines are reserved together or not at all; nothing is launched before an image runs (R374,
assumption 101). -/
def execChunkRequest (die : Die) (s : State) : Result :=
  let d := die.val
  if !s.boot.running || !s.dieLive d || s.chunks.any (fun c => c.die == d) || decide (s.regs.expandLow.toNat ≤ (s.brick d).ready.length) then
    .next s
  else match s.openRecord d with
    | none => .next s
    | some (q, r) =>
      let want := if recGang r < 2 then chunkSize else recGang r
      let (ks, t) := s.reserveLines d want
      if ks.isEmpty || (decide (2 ≤ recGang r) && ks.length != want) then .next s
      else .next { t with chunks := t.chunks ++ [{ die := d, queue := q, lines := ks }] }

/-- A created context (R310); GENERATION is the one its line keeps. -/
def launchLine (r part prio index : Nat) : Line :=
  let z := lineOf []
  let link := if recStackLog2 r = 0 then 0 else (recStackBase r + (index + 1) * 2 ^ recStackLog2 r) % 2 ^ 64
  { z with
    regs := { z.regs with g0 := BitVec.ofNat 64 index, g1 := BitVec.ofNat 64 (bits r 255 192),
                          g2 := BitVec.ofNat 64 (bits r 319 256) }
    pc := BitVec.ofNat 32 (recEntryPc r)
    status := BitVec.ofNat 32 (CtxState.ready.code + prio % 32 * 2 ^ 4 + bits r 118 118 * 2 ^ 9)
    control := BitVec.ofNat 64 (recDomain r + part * 2 ^ 16 + recAffinity r * 2 ^ 24 + bits r 115 114 * 2 ^ 28 +
      bits r 117 116 * 2 ^ 30)
    link := BitVec.ofNat 64 link
    user := BitVec.ofNat 64 (bits r 383 320) }

/-- Write the contexts of a chunk into the context L2 of a cluster. -/
def State.createLines (s : State) (cl r part prio first : Nat) : List Nat → State
  | [] => s
  | k :: ks =>
    State.createLines (s.allocLine cl (s.ctxVa k) (launchLine r part prio first)) cl r part prio (first + 1) ks

/-- The contexts of an ordinary chunk enter a ready queue with the record's STEAL. -/
def State.queueLines (s : State) (die : Nat) (r : Nat) (ks : List Nat) : State :=
  ks.foldl (fun s k => match (s.place (s.ctxVa k)).line? with
    | some l => s.enterReady (s.ctxVa k) l (some die) (recSteal r)
    | none => s) s

/-- The contexts of a gang receive a ticket (R318). -/
def State.queueGang (s : State) (die prio : Nat) (ks : List Nat) : State :=
  let b := s.brick die
  let g : Gang := { ticket := s.regs.gangTicket, priority := prio, members := ks.map fun k => (s.ctxVa k, none) }
  { s.setBrick die { b with gangs := b.gangs ++ [g] } with regs := { s.regs with gangTicket := s.regs.gangTicket + 1 } }

/-- A rising list of numbers. -/
def sortNat : List Nat → List Nat
  | [] => []
  | x :: xs => insertNat x (sortNat xs)

/-- A grant: n indices are handed out, CURSOR and HEAD advance, and LQ_PRIO is read for the chunk (R308, R309). Which
cluster of the rectangle takes the lines is a free value. -/
def State.grantChunk (s : State) (c : ChunkReq) (r : Nat) (cls : List Nat) (n : Nat) : State :=
  let q := c.queue
  let prio := regOf s.regs.lqPrio q
  let cur := recCursor r
  let ks := sortNat c.lines
  let s := s.putCursor q (cur + n)
  let s := if cur + n = recCount r then s.nextHead q
    else { s with regs := { s.regs with lqOpened := Table.set s.regs.lqOpened q (BitVec.ofNat 32 (s.lqHeadOf q)) } }
  let s := s.returnLines (ks.drop n)
  let (v, s) := s.draw
  let cl := (cls[v.toNat % cls.length]?).getD (c.die * 512)
  let s := s.createLines cl r (q / 4) prio cur (ks.take n)
  if recGang r < 2 then s.queueLines c.die r (ks.take n) else s.queueGang c.die prio (ks.take n)

/-- CHUNK_GRANT (R308): requests are granted in the order they arrived; one whose record has gone gets its lines back. -/
def execChunkGrant (n : Nat) (s : State) : Result :=
  match n, s.chunks with
  | 0, c :: rest =>
    let t := { s with chunks := rest }
    match s.headWaits c.queue true with
    | some s => .next s
    | none => match t.headRecord c.queue with
    | none => .next (t.returnLines c.lines)
    | some r =>
      let gang := recGang r
      let m := if gang < 2 then min (min c.lines.length chunkSize) (recCount r - recCursor r) else gang
      if !t.mayExpand c.die c.queue r || decide (c.lines.length < m) || m == 0 then .next (t.returnLines c.lines)
      else .next (t.grantChunk c r (t.partClusters (c.queue / 4) c.die) m)
  | _, _ => .next s

/-! ## Ready queues: aging (R313) -/

def agingCycles : Nat := 65536

/-- READY_ENTRY_AGING (R313): entries on chip only (R311), and none whose claim is outstanding (R314, R381). -/
def execReadyEntryAging (die : Die) (n : Nat) (s : State) : Result :=
  let b := s.brick die.val
  match b.ready[n]? with
  | some e =>
    if 31 ≤ e.level || e.offered || decide (s.cycle < e.since + agingCycles) || decide (onChip ≤ n) then .next s
    else
      let e : ReadyEntry := { e with level := e.level + 1, gain := e.gain + 1, since := s.cycle, tried := [] }
      .next (s.setReady die.val (listErase b.ready n ++ [e]))
  | none => .next s

/-! ## Offers (R314, R316) -/

/-- A core reserves its lowest free entry for a context and claims it. -/
def State.claimInto (s : State) (core entry va die : Nat) : State :=
  let c := s.core core
  (s.setCore core { c with entries := Table.set c.entries entry (.claiming va) }).sendClaim va core entry die false none

/-- A core reserves the entry of a victim, whose eviction starts (R127, R131). -/
def State.claimVictim (s : State) (core entry : Nat) (h : Held) (va : Nat) : State :=
  let c := s.core core
  let h : Held := { h with draining := true, ending := endingOf h.line }
  s.setCore core { c with entries := Table.set c.entries entry (.victim h va) }

/-- The cores of the gang's partition on a brick (R318). -/
def State.gangCores (s : State) (die : Nat) (g : Gang) : List Nat :=
  match g.members.head? with
  | some (va, _) => match (s.place va).line? with
    | some l => s.partCores l.partition die
    | none => []
  | none => []

/-- A member that is still without an entry. -/
def Gang.missing (g : Gang) : Option Nat := g.members.findIdx? fun (_, e) => e.isNone

/-- A gang of the brick waits for an entry of the core: a free one is the oldest such gang's (R319). -/
def State.gangWants (s : State) (core : Nat) : Bool :=
  let d := dieOfCore core
  (s.brick d).gangs.any fun g => g.missing.isSome && (s.gangCores d g).contains core

/-- The bottom of a core's deque that it may place, with its priority (R316). -/
def State.dequeBottom (s : State) (core : Nat) : Option (DequeEntry × Nat) :=
  match (s.core core).deque.getLast? with
  | none => none
  | some e => match (s.place e.va).line? with
    | some l => if s.mayPlace core l then some (e, l.priority) else none
    | none => none

/-- A core claims a child that it has taken from a deque into a free entry (R316). -/
def State.claimChild (s : State) (core entry : Nat) (e : DequeEntry) : State :=
  let c := s.core core
  (s.setCore core { c with entries := Table.set c.entries entry (.claiming e.va) }).sendClaim e.va core entry (dieOfCore core)
    false (some e.steal)

/-- The core pops the bottom of its deque into a free entry. -/
def State.takeBottom (s : State) (core entry : Nat) (e : DequeEntry) : State :=
  let c := s.core core
  (s.setCore core { c with deque := c.deque.dropLast }).claimChild core entry e

/-- A core's answer to an offer of an entry: it prefers the bottom of its deque (R316), then takes a free entry, which it refuses
while a gang waits for it (R319), then a victim; none is a refusal. -/
def State.takeOffer (s : State) (core va level prio : Nat) : State × Bool :=
  let c := s.core core
  match freeEntry c with
  | some i =>
    if s.gangWants core then (s, false)
    else match s.dequeBottom core with
    | some (e, p) => if level ≤ p then (s.takeBottom core i e, false) else (s.claimInto core i va (dieOfCore core), true)
    | none => (s.claimInto core i va (dieOfCore core), true)
  | none =>
    match chooseVictim c prio with
    | some (n, h) => (s.claimVictim core n h va, true)
    | none => (s, false)

/-- The head of a level: its oldest entry that awaits no claim. -/
def headOfLevel (ready : List ReadyEntry) (level : Nat) : Option (Nat × ReadyEntry) :=
  (ready.zipIdx.find? fun (e, _) => e.level == level && !e.offered && e.notBefore == 0).map fun (e, i) => (i, e)

/-- The order of the cores of a brick after the one that had the previous offer (R314). -/
def offerRank (last core : Nat) : Nat := (core + 4096 - (last + 1) % 4096) % 4096

/-- The preference of a core for a context (R314): its cluster's context L2 holds the line, its overlay is EXECUTABLE, or
neither. -/
def State.offerGroup (s : State) (p : Place) (l : Line) (core : Nat) : Nat :=
  let near := match p with
    | .l2 cl _ => cl == clusterOfCore core
    | .entry _ _ _ | .transfer _ | .memory _ _ | .bad _ _ | .unmapped => false
  if near then 0 else if (execSlot (s.core core) l.domain l.pcOverlay).isSome then 1 else 2

/-- The core that is offered a context next among some. -/
def State.nextCore (s : State) (die : Nat) (p : Place) (l : Line) (cores : List Nat) : Option Nat :=
  let last := (s.brick die).lastOffer
  leastBy (fun a b => decide (s.offerGroup p l a < s.offerGroup p l b) ||
    (s.offerGroup p l a == s.offerGroup p l b && decide (offerRank last a < offerRank last b))) cores

/-- The heads of a Caldera from its highest level down. -/
def heads (ready : List ReadyEntry) : List (Nat × ReadyEntry) :=
  (List.range 32).reverse.filterMap fun l => headOfLevel ready l

/-- What becomes of an offer. -/
inductive OfferPlan
  | idle
  | drop (n : Nat)
  | fault (n : Nat) (e : ReadyEntry)
  | move (n : Nat) (e : ReadyEntry) (l : Line)
  | offer (n : Nat) (e : ReadyEntry) (l : Line) (core : Nat)
  | round

/-- The first head that can be offered: a lower one only to cores that no higher head can go to (R314). `above` holds those
cores; `asked` says whether some core has refused in this round. -/
def State.planOffer (s : State) (die : Nat) (above : List Nat) (asked : Bool) : List (Nat × ReadyEntry) → OfferPlan
  | [] => if asked then .round else .idle
  | (n, e) :: rest =>
    let p := s.place e.va
    match p with
    | .unmapped => .fault n e
    | .bad _ l | .memory _ l | .l2 _ { line := l, .. } | .transfer { line := l, .. } | .entry _ _ { line := l, .. } =>
      if !l.inState .ready then .drop n
      else if !s.dieLive (s.ctxHome e.va) then State.planOffer s die above asked rest
      else
        let cores := (s.partCores l.partition die).filter fun c => s.mayAccept c l
        if cores.isEmpty then (if e.refused then State.planOffer s die above asked rest else .move n e l)
        else
          let fresh := cores.filter fun c => !above.contains c && !e.tried.contains c
          match s.nextCore die p l fresh with
          | some c => .offer n e l c
          | none => State.planOffer s die (above ++ cores) true rest

/-- The next brick of an affinity mask after a brick, in the order d + 1, d + 2, d + 3. -/
def nextBrick (die aff : Nat) : Option Nat := ([1, 2, 3].map fun i => (die + i) % 4).find? fun d => bit aff d

/-- An entry that no core of the brick could ever accept goes to the next brick of its AFFINITY, or stays and is logged
(R314). -/
def State.moveEntry (s : State) (die n : Nat) (e : ReadyEntry) (l : Line) : State :=
  match nextBrick die l.affinity with
  | some d => (s.readyDrop die n).readyPush d { e with since := s.cycle, tried := [] }
  | none =>
    let b := s.brick die
    (s.setBrick die { b with ready := listSet b.ready n { e with refused := true } }).log
      { die := die, event := 8, detail := l.slotClass, pc := 0, domain := BitVec.ofNat 16 l.domain,
        part := BitVec.ofNat 8 l.partition, sourceDie := die, ctx := e.va, addr := 0 }

/-- An entry whose page is not mapped, as its claim would find it (R113, R314 case 4). -/
def State.faultEntry (s : State) (die n : Nat) (e : ReadyEntry) : State :=
  let e : ReadyEntry := { e with notBefore := s.cycle + reofferCycles }
  (s.setReady die (listErase (s.brick die).ready n ++ [e])).log
    { die := s.ctxHome e.va, event := 4, detail := 0, pc := 0, domain := 0, part := 0, sourceDie := die, ctx := e.va,
      addr := e.va }

/-- One offer to a core. -/
def State.makeOffer (s : State) (die n : Nat) (e : ReadyEntry) (l : Line) (core : Nat) : State :=
  let (s, taken) := s.takeOffer core e.va e.level l.priority
  let b := s.brick die
  let e : ReadyEntry := if taken then { e with offered := true, gain := 0, tried := [] } else { e with tried := core :: e.tried }
  s.setBrick die { b with ready := listSet b.ready n e, lastOffer := core }

/-- DISPATCH_OFFER (R314, R381): one offer per cycle; a stopped brick makes none (R370). -/
def execDispatchOffer (die : Die) (s : State) : Result :=
  let d := die.val
  let b := s.brick d
  if !s.dieLive d then .next s
  else match s.planOffer d [] false (heads b.ready) with
    | .idle => .next s
    | .drop n => .next (s.readyDrop d n)
    | .fault n e => .next (s.faultEntry d n e)
    | .move n e l => .next (s.moveEntry d n e l)
    | .offer n e l c => .next (s.makeOffer d n e l c)
    | .round => .next (s.setBrick d { b with ready := b.ready.map fun e => { e with tried := [] } })

/-! ## Steals (R315, R316) -/

/-- The highest head of its Caldera that can be offered to a core: READY at a LIVE home, on the core's terms (R314, R316). -/
def State.headFor (s : State) (core : Nat) : Option ReadyEntry :=
  ((heads (s.brick (dieOfCore core)).ready).find? fun (_, e) => match (s.place e.va).line? with
    | some l => l.inState .ready && s.dieLive (s.ctxHome e.va) && s.mayAccept core l
    | none => false).map (·.2)

/-- A core may take some entry of its Caldera. -/
def State.offerFor (s : State) (core : Nat) : Bool := (s.headFor core).isSome

/-- The partitions in which some core of a brick has a free entry. -/
def State.freeParts (s : State) (die : Nat) : List Nat :=
  (s.brick die).rects.filterMap fun (p, r) =>
    if (coresOf (rectClusters die r.toNat)).any fun c => (freeEntry (s.core c)).isSome then some p else none

/-- A Caldera is idle (R315). -/
def State.calderaIdle (s : State) (die : Nat) : Bool :=
  !(s.brick die).rects.isEmpty && !(s.freeParts die).isEmpty &&
    !(s.brick die).ready.any fun e => (match (s.place e.va).line? with
      | some l => (s.partCores l.partition die).any fun c => s.mayAccept c l
      | none => false)

/-- The cycles between two rounds of an idle Caldera. -/
def stealCycles : Nat := 4096

/-- STEAL_REQUEST (R315): an idle Caldera starts a round when it becomes idle and every 4,096 cycles while it stays so. -/
def execStealRequest (die : Die) (s : State) : Result :=
  let d := die.val
  let b := s.brick d
  if !s.dieLive d || s.steals.any (fun r => r.thief == d) then .next s
  else if !s.calderaIdle d then .next (s.setBrick d { b with stealAt := 0 })
  else if s.cycle < b.stealAt then .next s
  else
    let r : StealReq := { thief := d, left := [(d + 1) % 4, (d + 2) % 4, (d + 3) % 4], parts := s.freeParts d }
    .next { s.setBrick d { b with stealAt := s.cycle + stealCycles } with steals := s.steals ++ [r] }

/-- An entry qualifies for a thief. -/
def State.stealable (s : State) (r : StealReq) (e : ReadyEntry) : Bool :=
  e.steal == .dev && (match (s.place e.va).line? with
    | some l => bit l.affinity r.thief && r.parts.contains l.partition && s.partOnBrick l.partition r.thief
    | none => false)

/-- The entries that a victim hands over: from its highest level with qualifying ones the oldest, up to half of them rounded
up and at most 64. -/
def State.handOver (s : State) (r : StealReq) (victim : Nat) : List ReadyEntry :=
  let q := (s.brick victim).ready.filter fun e => s.stealable r e
  let top := q.foldl (fun m e => max m e.level) 0
  let q := q.filter fun e => e.level == top
  q.take (min 64 ((q.length + 1) / 2))

/-- The victim keeps the entries whose claims are outstanding beside the copies it hands over (R381); an entry that a page fault
has put off is no sooner offered by the thief (R314). -/
def State.handAll (s : State) (r : StealReq) (victim : Nat) (es : List ReadyEntry) : State :=
  let s := s.setReady victim ((s.brick victim).ready.filter fun e => e.offered || !es.contains e)
  es.foldl (fun s e => s.readyPush r.thief { e with offered := false, since := s.cycle, tried := [], refused := false }) s

/-- STEAL_SERVE (R315, R381): the next brick of a round hands over what it can; the round ends with the first that does. -/
def execStealServe (n : Nat) (s : State) : Result :=
  match s.steals[n]? with
  | none => .next s
  | some r =>
    match r.left with
    | [] => .next { s with steals := listErase s.steals n }
    | v :: left =>
      let es := if s.dieLive v then s.handOver r v else []
      if es.isEmpty then
        .next { s with steals := if left.isEmpty then listErase s.steals n else listSet s.steals n { r with left := left } }
      else .next ({ s with steals := listErase s.steals n }.handAll r v es)

/-- The uppermost entry of a sibling's deque that another core of the cluster may take: the sibling, its place in the
deque and the entry. -/
def State.siblingEntry (s : State) (core : Nat) : Option (Nat × Nat × DequeEntry) :=
  ((List.range 8).map fun i => core / 8 * 8 + i).findSome? fun k =>
    if k = core then none
    else
      let q := (s.core k).deque
      match q.findIdx? fun e => e.steal != .core && (match (s.place e.va).line? with
        | some l => s.mayAccept core l
        | none => false) with
      | some i => (q[i]?).map fun e => (k, i, e)
      | none => none

/-- DEQUE_SIBLING_STEAL (R316): a core with a free entry and no offer takes from a sibling's deque. -/
def execDequeSiblingSteal (core : Nat) (s : State) : Result :=
  match freeEntry (s.core core) with
  | none => .next s
  | some i =>
    if !s.dieLive (dieOfCore core) || s.gangWants core || s.offerFor core || (s.dequeBottom core).isSome then .next s
    else match s.siblingEntry core with
      | some (k, j, e) =>
        let c := s.core k
        .next ((s.setCore k { c with deque := listErase c.deque j }).claimChild core i e)
      | none => .next s

/-! ## Gangs (R318, R319) -/

/-- An entry for a member on a core: a free one, or a victim's by R131 with the gang's priority. -/
def entryFor (c : CoreState) (prio : Nat) : Option (Nat × Option Held) :=
  match freeEntry c with
  | some i => some (i, none)
  | none => (chooseVictim c prio).map fun (n, h) => (n, some h)

/-- The first core that has an entry for a member: a free entry anywhere before any victim. -/
def State.gangPlace (s : State) (g : Gang) (cores : List Nat) : Option (Nat × Nat × Option Held) :=
  match cores.findSome? fun c => (freeEntry (s.core c)).map fun i => (c, i, (none : Option Held)) with
  | some x => some x
  | none => cores.findSome? fun c => (entryFor (s.core c) g.priority).map fun (i, h) => (c, i, h)

/-- A reservation for member m. -/
def State.reserveEntry (s : State) (die : Nat) (g : Gang) (m core entry : Nat) (victim : Option Held) : State :=
  let c := s.core core
  let va := ((g.members[m]?).map fun x => x.1).getD 0
  let e : L1Entry := match victim with
    | none => .gang g.ticket va
    | some h => .gangVictim { h with draining := true, ending := endingOf h.line } g.ticket va
  let s := s.setCore core { c with entries := Table.set c.entries entry e }
  s.putGang die { g with members := listSet g.members m (va, some (core, entry)) }

/-- The gang of a brick with a ticket, as it stands now. -/
def State.gangOf (s : State) (die ticket : Nat) : Option Gang := (s.brick die).gangs.find? fun g => g.ticket == ticket

/-- A gang takes entries for its members while some core has one. -/
def State.fillGang (s : State) (die ticket : Nat) : Nat → State
  | 0 => s
  | n + 1 =>
    match s.gangOf die ticket with
    | none => s
    | some g =>
      match g.missing, s.gangPlace g (s.gangCores die g) with
      | some m, some (c, i, h) => State.fillGang (s.reserveEntry die g m c i h) die ticket n
      | _, _ => s

/-- A gang gives up every reservation, and the waiting gang with the lowest ticket takes what it needs of the released entries
before anything else does (R319). -/
def State.releaseGang (s : State) (die : Nat) (g : Gang) : State :=
  let s := g.members.foldl (fun s (_, e) => match e with | some (c, i) => s.releaseEntry c i | none => s) s
  let s := s.putGang die { g with members := g.members.map fun (va, _) => (va, none) }
  let waiting := (s.brick die).gangs.filter fun x => x.ticket != g.ticket && x.missing.isSome
  match leastBy (fun a b => decide (a.ticket < b.ticket)) waiting with
  | some x => s.fillGang die x.ticket x.members.length
  | none => s

/-- Every reserved entry has been left by its victim. -/
def State.gangReady (s : State) (g : Gang) : Bool :=
  g.members.all fun (_, e) => match e with
    | some (c, i) => match Table.get? (s.core c).entries i with
      | some (.gang t _) => t == g.ticket
      | some (.held _) | some (.claiming _) | some (.victim _ _) | some (.gangVictim _ _ _) | none => false
    | none => false

/-- Every member is claimed into its entry at once. -/
def State.claimGang (s : State) (die : Nat) (g : Gang) : State :=
  g.members.foldl (fun s (va, e) => match e with
    | some (c, i) =>
      let k := s.core c
      (s.setCore c { k with entries := Table.set k.entries i (.claiming va) }).sendClaim va c i die true none
    | none => s) (s.dropGang die g)

/-- What the gangs of a brick do next, in ticket order (R319): the first that can be claimed, take an entry, or must release
what it holds. -/
def State.gangStep (s : State) (die : Nat) (older : Bool) : List Gang → Option State
  | [] => none
  | g :: rest =>
    match g.missing with
    | none => if s.gangReady g then some (s.claimGang die g) else State.gangStep s die older rest
    | some m =>
      match s.gangPlace g (s.gangCores die g) with
      | some (c, i, h) => some (s.reserveEntry die g m c i h)
      | none =>
        if older && g.members.any fun (_, e) => e.isSome then some (s.releaseGang die g)
        else State.gangStep s die true rest

/-- GANG_RESERVE (R318, R319). -/
def execGangReserve (die : Die) (s : State) : Result :=
  if s.dieLive die.val then .next ((s.gangStep die.val false (s.brick die.val).gangs).getD s) else .next s

/-! ## Issue (R321, R124, R353) -/

/-- Move a pinned context below the limit; its PINNED entries follow (R124). -/
def CoreState.movePinned (c : CoreState) (n i : Nat) (e : L1Entry) : CoreState :=
  let swap := fun (tab : BitVec 128) => (List.range 16).foldl (fun (t : BitVec 128) k =>
    if slotEntry t.toNat k = 0x80 + n then BitVec.ofNat 128 (setBits t.toNat (8 * k + 7) (8 * k) (0x80 + i)) else t) tab
  { c with entries := Table.set (Table.erase c.entries n) i e, slotTab := swap c.slotTab,
           slotTabNext := c.slotTabNext.map swap }

/-- The victim below the limit that makes room for a pinned context (R124). -/
def limitVictim (c : CoreState) : Option (Nat × Held) :=
  match waitVictim (victims c) with
  | some v => some v
  | none => residentVictim (victims c)

/-- What stands in an entry moves to another: a claim or a gang's reservation into it follows (R127, R318). -/
def State.moveEntryOf (s : State) (core n i : Nat) (e : L1Entry) : State :=
  let c := s.core core
  let at_ := fun (x : Claim) => if x.core = core ∧ x.entry = n then { x with entry := i } else x
  let s := s.setCore core (c.movePinned n i e)
  let s := { s with claims := s.claims.map at_, claimsLost := s.claimsLost.map fun (x, k) => (at_ x, k),
                    transfers := s.transfers.map fun t => if t.core = core ∧ t.entry = n then { t with entry := i } else t }
  [0, 1, 2, 3].foldl (fun s d =>
    let b := s.brick d
    let place := fun (m : Nat × Option (Nat × Nat)) => if m.2 = some (core, n) then (m.1, some (core, i)) else m
    s.setBrick d { b with gangs := b.gangs.map fun g => { g with members := g.members.map place } }) s

/-- An entry beyond the limit that no PINNED entry of the table names. -/
def beyondLimit (c : CoreState) (n : Nat) : Bool := decide (c.ctxl1Limit ≤ n) && !isPinned c.slotTab.toNat n

/-- An entry below the limit is on its way to becoming free. -/
def freeingBelow (c : CoreState) : Bool :=
  c.entries.any fun (n, e) => decide (n < c.ctxl1Limit) && (match e with
    | .held h => h.draining
    | .claiming _ | .victim _ _ | .gang _ _ | .gangVictim _ _ _ => false)

/-- The head of the buffer waits for a page, so that no eviction of the core can complete (R52, R129). -/
def CoreState.stuck (c : CoreState) : Bool := match c.sbPhase with | .page cls => cls != 3 | .idle | .sent => false

/-- The unpinned contexts beyond the limit begin to leave (R124). -/
def State.leaveBeyond (s : State) (core : Nat) : State :=
  let c := s.core core
  c.entries.foldl (fun s (k, x) => match x.ctx? with
    | some h => if beyondLimit c k && !h.draining then s.startEviction core k h (endingOf h.line) else s
    | none => s) s

/-- The next action of R124, or none when every entry lies below the limit: the unpinned contexts beyond it leave; then each
pinned one moves into a free entry, for which one context below the limit at a time is evicted. A context whose head waits for a page
stays until that store is performed, and while it holds up the buffer the core serves its other contexts (R129, assumption 52). -/
def State.limitStep (s : State) (core : Nat) : Option State :=
  let c := s.core core
  let waits := if c.stuck then none else some s
  let held := fun (e : L1Entry) => e.ctx?.any fun h => pageHeld c h.va
  if c.entries.any fun (n, e) => beyondLimit c n && e.ctx?.any fun h => !h.draining then some (s.leaveBeyond core)
  else if !c.stuck && c.entries.any fun (n, _) => beyondLimit c n then some s
  else match c.entries.find? fun (n, e) => decide (c.ctxl1Limit ≤ n) && !beyondLimit c n && !held e with
    | some (n, e) => match freeEntry c with
      | some i => some (s.moveEntryOf core n i e)
      | none =>
        if freeingBelow c then waits
        else match limitVictim c with
          | some (v, h) => some (s.startEviction core v h (endingOf h.line))
          | none => waits
    | none =>
      if c.entries.any fun (n, e) => decide (c.ctxl1Limit ≤ n) && e.ctx?.any fun h => pageHeld c h.va && h.kept.isNone then
        some (s.tagHeld core false)
      else none

/-- A core takes the bottom of its deque into a free entry when its priority is at least the level of the highest head it
may accept (R316), and no gang waits for the entry (R319). -/
def State.ownDeque (s : State) (core : Nat) : State :=
  match freeEntry (s.core core), s.dequeBottom core with
  | some i, some (e, p) =>
    if s.gangWants core || (s.headFor core).any (fun x => decide (p < x.level)) then s else s.takeBottom core i e
  | _, _ => s

/-- The contexts that qualify for a POOL cycle, in entry order after the one that issued last in one. -/
def poolOrder (c : CoreState) (cycle cls : Nat) : List (Nat × Held) :=
  ((List.range 16).map fun i => (c.lastPool + 1 + i) % 16).filterMap fun n =>
    match (Table.get? c.entries n).bind L1Entry.issuable with
    | some h =>
      if h.line.slotClass = cls ∧ !isPinned c.slotTab.toNat n ∧ (h.issuedAt = 0 ∨ h.issuedAt + 8 ≤ cycle) then some (n, h)
      else none
    | none => none

/-- The core may issue a context: Geyser has not asked it to retry later (R244). -/
def State.mayIssue (s : State) (h : Held) : Bool := !s.mxRetries.any fun (w, _) => w.ctx == h.va && w.gen == h.line.gen

/-- A POOL cycle: contexts that a `yield` skips lose their turn (R327), and the first of the others issues. -/
def State.poolCycle (s : State) (core cls : Nat) : State :=
  let order := (poolOrder (s.core core) s.cycle cls).filter fun (_, h) => s.mayIssue h
  let skipped := order.takeWhile fun (_, h) => h.skip
  let s := skipped.foldl (fun s (n, h) => s.putHeld core n { h with skip := false }) s
  match (order.drop skipped.length).head? with
  | some (n, _) =>
    let c := s.core core
    { s.setCore core { c with lastPool := n } with latch := some (core, n) }
  | none => s

/-- The slot entry of this cycle (R321). -/
def State.slotCycle (s : State) (core : Nat) : State :=
  let c := s.core core
  let e := slotEntry c.slotTab.toNat (s.cycle % 16)
  match e / 64 with
  | 1 => if (s.brick (dieOfCore core)).withheld.contains .poolCycles then s else s.poolCycle core (e / 16 % 4)
  | 2 => if ((Table.get? c.entries (e % 16)).bind L1Entry.issuable).any s.mayIssue then { s with latch := some (core, e % 16) } else s
  | _ => s

/-- An accepted table governs issue from the first cycle that is a multiple of 16 (R353). -/
def State.newTable (s : State) (core : Nat) : State :=
  let c := s.core core
  match c.slotTabNext with
  | some t => if s.cycle % 16 = 0 then s.setCore core { c with slotTab := t, slotTabNext := none } else s
  | none => s

/-- ISSUE_CYCLE (R321): nothing issues while contexts beyond CTXL1_LIMIT leave or move (R124, R129), nor before an image that boot
verified runs (R374, assumption 101). -/
def execIssueCycle (core : Nat) (s : State) : Result :=
  if !s.boot.running then .next s else
  let s := s.newTable core
  match s.limitStep core with
  | some s => .next s
  | none => .next ((s.ownDeque core).slotCycle core)

end Sys2Proof.Machine
end

