-- ==== Sys2Proof/Machine/TileUnit.lean ====
section
/-!
DEFINITION. Machine/TileUnit.lean: the tile unit of a cluster: the arrival of an operation and its checks (R222), its
execution (R223 to R230, R234), allocation (R231, R103), freeing and zeroing (R104, R232, R233), and what ends when a
refresh fails or is abandoned (R112, R244).
-/
namespace Sys2Proof.Machine

/-! ## Rows -/

def dRowAddr (cl d r : Nat) : Nat := tspBase cl + dBase d + r * dPitch d

/-- Row r of a tile shares a byte with a tile of the same cluster. -/
def rowMeets (d e r : Nat) : Bool :=
  (List.range (dRows e)).any fun q =>
    decide (0 < overlapBytes (dBase d + r * dPitch d) (dRowBytes d) (dBase e + q * dPitch e) (dRowBytes e))

/-- Two tiles of a cluster share a byte. -/
def tilesMeet (d e : Nat) : Bool := (List.range (dRows d)).any fun r => rowMeets d e r

/-- The first row of a tile on which a domain lacks rights, with its address (R102, R222). -/
def State.deniedRow (s : State) (w : Who) (cl d : Nat) (n : Rights) : Option (Nat × Nat) :=
  ((List.range (dRows d)).find? fun r =>
    let a := dRowAddr cl d r
    !s.listRights w.domain.toNat w.part.toNat a n || !s.listRights w.domain.toNat w.part.toNat (a + dRowBytes d - 1) n).map
    fun r => (r, dRowAddr cl d r)

/-- The first address of a range of the paged space on which a domain lacks rights, by sectors. -/
def State.deniedAt (s : State) (w : Who) (va len : Nat) (n : Rights) : Option Nat :=
  ((List.range ((va % 64 + len + 63) / 64)).map fun i => max va (va / 64 * 64 + 64 * i)).find? fun a =>
    !s.listRights w.domain.toNat w.part.toNat a n

/-- The width of a master element of the page of an address; an address without a page is read as one without a
master. -/
def State.masterAt (s : State) (die va : Nat) : Nat :=
  match s.translate die va false with
  | .ok e => if s.inPool va then 0 else pteMaster e
  | .error _ => 0

/-- Bytes of a subscribed tile's source (R231). -/
def State.sourceBytes (s : State) (cl d : Nat) : Nat :=
  dRows d * dCols d * masterSize (s.masterAt (dieOfCluster cl) (dSrc d))

/-! ## Faults of a home cluster -/

/-- What a unit of a home cluster finds wrong: the code, the operand field, the row, FAULT_VA. -/
structure UnitFault where
  code : FaultCode
  operand : Nat
  row : Nat
  fva : Nat
  deriving DecidableEq, Repr

/-- The fault in the reply of a tile or matrix instruction (R222, R249, R332, R333). -/
def State.unitFault (s : State) (w : Who) (kind cl : Nat) (f : UnitFault) : State :=
  s.reply w kind (.fault f.code .engine (operandWord f.operand f.row) f.fva (dieOfCluster cl))

/-- A request that its home's brick does not take: FAULT_VA is a free value, since the instruction names no address
(R368, R333). -/
def State.unitOffline (s : State) (w : Who) (kind : Nat) : State :=
  let (v, s) := s.draw
  s.reply w kind (.fault .homeOffline .engine w.word (v.toNat % 2 ^ 56) (dieOfCore w.core))

/-- The first handle that R102 refuses. -/
def State.badHandle (s : State) (w : Who) (hs : List (Nat × Nat)) : Option UnitFault :=
  (hs.find? fun (_, h) => (s.lookupHandle w.part.toNat h).isNone).map fun (n, h) => ⟨.staleHandle, n, 0, h⟩

/-- The descriptors of some handles, by operand field. -/
def State.descsOf (s : State) (hs : List (Nat × Nat)) : List (Nat × Nat) :=
  hs.map fun (n, h) => (n, s.desc (handleCluster h) (handleIndex h))

def operandOf (ds : List (Nat × Nat)) (n : Nat) : Option Nat := (ds.find? fun (m, _) => m == n).map (·.2)

/-! ## The checks of R222 -/

def TileOp.waitKind (op : TileOp) : Nat := if op.kind = .free then 2 else 1

/-- The operation computes from source elements. -/
def TileKind.reads : TileKind → Bool
  | .add | .sub | .mul | .fma | .max | .min | .scale _ | .cvt | .redMax _ _ | .redSum _ | .trans | .get _ => true
  | .fill _ _ | .set _ _ | .info _ | .free | .desc _ _ => false

/-- The shapes that an operation asks for (R226 to R230). -/
def tileShapeOk (k : TileKind) (ds : List (Nat × Nat)) : Bool :=
  let d := (operandOf ds 0).getD 0
  let a := (operandOf ds 1).getD 0
  match k with
  | .add | .sub | .mul | .fma | .max | .min | .scale _ | .cvt => ds.all fun (_, e) => dRows e == dRows d && dCols e == dCols d
  | .redMax true _ | .redSum true => dRows d == dRows a && dCols d == 1
  | .trans => dRows d == dCols a && dCols d == dRows a
  | .get i => decide (i.toNat < dRows a * dCols a)
  | .set i _ => decide (i.toNat < dRows d * dCols d)
  | .redMax false _ | .redSum false | .fill _ _ | .info _ | .free | .desc _ _ => true

/-- The rights that an operation needs on an operand (R222, R233, R234). -/
def TileKind.needs (k : TileKind) (operand : Nat) : Rights :=
  if operand = 0 ∨ k = .free then rightsW else rightsR

/-- Checks 3 and 4: shapes, an ACC destination, a transpose onto itself, a subscribed destination. An ACC destination is reported
before the shapes (R222, assumption 132). -/
def tileFormBad (cl : Nat) (op : TileOp) (ds : List (Nat × Nat)) : Option UnitFault :=
  let dest := operandOf ds 0
  let handle := (operandOf op.handles 0).getD 0
  if (dest.map dAcc).getD false then some ⟨.bounds, 0, 0, handle⟩
  else if !tileShapeOk op.kind ds then some ⟨.bounds, 15, 0, 0⟩
  else match dest with
    | none => none
    | some d =>
      if op.kind = .trans ∧ (operandOf ds 1).any (tilesMeet d) then some ⟨.bounds, 0, 0, handle⟩
      else if dSub d then some ⟨.protection, 0, 0, dRowAddr cl d 0⟩
      else none

/-- Check 5: the operands in the order of their fields. -/
def State.tileRightsBad (s : State) (op : TileOp) (ds : List (Nat × Nat)) : Option UnitFault :=
  ds.findSome? fun (n, d) => (s.deniedRow op.who op.cluster d (op.kind.needs n)).map fun (r, a) => ⟨.protection, n, r, a⟩

/-- Checks 1 to 5 at the home cluster. -/
def State.tileBad (s : State) (op : TileOp) : Option UnitFault :=
  match s.badHandle op.who op.handles with
  | some f => some f
  | none =>
    let ds := s.descsOf op.handles
    match tileFormBad op.cluster op ds with
    | some f => some f
    | none => s.tileRightsBad op ds

/-- Check 6: a source is STALE. -/
def State.staleSource (s : State) (op : TileOp) : Bool :=
  op.kind.reads && (s.descsOf op.handles).any fun (n, d) => n != 0 && dStale d

/-! ## What ends with a refresh -/

/-- The pending list by priority, then by arrival (R244). -/
def insertPending (q : MxReq) : List MxReq → List MxReq
  | [] => [q]
  | x :: xs => if x.priority < q.priority then q :: x :: xs else x :: insertPending q xs

/-- A request of the matrix engine names a tile as its B. -/
def MxReq.namesB (q : MxReq) (h : Nat) : Bool := operandOf q.handles 2 == some h

/-- A job stores from a tile. -/
def JobKind.storesFrom (k : JobKind) (h : Nat) : Bool := match k with | .tstore g _ _ => g == h | _ => false

/-- The pending list of a cluster is served from now on, by priority, then by arrival (R244). -/
def State.servePending (s : State) (cl : Nat) : State :=
  let k := s.cluster cl
  s.setCluster cl { k with serving := k.pendingMx.foldl (fun o q => insertPending q o) [] }

/-- A source of an operation is a tile. -/
def TileOp.sources (op : TileOp) (h : Nat) : Bool := op.handles.any fun (n, g) => n != 0 && g == h

/-- The operations in the tile unit's queue that read a STALE tile which is being freed are set aside, to end with it (R104,
R222). -/
def ClusterState.asideFreed (k : ClusterState) (h : Nat) : ClusterState :=
  let mine := fun (op : TileOp) => op.kind.reads && op.sources h
  { k with tileQ := k.tileQ.filter fun op => !mine op, tileAside := k.tileAside ++ k.tileQ.filter mine }

/-- Everything that waits for the refresh of a tile ends (R104, R112, R244); the stacks that end are FREE, and the pending list
is served. An operation that is still queued does not wait yet (assumption 118). -/
def State.endStale (s : State) (h : Nat) (absorbed : List Nat) (st : JobStatus) : State :=
  let cl := handleCluster h
  let k := s.cluster cl
  let mine := fun (op : TileOp) => op.sources h
  let ended := fun (x : Stack) => x.state == .ready && x.key.handle == h
  let members := (k.mxStacks.filter fun (_, x) => ended x).flatMap fun (_, x) => x.members.map (·.1)
  let parked := k.pendingMx.filter fun q => q.namesB h
  let stores := k.jobs.filter fun (_, x) => x.kind.storesFrom h && !x.isDone
  let s := s.setCluster cl { k with tileAside := k.tileAside.filter fun op => !mine op,
                                    mxStacks := k.mxStacks.filter fun (_, x) => !ended x,
                                    pendingMx := k.pendingMx.filter fun q => !q.namesB h
                                    serving := k.serving.filter fun q => !q.namesB h }
  let s := if members.isEmpty then s else s.servePending cl
  let s := (k.tileAside.filter mine).foldl (fun s op =>
    let n := ((op.handles.find? fun (n, g) => n != 0 && g == h).map (·.1)).getD 1
    s.unitFault op.who op.waitKind cl ⟨.staleHandle, n, 0, h⟩) s
  let s := (members ++ parked).foldl (fun s q => s.unitFault q.who 1 cl ⟨.staleHandle, 2, 0, h⟩) s
  let s := stores.foldl (fun s (i, x) => s.endEarly cl i x st) s
  absorbed.foldl (fun s i => s.jobDone cl i st) s

/-! ## Freeing (R104, R232, R233) -/

/-- A request of the matrix engine names a tile. -/
def MxReq.names (q : MxReq) (h : Nat) : Bool := q.handles.any fun (_, g) => g == h

/-- The zeroing of a tile that is being freed. -/
def zeroingOf (cl i d : Nat) (waiter : Option Who) : Zeroing :=
  { index := i, addr := tspBase cl + dBase d, pitch := dPitch d, rows := dRows d, rowBytes := dRowBytes d, waiter := waiter }

/-- Step 1 of R104, the refresh of a STALE tile, which is abandoned, and the stacks that the freeing makes READY (R245). The refresh
of a tile that is not STALE goes on for the jobs that it has absorbed. -/
def State.beginFree (s : State) (h : Nat) (waiter : Option Who) : State :=
  let cl := handleCluster h
  let i := handleIndex h
  let d := s.desc cl i
  let s := s.putDesc cl i (dSetBit d 124 false)
  let k := s.cluster cl
  let absorbed := (k.refreshes.filter fun r => r.index == i).flatMap fun r => r.jobs
  let s := s.setCluster cl { k with zeroing := k.zeroing ++ [zeroingOf cl i d waiter],
                                    refreshes := k.refreshes.filter fun r => !dStale d || r.index != i }
  let s := s.readyStacks cl fun x => x.key.handle == h || x.members.any fun (q, _) => q.names h
  if dStale d then (s.setCluster cl ((s.cluster cl).asideFreed h)).endStale h absorbed .protection else s

/-- The drop notices of a subscribed tile (R78). -/
def State.dropTileSubs (s : State) (cl i : Nat) : State :=
  let mine := s.tileSubs.filter fun t => t.cluster == cl && t.index == i
  let s := { s with tileSubs := s.tileSubs.filter fun t => !(t.cluster == cl && t.index == i) }
  mine.foldl (fun s t => (s.trimFormats t.pa t.va (dieOfCluster cl)).tidyDir t.pa) s

/-- A job names a tile. -/
def JobKind.names (k : JobKind) (h : Nat) : Bool :=
  match k with
  | .tload g _ _ => g == h
  | .tloadSub g => g == h
  | .tstore g _ _ => g == h
  | .copy _ _ _ | .copy2 _ _ _ _ _ _ | .gather _ _ _ _ _ | .migrate _ _ => false

/-- Work of a cluster that still names a tile (R104 step 2), a refresh that goes on among it (assumption 123). -/
def ClusterState.uses (k : ClusterState) (h : Nat) : Bool :=
  (k.tileQ ++ k.tileAside).any (fun op => op.handles.any fun (_, g) => g == h) ||
    (k.pendingMx ++ k.engineQ).any (fun q => q.names h) ||
    k.mxStacks.any (fun (_, x) => x.members.any fun (q, _) => q.names h) ||
    k.refreshes.any (fun r => r.index == handleIndex h) || k.jobs.any fun (_, x) => x.kind.names h && !x.isDone

/-- TILE_ZEROING_COMPLETE (R104 steps 2 to 5, R95), once the banks grant the copy unit's port (R99). -/
def execTileZeroingComplete (cluster n : Nat) (s : State) : Result :=
  let k := s.cluster cluster
  match k.zeroing[n]? with
  | none => .next s
  | some z =>
    let h := s.handleOf cluster z.index
    if k.uses h then .next s
    else .next (s.withBanks cluster copyPort ((List.range z.rows).map fun r => (z.addr + r * z.pitch - tspBase cluster, z.rowBytes))
      fun s =>
      let k := s.cluster cluster
      let s := s.setCluster cluster { k with zeroing := listErase k.zeroing n }
      let s := if dSub (s.desc cluster z.index) then s.dropTileSubs cluster z.index else s
      let s := (List.range z.rows).foldl (fun s r => s.zeroRun (z.addr + r * z.pitch) z.rowBytes) s
      match z.waiter with | some w => s.reply w 2 (.done [] none 0) | none => s)

/-- TDESC_DISCARD_NOTICE (R232). -/
def execTdescDiscardNotice (n : Nat) (s : State) : Result :=
  match s.discards[n]? with
  | none => .next s
  | some h =>
    let s := { s with discards := listErase s.discards n }
    .next (if s.liveHandle h then s.beginFree h none else s)

/-! ## Arrival (R57, R222) -/

/-- TILE_OP_ARRIVAL (R102, R222): the router, then checks 1 to 5; an operation with a STALE source is set aside, `tfree`
acts at once, and every other operation joins the queue of the tile unit. -/
def execTileOpArrival (n : Nat) (s : State) : Result :=
  match s.tileArrivals[n]? with
  | none => .next s
  | some op =>
    let s := { s with tileArrivals := listErase s.tileArrivals n }
    let k := s.cluster op.cluster
    let h := (op.handles.head?).getD (15, 0)
    let queue := fun (s : State) => s.setCluster op.cluster { k with tileQ := k.tileQ ++ [op] }
    match s.routerRefuses op.who op.cluster with
    | some (.homeOffline, _) => .next (s.unitOffline op.who op.waitKind)
    | some _ =>
      let s := s.refused (dieOfCluster op.cluster) op.who 2 (tspBase op.cluster)
      .next (s.unitFault op.who op.waitKind op.cluster
        (if op.handles.isEmpty then ⟨.protection, 15, 0, tspBase op.cluster⟩ else ⟨.staleHandle, h.1, 0, h.2⟩))
    | none =>
      match op.kind with
      | .desc _ _ => .next (queue s)
      | .add | .sub | .mul | .fma | .max | .min | .scale _ | .cvt | .redMax _ _ | .redSum _ | .trans | .fill _ _ | .get _
      | .set _ _ | .info _ | .free =>
        match s.tileBad op with
        | some f => .next (s.unitFault op.who op.waitKind op.cluster f)
        | none =>
          if op.kind = .free then .next (s.beginFree h.2 (some op.who))
          else if s.staleSource op then .next (s.setCluster op.cluster { k with tileAside := k.tileAside ++ [op] })
          else .next (queue s)

/-! ## Execution (R223 to R230, R234) -/

/-- The value of an element of an element-wise operation (R226); none is an invalid operation. -/
def TileKind.value (k : TileKind) (rdn : Bool) (xs : List XVal) : Option XVal :=
  match k, xs with
  | .add, [x, y] => XVal.add rdn x y
  | .sub, [x, y] => XVal.add rdn x y.neg
  | .mul, [x, y] => XVal.mul x y
  | .fma, [x, y, z] => (XVal.mul x y).bind fun p => XVal.add rdn p z
  | .max, [x, y] => some (chooseVal false x y)
  | .min, [x, y] => some (chooseVal true x y)
  | .scale v, [x] => XVal.mul x (decodeFmt .f32 v.toNat)
  | .cvt, [x] => some x
  | _, _ => some .nan

/-- Access to one element by raw code (R230); a read of an ACC element that is never produced is one of poisoned data (R178, R222). -/
def tileElement (m : List Host.Cell) (poison : List Nat) (t : TileView) (operand i : Nat) (v : Option Nat) : TileOut :=
  let r := i / t.cols
  let a := t.elemAddr r (i % t.cols)
  match v with
  | some x => ⟨tilePut m t r (i % t.cols) (x % 2 ^ (8 * t.fmt.size)), none, .none, none⟩
  | none =>
    if poison.contains (a / 64 * 64) || (t.fmt == .acc && accBad (tileCode m t r (i % t.cols))) then ⟨m, none, .none, some (operand, a, r)⟩
    else ⟨m, some (BitVec.ofNat 64 (tileCode m t r (i % t.cols))), .none, none⟩

/-- The runs of a cluster's TSP that an operation reads and writes: an element, or the rows of its tiles. -/
def TileOp.runs (op : TileOp) (ds : List (Nat × Nat)) : List (Nat × Nat) :=
  let element := fun (n i : Nat) =>
    let t := dView op.cluster ((operandOf ds n).getD 0)
    [(t.elemAddr (i / t.cols) (i % t.cols) - tspBase op.cluster, t.fmt.size)]
  match op.kind with
  | .get i => element 1 i.toNat
  | .set i _ => element 0 i.toNat
  | .add | .sub | .mul | .fma | .max | .min | .scale _ | .cvt | .redMax _ _ | .redSum _ | .trans | .fill _ _ =>
    ds.flatMap fun (_, d) => (tileSpans op.cluster d).map fun (a, n) => (a - tspBase op.cluster, n)
  | .info _ | .free | .desc _ _ => []

/-- What an operation computes from its tiles; a `tinfo` of a poisoned descriptor reads poisoned data (R222). -/
def TileOp.run (op : TileOp) (m : List Host.Cell) (poison : List Nat) (ds : List (Nat × Nat)) : TileOut :=
  let view := fun (n : Nat) => dView op.cluster ((operandOf ds n).getD 0)
  let srcs := (ds.filter fun (n, _) => n != 0).map fun (n, d) => (n, dView op.cluster d)
  let rdn := op.rm == .rdn
  match op.kind with
  | .add | .sub | .mul | .fma | .max | .min | .scale _ | .cvt =>
    tileMap m poison (view 0) srcs (op.kind.value rdn) op.rm op.sat op.key.toNat
  | .redMax true mag => tileReduceRows m poison (view 0) (view 1) (maxSet mag) op.rm
  | .redMax false mag => tileReduceAll m poison (view 1) (maxSet mag) op.rm
  | .redSum true => tileReduceRows m poison (view 0) (view 1) (sumSet rdn) op.rm
  | .redSum false => tileReduceAll m poison (view 1) (sumSet rdn) op.rm
  | .trans => tileTranspose m poison (view 0) (view 1) op.rm op.sat
  | .fill int v => tileFill m (view 0) (if int then XVal.ofInt (sv 64 v) else decodeFmt .f32 (v.toNat % 2 ^ 32)) op.rm op.sat
  | .get i => tileElement m poison (view 1) 1 i.toNat none
  | .set i v => tileElement m poison (view 0) 0 i.toNat (some v.toNat)
  | .info n =>
    let a := tspBase op.cluster + descTable + 32 * handleIndex ((operandOf op.handles 1).getD 0) + 8 * n
    if poison.contains (a / 64 * 64) then ⟨m, none, .none, some (1, a, 0)⟩
    else ⟨m, some (BitVec.ofNat 64 ((operandOf ds 1).getD 0 / 2 ^ (64 * n))), .none, none⟩
  | .free | .desc _ _ => ⟨m, none, .none, none⟩

/-- The rows that an operation has written into its destination invalidate a latch of them (R238). -/
def State.touchDest (s : State) (op : TileOp) (out : TileOut) : State :=
  match operandOf (s.descsOf op.handles) 0, out.bad with
  | none, _ => s
  | some d, none => s.touchTile op.cluster d
  | some d, some (_, _, row) => ((tileSpans op.cluster d).take row).foldl (fun s (a, n) => s.spoil a n) s

/-- The reply of an operation (R222, R224). -/
def State.tileReply (s : State) (op : TileOp) (out : TileOut) : State :=
  match out.bad with
  | some (operand, a, row) => s.unitFault op.who 1 op.cluster ⟨.poisonedData, operand, row, a⟩
  | none =>
    let ws := match op.dest, out.reg with
      | some d, some v => [(d, v)]
      | _, _ => []
    s.reply op.who 1 (.done ws none (BitVec.ofNat 32 out.flags.mask))

/-! ## Allocation (R231, R103) -/

/-- A template that keeps the rules of R101 and R231. -/
def templateOk (t : Nat) : Bool :=
  let f := Fmt.ofCode? (dFormat t)
  let size := (f.map Fmt.size).getD 1
  f.isSome && bits t 95 87 == 0 && !bit t 79 && bits t 71 19 == 0 && dBase t % 64 == 0 &&
    decide (1 ≤ dRows t) && decide (dRows t ≤ 64) && decide (1 ≤ dCols t) && decide (dCols t ≤ 64) &&
    dPitch t % size == 0 && decide (dCols t * size ≤ dPitch t) &&
    decide (dBase t + (dRows t - 1) * dPitch t + dCols t * size ≤ descTable) &&
    !dValid t && dGen t == 0 && dDomain t == 0 && dVersion t == 0 && bits t 199 184 == 0 && !dStale t && !dRenorm t &&
    !dRefresh t && dAcc t == (dFormat t == 0x0E) &&
    (if dSub t then
      !dAcc t && dSrc t != 0 && dSrc t % 4 == 0 && decide (dSrc t ≤ 0x00FBFFFFFFFFFFFF) && (match f with | some f => subscribable 1 f | none => false)
     else !dUpd t && dSrc t == 0)

/-- Rows of a template that overlap a valid tile of another domain, or on which W rights are missing; then the source of a
subscribed tile (R231 step 4). -/
def State.templateBad (s : State) (w : Who) (cl t : Nat) : Option UnitFault :=
  let others := ((List.range 1024).map fun i => s.desc cl i).filter fun d => dValid d && dDomain d != w.domain.toNat
  match (List.range (dRows t)).find? fun r => others.any fun e => rowMeets t e r with
  | some r => some ⟨.protection, 15, r, dRowAddr cl t r⟩
  | none =>
    match s.deniedRow w cl t rightsW with
    | some (r, a) => some ⟨.protection, 15, r, a⟩
    | none =>
      if dSub t then (s.deniedAt w (dSrc t) (s.sourceBytes cl t) rightsRS).map fun a => ⟨.protection, 15, 0, a⟩ else none

/-- The free index that follows the one allocated last, round-robin (R103). -/
def State.freeTile (s : State) (cl : Nat) : Option Nat :=
  let k := s.cluster cl
  ((List.range 1024).map fun j => (k.tileLast + 1 + j) % 1024).find? fun i =>
    !dValid (s.desc cl i) && !k.zeroing.any fun z => z.index == i

/-- The descriptor that a template becomes at an index (R231 step 5). -/
def newDesc (t gen domain : Nat) : Nat :=
  let d := setBits (setBits (setBits t 124 124 1) 135 125 gen) 151 136 domain
  if dSub t then dSetStale d true else d

/-- `tdesc` at its home (R231 steps 3 to 5). -/
def State.allocateTile (s : State) (op : TileOp) (t : Nat) (pf : PReg) : State :=
  let cl := op.cluster
  if !templateOk t then s.unitFault op.who 1 cl ⟨.bounds, 15, 0, 0⟩
  else match s.templateBad op.who cl t with
    | some f => s.unitFault op.who 1 cl f
    | none =>
      match s.freeTile cl with
      | none => s.reply op.who 1 (.done [] (some (pf, true)) 0)
      | some i =>
        let gen := (dGen (s.desc cl i) + 1) % 2 ^ 11
        let d := newDesc t gen op.who.domain.toNat
        let s := s.putDesc cl i d
        let k := s.cluster cl
        let s := s.setCluster cl { k with
          tileLast := i
          refreshes := if dSub d then wantRefresh k.refreshes i (tileAgent cl d) else k.refreshes }
        let h := mkHandle cl gen i
        let ws := match op.dest with | some r => [(r, BitVec.ofNat 64 h)] | none => []
        s.send { ctx := op.who.ctx, gen := op.who.gen, kind := 1, who := op.who, body := .done ws (some (pf, false)) 0,
                 handle := some h }

/-- TILE_OP_EXECUTE (R223): the operation at the head of the tile unit's queue, once the banks grant the unit's port (R99). -/
def execTileOpExecute (cluster : Nat) (s : State) : Result :=
  let k := s.cluster cluster
  match k.tileQ with
  | [] => .next s
  | op :: rest =>
    let t := s.setCluster cluster { k with tileQ := rest }
    match op.kind with
    | .desc v pf => .next (t.allocateTile op v.toNat pf)
    | .add | .sub | .mul | .fma | .max | .min | .scale _ | .cvt | .redMax _ _ | .redSum _ | .trans | .fill _ _ | .get _
    | .set _ _ | .info _ | .free =>
      if s.staleSource op then .next (s.setCluster cluster { k with tileQ := rest, tileAside := k.tileAside ++ [op] })
      else
        .next (s.withBanks cluster tilePort (op.runs (s.descsOf op.handles)) fun s =>
          let out := op.run s.mem s.poison (s.descsOf op.handles)
          let k := s.cluster cluster
          (({ s.setCluster cluster { k with tileQ := rest } with mem := out.mem }.touchDest op out).tileReply op out))

end Sys2Proof.Machine
end

