-- ==== Sys2Proof/Machine/Geyser.lean ====
section
/-!
DEFINITION. Machine/Geyser.lean: Geyser and the matrix engine of a cluster: admission (R243, R244), holding and firing (R245,
R246), selection and the stationary latch (R238, R239, R247), the execution of a stack (R236, R248, R249) and the requests
that run between stacks (R254 to R256).
-/
namespace Sys2Proof.Machine

/-! ## Requests -/

def MxReq.handle (q : MxReq) (n : Nat) : Nat := (operandOf q.handles n).getD 0
def State.mxDesc (s : State) (q : MxReq) (n : Nat) : Nat :=
  s.desc (handleCluster (q.handle n)) (handleIndex (q.handle n))

/-- A format of R235. -/
def mxFormat (d : Nat) : Bool :=
  match Fmt.ofCode? (dFormat d) with
  | some .bf16 | some .e4m3 | some .e5m2 | some (.b8 _ _ _) => true
  | _ => false

/-- K and N of B (R235). -/
def mxK (trans : Bool) (b : Nat) : Nat := if trans then dCols b else dRows b
def mxN (trans : Bool) (b : Nat) : Nat := if trans then dRows b else dCols b

/-- Check 3 of R243: the formats first, then what no single handle fails (assumption 132). -/
def State.mxFormBad (s : State) (q : MxReq) (trans tailBad : Bool) : Option UnitFault :=
  let c := s.mxDesc q 0
  let a := s.mxDesc q 1
  let b := s.mxDesc q 2
  if dFormat c != 0x0E then some ⟨.bounds, 0, 0, q.handle 0⟩
  else if !mxFormat a then some ⟨.bounds, 1, 0, q.handle 1⟩
  else if !mxFormat b then some ⟨.bounds, 2, 0, q.handle 2⟩
  else if dCols a != mxK trans b || dRows c != dRows a || dCols c != mxN trans b || tailBad || tilesMeet c a || tilesMeet c b then
    some ⟨.bounds, 15, 0, 0⟩
  else none

/-- Check 4 of R243. -/
def State.mxRightsBad (s : State) (q : MxReq) : Option UnitFault :=
  let b := s.mxDesc q 2
  if dSub b then (s.deniedAt q.who (dSrc b) (s.sourceBytes q.cluster b) rightsR).map fun a => ⟨.protection, 2, 0, a⟩
  else (s.deniedRow q.who q.cluster b rightsR).map fun (r, a) => ⟨.protection, 2, r, a⟩

/-! ## Admission (R244) -/

/-- The key of a request (R240). -/
def State.mxKey (s : State) (q : MxReq) (trans neg : Bool) : StackKey :=
  let b := s.mxDesc q 2
  { handle := q.handle 2, version := dVersion b, bFmt := dFormat b, aFmt := dFormat (s.mxDesc q 1), trans := trans, neg := neg }

def MxReq.mode (q : MxReq) : Bool × Bool :=
  match q.kind with
  | .mxm _ tr neg _ _ _ => (tr, neg)
  | .flush _ | .norm _ | .exp _ => (false, false)

def Stack.rows (x : Stack) : Nat := x.members.foldl (fun n (_, m) => n + m) 0
def Stack.priority (x : Stack) : Nat := x.members.foldl (fun n (q, _) => max n q.priority) 0

/-- The hold limit of a class (R246). -/
def ClusterState.holdLimit (k : ClusterState) (cls : Nat) : Nat :=
  match cls with
  | 0 => k.holdLimit0.toNat | 1 => k.holdLimit1.toNat | 2 => k.holdLimit2.toNat | _ => k.holdLimit3.toNat

/-- A stack after a request has joined it: READY when it is full, when a member is urgent, or when its deadline has come
(R245). -/
def ClusterState.joined (k : ClusterState) (cycle : Nat) (x : Stack) (q : MxReq) (m : Nat) : Stack :=
  let deadline := min x.deadline (cycle + k.holdLimit q.holdClass)
  let y : Stack := { x with members := x.members ++ [(q, m)], deadline := deadline }
  if 64 ≤ y.rows ∨ k.noHoldPriority.toNat ≤ q.priority ∨ deadline ≤ cycle then { y with state := .ready } else y

/-- The OPEN stack with the greatest age. -/
def oldestOpen (t : Table Stack) : Option (Nat × Stack) :=
  leastBy (fun a b => decide (a.2.admitted < b.2.admitted)) (t.filter fun (_, x) => x.state == .opened)

def readyStack (t : Table Stack) (n : Nat) : Table Stack := Table.modify t n fun x => { x with state := .ready }

/-- Admit a request whose B is not STALE: the cluster, and whether it was admitted. -/
def ClusterState.place (k : ClusterState) (cycle : Nat) (key : StackKey) (q : MxReq) (m : Nat) : ClusterState × Bool :=
  let fresh : Stack := { state := .opened, key := key, members := [], deadline := cycle + k.holdLimit q.holdClass,
                         admitted := cycle, latched := false }
  let open_ := k.mxStacks.find? fun (_, x) => x.state == .opened && x.key == key
  let add := fun (t : Table Stack) => match freeIndex t 16 0 with
    | some i => ({ k with mxStacks := Table.set t i (k.joined cycle fresh q m) }, true)
    | none => match oldestOpen t with
      | some (i, _) => ({ k with mxStacks := readyStack t i }, false)
      | none => ({ k with mxStacks := t }, false)
  match open_ with
  | some (i, x) =>
    if x.rows + m ≤ 64 then ({ k with mxStacks := Table.set k.mxStacks i (k.joined cycle x q m) }, true)
    else add (readyStack k.mxStacks i)
  | none => add k.mxStacks

/-- Admit a request, or say that it has to be held. -/
def State.mxAdmit (s : State) (q : MxReq) : State × Bool :=
  if dStale (s.mxDesc q 2) then (s, false)
  else
    let (k, ok) := (s.cluster q.cluster).place s.cycle (s.mxKey q q.mode.1 q.mode.2) q (dRows (s.mxDesc q 1))
    (s.setCluster q.cluster (if ok then { k with admittedAt := some s.cycle } else k), ok)

/-- The pass over the pending list of a cluster: the requests that cannot be admitted stay pending, and the first that can be is,
in a cycle of its own (R244). -/
def State.serveNext (s : State) (cl : Nat) : List MxReq → State
  | [] =>
    let k := s.cluster cl
    s.setCluster cl { k with serving := [] }
  | q :: rest =>
    let (s, ok) := s.mxAdmit q
    if ok then
      let k := s.cluster cl
      s.setCluster cl { k with pendingMx := k.pendingMx.erase q, serving := rest }
    else State.serveNext s cl rest

/-- The cluster cannot admit an arriving request now: it has admitted one in this cycle, or its pending list is being served. -/
def ClusterState.admissionBusy (k : ClusterState) (cycle : Nat) : Bool := k.admittedAt == some cycle || !k.serving.isEmpty

/-- The request asks for a stack. -/
def MxReq.isMxm (q : MxReq) : Bool :=
  match q.kind with
  | .mxm _ _ _ _ _ _ => true
  | .flush _ | .norm _ | .exp _ => false

def pendingPlaces : Nat := 256

/-- Hold a request, or answer it with RETRY when the list is full: the reply wakes the context, whose core does not issue it for
a time (R244). -/
def State.holdRequest (s : State) (q : MxReq) : State :=
  let k := s.cluster q.cluster
  if k.pendingMx.length < pendingPlaces then s.setCluster q.cluster { k with pendingMx := k.pendingMx ++ [q] }
  else { s.reply q.who 1 .wake with mxRetries := s.mxRetries ++ [(q.who, s.cycle)] }

/-- The request of a cluster that is taken next: the earliest to arrive, then the higher PRIORITY, then the lower core. -/
def nextArrival (qs : List MxReq) (cl : Nat) : Option MxReq :=
  leastBy (fun a b => decide (a.arrived < b.arrived) || (a.arrived == b.arrived &&
    (decide (b.priority < a.priority) || (a.priority == b.priority && decide (a.who.core < b.who.core)))))
    (qs.filter fun q => q.cluster == cl)

/-- `mxnorm` and `mxexp` at the home: checks 1 and 5 of R222 on an ACC tile (R255, R256); where the target of `mxnorm` is checked is
the model's choice (assumption 133). -/
def State.normBad (s : State) (q : MxReq) (n : Rights) (tailBad : Bool) : Option UnitFault :=
  let d := s.mxDesc q 1
  if !dAcc d then some ⟨.bounds, 1, 0, q.handle 1⟩
  else if tailBad then some ⟨.bounds, 15, 0, 0⟩
  else (s.deniedRow q.who q.cluster d n).map fun (r, a) => ⟨.protection, 1, r, a⟩

/-- A target exponent outside 16 bits (R255). -/
def targetBad (t : BitVec 64) : Bool := decide (sv 64 t < -32768) || decide (32767 < sv 64 t)

/-- A request after the router and check 1. -/
def State.takeRequest (s : State) (q : MxReq) : State :=
  let k := s.cluster q.cluster
  let fail := fun (f : UnitFault) => s.unitFault q.who 1 q.cluster f
  let queue := s.setCluster q.cluster { k with engineQ := k.engineQ ++ [q] }
  match q.kind with
  | .flush all =>
    (s.readyStacks q.cluster fun x => all || x.key.handle == q.handle 1).reply q.who 1 (.done [] none 0)
  | .norm t => match s.normBad q rightsRW (targetBad t) with
    | some f => fail f
    | none => queue
  | .exp clr => match s.normBad q (if clr then rightsRW else rightsR) false with
    | some f => fail f
    | none => queue
  | .mxm _ tr _ _ _ tailBad =>
    match s.mxFormBad q tr tailBad with
    | some f => fail f
    | none => match s.mxRightsBad q with
      | some f => fail f
      | none =>
        let (s, ok) := s.mxAdmit q
        if ok then s else s.holdRequest q

/-- The next request of the pass over the pending list of a cluster is tried (R244). -/
def State.servePass (s : State) (cl : Nat) : State :=
  let k := s.cluster cl
  if k.serving.isEmpty || k.admittedAt == some s.cycle then s else s.serveNext cl k.serving

/-- The admissions from this number up name the clusters whose pending lists are served; those below it name arrivals. -/
def pendingNumber : Nat := 2 ^ 20

/-- GEYSER_ADMISSION (R57, R243, R244): of arrival n, or of the pending list of cluster n − 2^20. -/
def execGeyserAdmission (n : Nat) (s : State) : Result :=
  match s.mxArrivals[n]? with
  | none => .next (if pendingNumber ≤ n then s.servePass (n - pendingNumber) else s)
  | some q =>
    if nextArrival s.mxArrivals q.cluster ≠ some q then .next s
    else if q.isMxm && (s.cluster q.cluster).admissionBusy s.cycle then .next s
    else
      let s := { s with mxArrivals := listErase s.mxArrivals n }
      let h := (q.handles.head?).getD (15, 0)
      match s.routerRefuses q.who q.cluster with
      | some (.homeOffline, _) => .next (s.unitOffline q.who 1)
      | some _ =>
        .next ((s.refused (dieOfCluster q.cluster) q.who 2 (tspBase q.cluster)).unitFault q.who 1 q.cluster
          ⟨.staleHandle, h.1, 0, h.2⟩)
      | none => match s.badHandle q.who q.handles with
        | some f => .next (s.unitFault q.who 1 q.cluster f)
        | none => .next (s.takeRequest q)

/-- GEYSER_HOLD_EXPIRE (R245). -/
def execGeyserHoldExpire (cluster stack : Nat) (s : State) : Result :=
  let k := s.cluster cluster
  match Table.get? k.mxStacks stack with
  | some x =>
    if x.state = .opened ∧ x.deadline ≤ s.cycle then .next (s.setCluster cluster { k with mxStacks := readyStack k.mxStacks stack })
    else .next s
  | none => .next s

/-- The least cycles between the arrival of a RETRY and the reissue. -/
def mxRetryCycles : Nat := 256

/-- GEYSER_RETRY_REISSUE (R244): once the reply has arrived and its time is over, the core issues the context again. -/
def execGeyserRetryReissue (n : Nat) (s : State) : Result :=
  match s.mxRetries[n]? with
  | some (w, since) =>
    if s.cycle < since + mxRetryCycles || s.msgs.any (fun m => m.who == w && m.kind == 1) then .next s
    else .next { s with mxRetries := listErase s.mxRetries n }
  | none => .next s

/-! ## Selection and the latch (R238, R239, R247) -/

/-- The codes of B in the order k, j. -/
def latchCodes (m : List Host.Cell) (t : TileView) (trans : Bool) : List (List Nat) :=
  if trans then (List.range t.cols).map fun k => (List.range t.rows).map fun j => tileCode m t j k
  else (List.range t.rows).map fun k => (List.range t.cols).map fun j => tileCode m t k j

/-- An element of a tile that cannot be read: its address and row. -/
def unreadable (m : List Host.Cell) (poison : List Nat) (t : TileView) : Option (Nat × Nat) :=
  (firstBad m poison ((List.range t.rows).flatMap fun r => (List.range t.cols).map fun c => (0, t, r, c))).map
    fun (_, a) => (a, (a - t.addr) / t.pitch)

/-- The READY stack that a free engine selects: its B is not STALE; the highest effective priority, the greatest age, the
lowest number. -/
def State.selectStack (s : State) (cl : Nat) : Option (Nat × Stack) :=
  let stale := fun (h : Nat) => dStale (s.desc (handleCluster h) (handleIndex h))
  leastBy (fun a b => decide (b.2.priority < a.2.priority) || (a.2.priority == b.2.priority &&
      (decide (a.2.admitted < b.2.admitted) || (a.2.admitted == b.2.admitted && decide (a.1 < b.1)))))
    ((s.cluster cl).mxStacks.filter fun (_, x) => x.state == .ready && !stale x.key.handle)

/-- The latch has the key of a stack (R238). -/
def Latch.fits (l : Latch) (m : Latch) : Bool :=
  l.handle == m.handle && l.version == m.version && l.fmt == m.fmt && l.trans == m.trans

/-- The runs of a cluster's TSP that a tile's rows are. -/
def tileRuns (cl d : Nat) : List (Nat × Nat) := (tileSpans cl d).map fun (a, n) => (a - tspBase cl, n)

/-- ENGINE_SELECT (R247, R239): a latch whose key matches and that no write has invalidated is kept; otherwise B is read, once the
banks grant the engine's port (R99); a B that cannot be read leaves the latch empty. -/
def execEngineSelect (cluster : Nat) (s : State) : Result :=
  let k := s.cluster cluster
  if k.firing.isSome || !k.engineQ.isEmpty || (s.brick (dieOfCluster cluster)).withheld.contains .firings then .next s
  else match s.selectStack cluster with
    | none => .next s
    | some (n, x) =>
      let d := s.desc cluster (handleIndex x.key.handle)
      let t := dView cluster d
      let l : Latch := { handle := x.key.handle, version := dVersion d, fmt := dFormat d, trans := x.key.trans,
                         codes := latchCodes s.mem t x.key.trans, rows := tileSpans cluster d, spoiled := false }
      let kept := k.latch.filter fun m => m.fits l
      let ok := kept.isSome || (unreadable s.mem s.poison t).isNone
      .next (s.withBanks cluster enginePort (if kept.isSome then [] else tileRuns cluster d) fun s =>
        let k := s.cluster cluster
        s.setCluster cluster { k with latch := if ok then some (kept.getD l) else none,
                                      mxStacks := Table.set k.mxStacks n { x with state := .firing, latched := ok } })

/-! ## Execution (R248, R249) -/

/-- The first of A's and ACC's rows that a member's domain may not use. -/
def State.memberDenied (s : State) (q : MxReq) : Option UnitFault :=
  match s.deniedRow q.who q.cluster (s.mxDesc q 1) rightsR with
  | some (r, a) => some ⟨.protection, 1, r, a⟩
  | none => (s.deniedRow q.who q.cluster (s.mxDesc q 0) rightsRW).map fun (r, a) => ⟨.protection, 0, r, a⟩

/-- The first of A's and ACC's elements that cannot be read. -/
def State.memberPoison (s : State) (q : MxReq) : Option UnitFault :=
  match unreadable s.mem s.poison (dView q.cluster (s.mxDesc q 1)) with
  | some (a, r) => some ⟨.poisonedData, 1, r, a⟩
  | none => (unreadable s.mem s.poison (dView q.cluster (s.mxDesc q 0))).map fun (a, r) => ⟨.poisonedData, 0, r, a⟩

/-- The sums of a member (R236). -/
def State.memberSums (s : State) (q : MxReq) (l : Latch) (neg : Bool) (scale : Int) : List XVal :=
  let a := dView q.cluster (s.mxDesc q 1)
  let rows := (List.range a.rows).map fun r => (List.range a.cols).map fun c => tileVal s.mem a r c
  let fmt := (Fmt.ofCode? l.fmt).getD .bf16
  let b := l.codes.map fun row => row.map (decodeFmt fmt)
  mxSums rows b (dCols (s.mxDesc q 0)) scale neg

/-- A descriptor with a new EXP and RENORM. -/
def setAccState (d : Nat) (e : Int) (renorm : Bool) : Nat := dSetBit (dSetExp d e) 120 renorm

/-- The effect of a member on its accumulator (R236, R180, R181). -/
def State.applyMember (s : State) (q : MxReq) (l : Latch) : State :=
  match q.kind with
  | .mxm zero _ neg sa sb _ =>
    let c := s.mxDesc q 0
    let t := dView q.cluster c
    let (xs, e, moved) := mxApply zero (accElems s.mem t) (dExp c) (s.memberSums q l neg (sa + sb))
    let s := { s with mem := accPutElems s.mem t xs }.touchTile q.cluster c
    s.putDesc q.cluster (handleIndex (q.handle 0)) (setAccState c e (moved || (!zero && dRenorm c)))
  | .flush _ | .norm _ | .exp _ => s

/-- One member of a FIRING stack. -/
def State.fireMember (s : State) (q : MxReq) (l : Latch) : State :=
  match s.memberDenied q with
  | some f => s.unitFault q.who 1 q.cluster f
  | none => match s.memberPoison q with
    | some f => s.unitFault q.who 1 q.cluster f
    | none => (s.applyMember q l).reply q.who 1 (.done [] none 0)

/-- The runs of a cluster's TSP that the members of a stack read and write: A and the accumulator of each. -/
def State.stackRuns (s : State) (cl : Nat) (x : Stack) : List (Nat × Nat) :=
  if x.latched then x.members.flatMap fun (q, _) => tileRuns cl (s.mxDesc q 1) ++ tileRuns cl (s.mxDesc q 0) else []

/-- STACK_FIRE (R248): the members in admission order, once the banks grant the engine's port (R99); the stack is then FREE, a latch
that a write has met goes (R238), and the pending list is served. A B that could not be read gives every member a poisoned-data
fault. -/
def execStackFire (cluster : Nat) (s : State) : Result :=
  let k := s.cluster cluster
  match k.firing with
  | none => .next s
  | some (n, x) =>
    .next (s.withBanks cluster enginePort (s.stackRuns cluster x) fun s =>
      let k := s.cluster cluster
      let s := s.setCluster cluster { k with mxStacks := Table.erase k.mxStacks n, latch := k.latch.filter fun l => !l.spoiled }
      let bad := (unreadable s.mem s.poison (dView cluster (s.desc cluster (handleIndex x.key.handle)))).getD (0, 0)
      (x.members.foldl (fun s (q, _) =>
        match x.latched, k.latch with
        | true, some l => s.fireMember q l
        | _, _ => s.unitFault q.who 1 cluster ⟨.poisonedData, 2, bad.2, bad.1⟩) s).servePending cluster)

/-- `mxnorm` of a tile (R255): the new descriptor, memory, where special elements stay as they are, and the register value. -/
def State.normTile (s : State) (q : MxReq) (t : BitVec 64) : State × Word64 :=
  let d := s.mxDesc q 1
  let v := dView q.cluster d
  let (xs, e, moved) := accNorm (accElems s.mem v) (dExp d) (sv 64 t)
  let s := { s with mem := accPutFinite s.mem v xs }.touchTile q.cluster d
  (s.putDesc q.cluster (handleIndex (q.handle 1)) (setAccState d e (moved || dRenorm d)), BitVec.ofInt 64 e)

/-- The runs of a cluster's TSP that a request which runs between stacks reads and writes. -/
def State.normRuns (s : State) (q : MxReq) : List (Nat × Nat) :=
  match q.kind with
  | .norm _ => tileRuns q.cluster (s.mxDesc q 1)
  | .exp _ | .mxm _ _ _ _ _ _ | .flush _ => []

/-- ENGINE_NORM_OP (R247, R255, R256): a request that runs between stacks, once the banks grant the engine's port (R99). -/
def execEngineNormOp (cluster : Nat) (s : State) : Result :=
  let k := s.cluster cluster
  match k.firing, k.engineQ with
  | none, q :: rest => .next (s.withBanks cluster enginePort (s.normRuns q) fun s =>
    let k := s.cluster cluster
    let s := s.setCluster cluster { k with engineQ := rest }
    let d := s.mxDesc q 1
    let dest := fun (v : Word64) => match q.dest with | some r => [(r, v)] | none => []
    match q.kind with
    | .norm t => match unreadable s.mem s.poison (dView cluster d) with
      | some (a, r) => s.unitFault q.who 1 cluster ⟨.poisonedData, 1, r, a⟩
      | none =>
        let (s, v) := s.normTile q t
        s.reply q.who 1 (.done (dest v) none 0)
    | .exp clr =>
      let v := BitVec.ofNat 64 (bits d 199 184 + boolBit (dRenorm d) * 2 ^ 16)
      let s := if clr then s.putDesc cluster (handleIndex (q.handle 1)) (dSetBit d 120 false) else s
      s.reply q.who 1 (.done (dest v) none 0)
    | .mxm _ _ _ _ _ _ | .flush _ => s)
  | _, _ => .next s

end Sys2Proof.Machine
end

