-- ==== Sys2Proof/Machine/CopyUnit.lean ====
section
/-!
DEFINITION. Machine/CopyUnit.lean: the steps of a copy unit: submissions (R108), job starts and destination lines (R109 to
R111, R279 to R281), overlay loads (R94, R139, R141), and refreshes of subscribed tiles (R77, R78, R112).
-/
namespace Sys2Proof.Machine

/-! ## One access of a copy unit -/

/-- Who accesses: the work of the copy unit, the context that caused it, the cluster of the unit, and whether a lease has
held the write (R83, R84), which then has its turn. -/
structure CopyAt where
  unit : CopyAgent
  who : Who
  cluster : Nat
  held : Bool
  deriving DecidableEq, Repr

def CopyAt.die (c : CopyAt) : Nat := dieOfCluster c.cluster

/-- How far a step of a copy unit has come: it may go on; it ends with a status; it meets a page fault; it waits for
something that is on its way. -/
inductive CopyStep
  | done (s : State)
  | stop (s : State) (st : JobStatus)
  | page (s : State) (cause access va : Nat)
  | wait (s : State)
  deriving DecidableEq, Repr

def CopyStep.andThen (x : CopyStep) (f : State → CopyStep) : CopyStep :=
  match x with
  | .done s => f s
  | .stop s st => .stop s st
  | .page s c a v => .page s c a v
  | .wait s => .wait s

/-- A unit refuses an access of the copy unit: the entry in its error log, and PROTECTION (R57, R93, R114, R41). -/
def State.copyRefused (s : State) (c : CopyAt) (die detail va : Nat) : CopyStep :=
  .stop (s.refused die c.who detail va) .protection

/-- A CLM or TSP of a cluster takes messages of the copy unit (R57, R368). -/
def State.copyWindow (s : State) (c : CopyAt) (cl va : Nat) : CopyStep :=
  if dieOfCluster cl ≠ c.die ∧ s.dieLive (dieOfCluster cl) = false then .stop s .homeOffline
  else if s.inPartition c.who.part.toNat cl then .done s
  else s.copyRefused c (dieOfCluster cl) 2 va

/-- An access outside the device on behalf of the copy unit, with the mask of its bytes (R359, R361). -/
def State.copyOutMasked (s : State) (c : CopyAt) (va pa size : Nat) (op : AccessOp) (posted : Bool) (port : Option Nat)
    (mask : Nat) : State :=
  let q : OutReq := { who := c.who, va := va, pa := pa, size := size, op := op, reply := .nothing, master := 0,
                      posted := posted, acq := false, unit := some c.unit, mask := mask, sentAt := s.cycle }
  let s := { s with outbox := s.outbox ++ [match port with | some p => .talak p q | none => .pcie q] }
  if posted && port.isNone then s else { s with outReqs := s.outReqs ++ [q] }

def State.copyOut (s : State) (c : CopyAt) (va pa size : Nat) (op : AccessOp) (posted : Bool) (port : Option Nat) : State :=
  s.copyOutMasked c va pa size op posted port (2 ^ size - 1)

/-- What an access has brought to a copy unit. -/
def State.inflowAt (s : State) (c : CopyAt) (va len : Nat) : Option Inflow :=
  s.inflow.find? fun f => f.unit == c.unit && f.va == va && (f.bytes.length == len || f.bad.isSome)

/-- A read or an atomic outside the device: ask once, then wait for the bytes. -/
def State.copyAskOut (s : State) (c : CopyAt) (va len pa : Nat) (op : AccessOp) (port : Option Nat) : CopyStep :=
  match s.inflowAt c va len with
  | some f => match f.bad with
    | some st => .stop s st
    | none => .done s
  | none =>
    if s.outReqs.any fun q => q.unit == some c.unit && q.va == va && !q.posted then .wait s
    else .wait (s.copyOut c va pa len op false port)

/-- Read bytes from outside the device. -/
def State.copyReadOut (s : State) (c : CopyAt) (va len pa : Nat) (port : Option Nat) : CopyStep := s.copyAskOut c va len pa .load port

/-- What an access of the copy unit waits for at a home: the requests that stand there, and before a read a held write of its line
(R66, R84, R87); a write that a lease has held has its turn. -/
def State.homeWaits (s : State) (c : CopyAt) (pa : Nat) (read : Bool) : Option State :=
  if c.held then none
  else if read && s.heldLine pa then some s
  else s.unitWaits (some c.unit) pa

/-- A step of an agent's access at the home of a sector: the access keeps its place in the order while it waits, and leaves it when
it is over (R66). -/
def CopyStep.atHome (x : CopyStep) (agent : Option CopyAgent) (pa : Nat) : CopyStep :=
  match x with
  | .wait s => .wait (s.keepPlace agent pa)
  | .done s => .done (s.leaveHome agent pa)
  | .stop s st => .stop (s.leaveHome agent pa) st
  | .page s cause access va => .page (s.leaveHome agent pa) cause access va

/-- An access of the copy unit to a sector of device memory or of the host-coherent range goes to its home (R33, R34, R54, R66). -/
def State.copyAtHome (s : State) (c : CopyAt) (pa : Nat) (read : Bool) (go : State → CopyStep) : CopyStep :=
  if s.onDevice pa && !s.dieLive (s.homeDie pa) then .stop s .homeOffline
  else if !s.lineOpen c.die pa then .wait s
  else (if s.frozenAt pa then CopyStep.wait s
    else match s.homeWaits c pa read with
    | some s => .wait s
    | none => go s).atHome (some c.unit) pa

/-- Read a run of bytes inside one sector of a page. -/
def State.copyReadPage (s : State) (c : CopyAt) (va len pa : Nat) : CopyStep :=
  match s.rangeOf pa with
  | .hostUncached => s.copyReadOut c va len pa none
  | .peer =>
    if s.circuitTo c.die (peerPort pa) then s.copyReadOut c va len pa (some (peerPort pa))
    else if s.circuitTuning c.die (peerPort pa) then .wait s
    else .stop s .noCircuit
  | .hashed | .die _ | .hostCoherent | .hole =>
    s.copyAtHome c pa true fun s =>
      if s.inPool va then
        (match s.recallCtx (va / 128 * 128) with
         | (s, false) => .wait s
         | (s, true) =>
           if s.isPoisoned pa || s.quarantine.contains (va / 128 * 128) then .stop s .poisoned else .done s)
      else if s.alias pa va then s.copyRefused c (if s.onDevice pa then s.homeDie pa else c.die) 5 va
      else
        let asked := s.askShare pa va none
        if asked.hasSnoop pa then .wait asked
        else match s.askHost pa false with
          | some s => .wait s
          | none => if s.isPoisoned pa then .stop s .poisoned else .done s

/-- The port through which the access reaches the banks of a cluster: a peer's is the router's. -/
def CopyAt.port (c : CopyAt) (cl : Nat) : Nat :=
  match c.unit with
  | .peer _ => routerPort
  | .job _ _ _ | .overlay _ _ _ | .refresh _ _ _ => copyPortAt c.cluster cl

/-- The banks of a TSP grant the port an access of n bytes, or it waits (R99). -/
def State.copyBank (s : State) (c : CopyAt) (cl off n : Nat) : CopyStep :=
  match s.grantUnit cl (c.port cl) (banksOf [(off, n)]) with
  | (s, true) => .done s
  | (s, false) => .wait s

/-- Read a run of bytes inside one sector, by virtual address, under the rights of the domain (R36, R279). -/
def State.copyRead (s : State) (c : CopyAt) (n : Rights) (access va len : Nat) : CopyStep :=
  if 2 ^ 56 < va + len then .stop s .bounds
  else if s.listRights c.who.domain.toNat c.who.part.toNat va n = false then .stop s .protection
  else match targetOf va with
    | .hole | .reg _ _ => .stop s .protection
    | .tsp cl off =>
      if descTable ≤ off then .stop s .protection
      else (s.copyWindow c cl va).andThen fun s => (s.copyBank c cl off len).andThen fun s =>
        if s.isPoisoned va then .stop s .poisoned else .done s
    | .clm core _ =>
      (s.copyWindow c (clusterOfCore core) va).andThen fun s => if s.isPoisoned va then .stop s .poisoned else .done s
    | .paged =>
      match s.lookup c.die va false with
      | (.error cause, s) => .page s cause access va
      | (.ok e, s) => s.copyReadPage c va len (pteAddr e va)

/-- The bytes of a run that `copyRead` has found readable. -/
def State.copyBytes (s : State) (c : CopyAt) (va len : Nat) : List Byte :=
  match targetOf va with
  | .hole | .reg _ _ => []
  | .tsp _ _ | .clm _ _ => memBytes s.mem va len
  | .paged =>
    match s.translate c.die va false with
    | .error _ => []
    | .ok e =>
      match s.rangeOf (pteAddr e va) with
      | .hostUncached | .peer => ((s.inflowAt c va len).map (·.bytes)).getD []
      | .hashed | .die _ | .hostCoherent | .hole => s.cohBytes (pteAddr e va) len

/-- The runs of adjacent addresses inside one sector that a list of addresses forms. -/
def byteRuns : List Nat → List (Nat × Nat)
  | [] => []
  | a :: as =>
    match byteRuns as with
    | (b, n) :: rs => if b = a + 1 ∧ b % 64 ≠ 0 then (a, n + 1) :: rs else (a, 1) :: (b, n) :: rs
    | [] => [(a, 1)]

/-- The runs of n bytes from an address up. -/
def sectorRuns (va n : Nat) : List (Nat × Nat) :=
  (List.range ((va % 64 + n + 63) / 64)).map fun i =>
    let a := max va (va / 64 * 64 + 64 * i)
    (a, min (va + n) (va / 64 * 64 + 64 * i + 64) - a)

def State.copyReadAll (s : State) (c : CopyAt) (n : Rights) (access : Nat) (rs : List (Nat × Nat)) : CopyStep :=
  rs.foldl (fun (x : CopyStep) (va, len) => x.andThen fun s => s.copyRead c n access va len) (CopyStep.done s)

/-- Make ready to write inside one sector of a page (R53, R69, R84, R114). -/
def State.copyWritePage (s : State) (c : CopyAt) (va pa : Nat) : CopyStep :=
  match s.rangeOf pa with
  | .hostUncached => .done s
  | .peer =>
    if s.circuitTo c.die (peerPort pa) then .done s
    else if s.circuitTuning c.die (peerPort pa) then .wait s
    else .stop s .noCircuit
  | .hashed | .die _ | .hostCoherent | .hole =>
    s.copyAtHome c pa false fun s =>
      if s.inPool va then
        (match s.recallCtx (va / 128 * 128) with
         | (s, here) => if here then .done s else .wait s)
      else if s.alias pa va then s.copyRefused c (if s.onDevice pa then s.homeDie pa else c.die) 5 va
      else if s.cycle < s.leaseOf pa then .wait s
      else
        let asked := s.askOwners pa va
        if asked.hasSnoop pa then .wait asked
        else match s.askHost pa true with
          | some s => .wait s
          | none => .done s

/-- Make ready to write inside one sector, by virtual address (R36, R93, R279). -/
def State.copyWrite (s : State) (c : CopyAt) (va : Nat) : CopyStep :=
  if 2 ^ 56 ≤ va then .stop s .bounds
  else if s.listRights c.who.domain.toNat c.who.part.toNat va rightsW = false then .stop s .protection
  else match targetOf va with
    | .hole | .reg _ _ => .stop s .protection
    | .tsp cl off =>
      if descTable ≤ off then .stop s .protection
      else (s.copyWindow c cl va).andThen fun s => s.copyBank c cl off 64
    | .clm core off =>
      (s.copyWindow c (clusterOfCore core) va).andThen fun s =>
        if s.inCode core off then s.copyRefused c (dieOfCore core) 2 va else .done s
    | .paged =>
      match s.lookup c.die va true with
      | (.error cause, s) => .page s cause 5 va
      | (.ok e, s) => s.copyWritePage c va (pteAddr e va)

/-- Write bytes next to the cores; a unit that is written whole is no longer poisoned (R341). -/
def State.putWindow (s : State) (va : Nat) (bs : List (Option Byte)) : State :=
  let (s, _) := bs.foldl (fun (x : State × Nat) b =>
    (match b with | some v => x.1.bankStore x.2 [v] | none => x.1, x.2 + 1)) (s, va)
  { s with poison := if bs.all Option.isSome then s.poison.filter (· != va) else s.poison }

/-- Perform the write of one sector that `copyWrite` has made ready: 64 places from its first byte up. -/
def State.copyPut (s : State) (c : CopyAt) (va : Nat) (bs : List (Option Byte)) : CopyStep :=
  match targetOf va with
  | .hole | .reg _ _ => .stop s .protection
  | .tsp _ _ | .clm _ _ => .done (s.putWindow va bs)
  | .paged =>
    match s.translate c.die va true with
    | .error _ => .wait s
    | .ok e =>
      let pa := pteAddr e va
      let runs := byteRuns ((List.range 64).filter fun i => (bs[i]?).join.isSome)
      let out := fun (port : Option Nat) => runs.foldl (fun (s : State) (i, n) =>
        s.copyOut c (va + i) (pa + i) n (.store (((bs.drop i).take n).map fun b => b.getD 0)) true port) s
      match s.rangeOf pa with
      | .hostUncached => .done (out none)
      | .peer => .done (out (some (peerPort pa)))
      | .hashed | .die _ | .hostCoherent | .hole =>
        if s.inPool va then
          (match s.poolWrite c.who va bs with
           | (s, true) => .done s
           | (s, false) => s.copyRefused c (s.homeDie pa) 2 va)
        else
          .done ((s.homeWrite pa va [] (mergeBytes (memSector s.mem pa) 0 bs)
            (fun i => (bs[i]?).join.isSome) c.held).tidyDir pa)

/-- Guarded ranges of a TSP count the bytes that one write has put there (R106). -/
def State.guardedWrites (s : State) (cl : Nat) (segs : List (Nat × Nat)) : State :=
  (s.cluster cl).guards.foldl (fun s (_, g) =>
    let k := segs.foldl (fun n (off, len) => n + overlapBytes off len g.start g.len) 0
    if 0 < k then s.syncArrival (tspBase cl + g.sync) k else s) s

/-! ## The destination lines of a job -/

/-- Where a destination byte comes from: an address, byte j of gathered element k, or zero. -/
inductive CopySrc
  | va (a : Nat)
  | elem (k j : Nat)
  deriving DecidableEq, Repr

/-- An address that a row gives; one below zero lies outside the 56-bit space. -/
def rowAddr (base : Nat) (r : Nat) (pitch : Int) (j : Nat) : Nat :=
  let a := (base : Int) + r * pitch + j
  if a < 0 then 2 ^ 56 else a.toNat

/-- The source of a destination byte (R280, R281); d is the tile's descriptor. -/
def JobKind.source (k : JobKind) (cl d a : Nat) : Option CopySrc :=
  match k with
  | .copy dst src len => if dst ≤ a ∧ a < dst + len then some (.va (src + (a - dst))) else none
  | .copy2 dst src rows n dp sp =>
    let r := if rows = 1 then 0 else (a - dst) / dp
    let j := a - dst - r * dp
    if dst ≤ a ∧ r < rows ∧ j < n then some (.va (src + r * sp + j)) else none
  | .gather dst _ _ count e =>
    if dst ≤ a ∧ a < dst + count * 2 ^ e then some (.elem ((a - dst) / 2 ^ e) ((a - dst) % 2 ^ e)) else none
  | .tload _ src pitch =>
    let base := dRowAddr cl d 0
    let r := (a - base) / dPitch d
    let j := (a - base) % dPitch d
    if base ≤ a ∧ r < dRows d ∧ j < dRowBytes d then some (.va (rowAddr src r pitch j)) else none
  | .tstore _ dst pitch =>
    ((List.range (dRows d)).reverse.find? fun r =>
      decide (rowAddr dst r pitch 0 ≤ a) && decide (a < rowAddr dst r pitch 0 + dRowBytes d)).map fun r =>
        .va (dRowAddr cl d r + (a - rowAddr dst r pitch 0))
  | .tloadSub _ | .migrate _ _ => none

/-- The 256-byte lines that n bytes from an address up touch. -/
def linesOf (a n : Nat) : List Nat := (List.range ((a % 256 + n + 255) / 256)).map fun i => a / 256 + i

/-- A rising list of lines with each line once. -/
def oncePerLine : List Nat → List Nat
  | [] => []
  | l :: ls => match oncePerLine ls with
    | m :: ms => if l = m then m :: ms else l :: m :: ms
    | [] => [l]

/-- The destination line with a number, in the order in which the model writes them. -/
def JobKind.line (k : JobKind) (cl d i : Nat) : Option Nat :=
  let run := fun (a n : Nat) => if n ≠ 0 ∧ a / 256 + i ≤ (a + n - 1) / 256 then some (a / 256 + i) else none
  match k with
  | .copy dst _ len => run dst len
  | .gather dst _ _ count e => run dst (count * 2 ^ e)
  | .copy2 dst _ rows n dp _ => (oncePerLine ((List.range rows).flatMap fun r => linesOf (dst + r * dp) n))[i]?
  | .tload _ _ _ => (oncePerLine ((List.range (dRows d)).flatMap fun r => linesOf (dRowAddr cl d r) (dRowBytes d)))[i]?
  | .tstore _ dst pitch => ((List.range (dRows d)).flatMap fun r => linesOf (rowAddr dst r pitch 0) (dRowBytes d)).eraseDups[i]?
  | .tloadSub _ | .migrate _ _ => none

/-- The tile's descriptor of a job. -/
def State.jobDesc (s : State) (k : JobKind) : Nat :=
  let of := fun h => s.desc (handleCluster h) (handleIndex h)
  match k with
  | .tload h _ _ => of h
  | .tloadSub h => of h
  | .tstore h _ _ => of h
  | .copy _ _ _ | .copy2 _ _ _ _ _ _ | .gather _ _ _ _ _ | .migrate _ _ => 0

/-- The bytes of the index list that some elements need (R280). -/
def JobKind.indexRuns (k : JobKind) (es : List Nat) : List (Nat × Nat) :=
  match k with
  | .gather _ _ list _ _ => es.map fun n => (list + 4 * n, 4)
  | .copy _ _ _ | .copy2 _ _ _ _ _ _ | .tload _ _ _ | .tloadSub _ | .tstore _ _ _ | .migrate _ _ => []

/-- The address of a source byte; none writes zero (R280). -/
def State.sourceAddr (s : State) (c : CopyAt) (k : JobKind) (x : CopySrc) : Option Nat :=
  match x, k with
  | .va a, _ => some a
  | .elem n j, .gather _ src list _ e =>
    let i := ofBytes (s.copyBytes c (list + 4 * n) 4)
    if i = 0xFFFFFFFF then none else some (src + i * 2 ^ e + j)
  | .elem _ _, _ => none

/-- The bytes read, with zeros in the places that read nothing. -/
def withZeros : List (Option Nat) → List Byte → List Byte
  | [], _ => []
  | none :: xs, bs => 0 :: withZeros xs bs
  | some _ :: xs, b :: bs => b :: withZeros xs bs
  | some _ :: _, [] => []

/-- The 64 places of a sector for the bytes that a line writes. -/
def sectorPlaces (u : Nat) (ws : List (Nat × Byte)) : List (Option Byte) :=
  (List.range 64).map fun i => (ws.find? fun (a, _) => a == u + i).map (·.2)

/-- The physical address of a destination line behind an optical port. -/
def State.peerLine (s : State) (c : CopyAt) (line : Nat) : Option Nat :=
  match targetOf (line * 256), s.translate c.die (line * 256) true with
  | .paged, .ok e => if s.rangeOf (pteAddr e (line * 256)) = .peer then some (pteAddr e (line * 256)) else none
  | _, _ => none

/-- The bytes of a line behind an optical port go as one PUT with a mask, from the first byte to the last (R361). -/
def State.putPeer (s : State) (c : CopyAt) (line pa : Nat) (ws : List (Nat × Byte)) : State :=
  let at_ := (ws.map fun (a, _) => a - line * 256)
  let lo := at_.foldl min 255
  let n := at_.foldl max 0 + 1 - lo
  let bs := (List.range n).map fun i => ((ws.find? fun (a, _) => a == line * 256 + lo + i).map (·.2)).getD 0
  s.copyOutMasked c (line * 256 + lo) (pa + lo) n (.store bs) true (some (peerPort pa))
    (at_.eraseDups.foldl (fun m i => m + 2 ^ (i - lo)) 0)

/-- Write the bytes of one destination line, and count those of a TSP (R106, R110). -/
def State.copyLinePut (s : State) (c : CopyAt) (line : Nat) (ws : List (Nat × Byte)) : CopyStep :=
  let us := (ws.map fun (a, _) => a / 64 * 64).eraseDups
  let ready := us.foldl (fun (x : CopyStep) u => x.andThen fun s => s.copyWrite c u) (CopyStep.done s)
  let put := ready.andThen fun s => match ws, s.peerLine c line with
    | _ :: _, some pa => .done (s.putPeer c line pa ws)
    | _, _ => us.foldl (fun (x : CopyStep) u => x.andThen fun s => s.copyPut c u (sectorPlaces u ws)) (CopyStep.done s)
  put.andThen fun s => match targetOf (line * 256) with
    | .tsp cl _ => .done (s.guardedWrites cl ((byteRuns (ws.map (·.1))).map fun (a, n) => (a - tspBase cl, n)))
    | .clm _ _ | .paged | .reg _ _ | .hole => .done s

/-- One destination line of a job: its sources, then the line (R110, R279). -/
def State.copyLine (s : State) (c : CopyAt) (k : JobKind) (line : Nat) : CopyStep :=
  let d := s.jobDesc k
  let plan := (List.range 256).filterMap fun i => (k.source c.cluster d (line * 256 + i)).map fun x => (line * 256 + i, x)
  let es := (plan.filterMap fun (_, x) => match x with | .elem n _ => some n | .va _ => none).eraseDups
  (s.copyReadAll c rightsR 4 (k.indexRuns es)).andThen fun s =>
    let srcs := plan.map fun (_, x) => s.sourceAddr c k x
    let runs := byteRuns (srcs.filterMap id)
    (s.copyReadAll c rightsR 4 runs).andThen fun s =>
      let bs := withZeros srcs (runs.flatMap fun (a, n) => s.copyBytes c a n)
      s.copyLinePut c line ((plan.map (·.1)).zip bs)

/-! ## Submission and start -/

/-- A submission of a tile job fails at the home cluster's queue (R102, R281). -/
def State.jobFault (s : State) (r : JobReq) (code : FaultCode) (acc : AccessKind) (fva : Nat) : State :=
  s.reply r.who 1 (.fault code acc r.who.word fva (dieOfCluster r.cluster))

/-- The access that a tile job's handle names. -/
def JobKind.tileAccess (k : JobKind) : AccessKind := match k with | .tstore _ _ _ => .copySrc | _ => .copyDst

/-- The handle of a tile job. -/
def JobKind.handle (k : JobKind) : Option Nat :=
  match k with
  | .tload h _ _ => some h
  | .tloadSub h => some h
  | .tstore h _ _ => some h
  | .copy _ _ _ | .copy2 _ _ _ _ _ _ | .gather _ _ _ _ _ | .migrate _ _ => none

def maxMigrations : Nat := 16

/-- Migrations in progress on the device: the jobs of `pmig` that are not DONE (R53, R356). -/
def State.migrationJobs (s : State) : Nat :=
  (s.clusters.flatMap fun (_, k) => k.jobs.filter fun (_, x) =>
    (match x.kind with | .migrate _ _ => true | _ => false) && !x.isDone).length

/-- The queue takes a submission or answers that it cannot (R108, R279, R356). -/
def State.takeJob (s : State) (r : JobReq) : State :=
  let full := match r.kind with | .migrate _ _ => decide (maxMigrations ≤ s.migrationJobs) | _ => false
  match (if full then none else s.submitJob r.cluster r.who r.kind) with
  | some (j, s) => s.reply r.who 1 (.done [(r.d, BitVec.ofNat 64 j)] (some (r.pf, false)) 0)
  | none => s.reply r.who 1 (.done [] (some (r.pf, true)) 0)

/-- A tile job at the queue of its tile's home cluster (R57, R102, R281, R368). -/
def State.takeTileJob (s : State) (r : JobReq) (h : Nat) : State :=
  match s.routerRefuses r.who r.cluster with
  | some (.homeOffline, _) => s.unitOffline r.who 1
  | some _ =>
    (s.refused (dieOfCluster r.cluster) r.who 2 (tspBase r.cluster)).jobFault r .staleHandle r.kind.tileAccess h
  | none =>
    match s.lookupHandle r.who.part.toNat h with
    | none => s.jobFault r .staleHandle r.kind.tileAccess h
    | some d =>
      match r.kind with
      | .tload _ _ _ => if dSub d then s.jobFault r .protection .copyDst (dRowAddr r.cluster d 0) else s.takeJob r
      | .tloadSub _ => if dSub d then s.takeJob r else s.jobFault r .bounds .copyDst 0
      | _ => s.takeJob r

/-- JOB_SUBMISSION (R108): each queue takes one submission a cycle, round robin over the ports that submit. -/
def execJobSubmission (n : Nat) (s : State) : Result :=
  match s.jobReqs[n]? with
  | none => .next s
  | some r =>
    let k := s.cluster r.cluster
    if k.submitAt = some s.cycle ∨ nextSubmission k s.jobReqs r.cluster ≠ some r then .next s
    else
      let s := { s with jobReqs := listErase s.jobReqs n }.setCluster r.cluster
        { k with submitAt := some s.cycle, submitPort := r.port }
      match r.kind.handle with
      | some h => .next (s.takeTileJob r h)
      | none => .next (s.takeJob r)

def JobSlot.isRunning (x : JobSlot) : Bool := x.state == .active || x.state == .pageWait

def State.setJob (s : State) (cl slot : Nat) (x : JobSlot) : State :=
  let k := s.cluster cl
  s.setCluster cl { k with jobs := Table.set k.jobs slot x }

/-- The page's entry and the new frame as a `pmig` job finds them (R356 step 4). -/
def State.migrationEntry (s : State) (page frame : Nat) : Option Nat :=
  match s.ptLookup page with
  | none => none
  | some e =>
    if s.pteValid e = false ∨ frame % 2 ^ pteSizeLog2 e ≠ 0 ∨ s.rangeOf frame = .hole ∨ frame = pteFrame e then none
    else match s.checkEntry (setBits e 111 64 frame) page with
      | .ok _ => some e
      | .error _ => none

/-- A `pmig` job starts: a migration with every line marked (R53). -/
def State.startMigration (s : State) (cl slot : Nat) (x : JobSlot) (page frame : Nat) : State :=
  match s.migrationEntry page frame with
  | none => s.jobDone cl slot .bounds
  | some e =>
    let g : Migration := { job := (cl, slot), who := x.who, page := page / 2 ^ pteSizeLog2 e * 2 ^ pteSizeLog2 e,
                           size := 2 ^ pteSizeLog2 e, oldFrame := pteFrame e, newFrame := frame, marked := [], pending := [], rounds := 0,
                           frozenAt := none, abandoned := 0 }
    { s with migrations := s.migrations ++ [{ g with marked := g.lines }] }

/-- A `tload.sub` job starts: the refresh of its tile absorbs it, or begins for it (R112, R281); a STALE tile that is being freed is
not refreshed any more (R104). -/
def State.startRefreshJob (s : State) (cl slot : Nat) (x : JobSlot) (h : Nat) : State :=
  let i := handleIndex h
  let d := s.desc cl i
  if s.liveHandle h = false ∧ dStale d then s.jobDone cl slot .protection
  else if (s.deniedAt x.who (dSrc d) (s.sourceBytes cl d) rightsRS).isSome then s.jobDone cl slot .protection
  else
    let k := s.cluster cl
    let rs := if k.refreshes.any fun r => r.index == i then k.refreshes else wantRefresh k.refreshes i x.who
    s.setCluster cl { k with refreshes := rs.map fun r =>
      if r.index = i then { r with jobs := r.jobs ++ [slot], pageWait := false } else r }

/-- JOB_START (R110): in submission order, at most four at once, unless firmware withholds starts (R379). -/
def execJobStart (cluster : Nat) (s : State) : Result :=
  let k := s.cluster cluster
  let running := (k.jobs.filter fun (_, x) => x.isRunning).length
  let queued := k.jobs.filter fun (_, x) => x.state == .queued
  if 4 ≤ running ∨ (s.brick (dieOfCluster cluster)).withheld.contains .jobStarts then .next s
  else match leastBy (fun a b => decide (a.2.order < b.2.order)) queued with
    | none => .next s
    | some (slot, x) =>
      let s := s.setJob cluster slot { x with state := .active }
      match x.kind with
      | .migrate page frame => .next (s.startMigration cluster slot x page frame)
      | .tloadSub h => .next (s.startRefreshJob cluster slot x h)
      | .copy _ _ _ | .copy2 _ _ _ _ _ _ | .gather _ _ _ _ _ | .tload _ _ _ | .tstore _ _ _ =>
        .next (if (x.kind.line cluster (s.jobDesc x.kind) 0).isNone then s.jobDone cluster slot .ok else s)

/-! ## Destination lines -/

/-- A write of an earlier line is not performed yet: an acknowledgement of its sharers or of a peer is outstanding. -/
def State.copyPending (s : State) (c : CopyAt) (k : JobKind) (progress : Nat) : Bool :=
  (s.outReqs.any fun q => q.unit == some c.unit && q.posted) ||
    (match progress with
     | 0 => false
     | p + 1 => match k.line c.cluster (s.jobDesc k) p with
       | none => false
       | some l => match s.translate c.die (l * 256) true with
         | .ok e => decide (targetOf (l * 256) = .paged) && [0, 1, 2, 3].any fun i => s.hasSnoop (pteAddr e (l * 256) + 64 * i)
         | .error _ => false)

/-- A job ends, and what was brought for it is dropped. -/
def State.endJob (s : State) (c : CopyAt) (slot : Nat) (st : JobStatus) : State :=
  { s with inflow := s.inflow.filter fun f => f.unit != c.unit }.jobDone c.cluster slot st

/-- The last write of a job is performed: a plain `tload` advances its tile's VERSION (R101, R109, R281). -/
def State.finishJob (s : State) (c : CopyAt) (slot : Nat) (k : JobKind) : State :=
  let s := match k with
    | .tload h _ _ =>
      (s.putDesc c.cluster (handleIndex h) (dNextVersion (s.jobDesc k))).staleKeys c.cluster (handleIndex h)
    | .copy _ _ _ | .copy2 _ _ _ _ _ _ | .gather _ _ _ _ _ | .tloadSub _ | .tstore _ _ _ | .migrate _ _ => s
  s.endJob c slot .ok

/-- The job waits for a page when its message has found a place, and tries again otherwise (R51, R111). -/
def State.pageJob (s : State) (c : CopyAt) (slot : Nat) (x : JobSlot) (cause access va : Nat) : State :=
  match s.pageFault c.die { who := x.who, cause := cause, access := access, die := c.die, va := va } with
  | some s => s.setJob c.cluster slot { x with state := .pageWait }
  | none => s

/-- The physical line of an address, where a peer's lease on it has not expired. -/
def State.leasedLine (s : State) (c : CopyAt) (va : Nat) : Option Nat :=
  match targetOf va, s.translate c.die va true with
  | .paged, .ok e => if s.cycle < s.leaseOf (pteAddr e va) then some (lineOfAddr (pteAddr e va)) else none
  | _, _ => none

/-- What ends a job before its last line: a cancellation or an error that has been met (R109). -/
def State.jobEnding (s : State) (c : CopyAt) (x : JobSlot) : Option JobStatus :=
  match x.ending with
  | some st => some st
  | none => (s.inflow.find? fun f => f.unit == c.unit && f.bad.isSome).bind (·.bad)

/-- The next line of an active job; nothing ends it before the writes that it has made are performed (R298). -/
def State.stepJob (s : State) (c : CopyAt) (slot : Nat) (x : JobSlot) : State :=
  if s.copyPending c x.kind x.progress then s
  else match s.jobEnding c x with
    | some st => s.endJob c slot st
    | none => match x.kind.line c.cluster (s.jobDesc x.kind) x.progress with
      | none => s.finishJob c slot x.kind
      | some l =>
        match s.copyLine c x.kind l with
        | .wait s =>
          let line := s.leasedLine c (l * 256)
          s.setJob c.cluster slot { x with held := if line.isSome then line else x.held }
        | .stop s st =>
          if s.copyPending c x.kind (x.progress + 1) then
            s.setJob c.cluster slot { x with progress := x.progress + 1, held := none, ending := some st }
          else s.endJob c slot st
        | .page s cause access va => s.pageJob c slot x cause access va
        | .done s =>
          let s := { s with inflow := s.inflow.filter fun f => f.unit != c.unit || f.bad.isSome }
          let s := s.setJob c.cluster slot { x with progress := x.progress + 1, held := none }
          if (x.kind.line c.cluster (s.jobDesc x.kind) (x.progress + 1)).isNone && !s.copyPending c x.kind (x.progress + 1) then
            s.finishJob c slot x.kind
          else s

/-- COPY_LINE_WRITE (R110): one destination line of an active job, or the end of one that ends early. -/
def execCopyLineWrite (cluster slot : Nat) (s : State) : Result :=
  match Table.get? (s.cluster cluster).jobs slot with
  | none => .next s
  | some x =>
    let c : CopyAt := { unit := .job cluster slot x.seq, who := x.who, cluster := cluster, held := x.held.isSome }
    let waits := match x.kind with
      | .migrate _ _ | .tloadSub _ => true
      | .tstore _ _ _ => dStale (s.jobDesc x.kind)
      | .copy _ _ _ | .copy2 _ _ _ _ _ _ | .gather _ _ _ _ _ | .tload _ _ _ => false
    if x.state = .active ∧ (waits = false ∨ x.ending.isSome) then .next (s.stepJob c slot x) else .next s

end Sys2Proof.Machine
end

