-- ==== Sys2Proof/Machine/CopyInternal.lean ====
section
/-!
DEFINITION. Machine/CopyInternal.lean: the work of a copy unit that takes no queue slot (R112): overlay loads (R92, R94, R138 to
R141) and refreshes of subscribed tiles (R77, R78, R112, R281).
-/
namespace Sys2Proof.Machine

/-! ## Overlay loads -/

def granuleBytes : Nat := 0x4000

/-- The directory entry of a domain's overlay table (R138); none where it is invalid or not set up (R139, R375). -/
def State.overlayTable (s : State) (domain : Nat) : Option Nat :=
  if s.regs.ovtWritten then
    let e := s.cohWide (s.regs.ovtDirBase.toNat % 2 ^ 48 + 16 * domain) 16
    if bits e 127 81 = 0 ∧ bits e 63 56 = 0 ∧ bits e 55 0 % 16 = 0 then some e else none
  else none

/-- An overlay descriptor is valid (R139). -/
def overlayOk (d : Nat) : Bool :=
  bit d 127 && bits d 126 105 == 0 && bits d 95 81 == 0 && bits d 63 56 == 0 && decide (bits d 104 96 ≤ 256) &&
    bits d 80 64 != 0 && bits d 80 64 % 64 == 0 && decide (bits d 80 64 ≤ 65536) && bits d 55 0 % 64 == 0 &&
    decide (bits d 80 64 + 4 * bits d 104 96 ≤ 65536)

/-- What a load finds: it fails; it waits; it has read a record of its overlay; or its image can be read, with its address,
LENGTH and CONST_WORDS. -/
inductive LoadStep
  | fail
  | known (s : State) (l : OverlayLoad)
  | page (s : State) (cause va : Nat)
  | wait (s : State)
  | ready (s : State) (image length constWords : Nat)
  deriving DecidableEq, Repr

/-- A step of the copy unit as a step of a load: every failure is one failure (R94). -/
def CopyStep.load (x : CopyStep) (f : State → LoadStep) : LoadStep :=
  match x with
  | .done s => f s
  | .stop _ _ => .fail
  | .page s cause _ va => .page s cause va
  | .wait s => .wait s

def OverlayLoad.agent (l : OverlayLoad) : CopyAt :=
  { unit := .overlay l.core l.domain l.overlay, who := l.who, cluster := clusterOfCore l.core, held := false }

/-- Read an image under X rights (R36, R94). -/
def State.readImage (s : State) (l : OverlayLoad) (image length constWords : Nat) : LoadStep :=
  (s.copyReadAll l.agent rightsX 6 (sectorRuns image (length + 4 * constWords))).load fun s =>
    .ready s image length constWords

/-- Granules of a slot (R91). -/
def granulesOf (length constWords : Nat) : Nat := (length + 4 * constWords + granuleBytes - 1) / granuleBytes

/-- Step 1 of R94 after the directory entry: the descriptor is read in the domain. -/
def State.readDescriptor (s : State) (l : OverlayLoad) (e : Nat) : LoadStep :=
  if bits e 80 64 ≤ l.overlay then .fail
  else
    let va := bits e 55 0 + 16 * l.overlay
    (s.copyReadAll l.agent rightsR 6 [(va, 16)]).load fun s =>
      .known s { l with desc := some (ofBytes (s.copyBytes l.agent va 16)) }

/-- Steps 1 and 2 of R94. A load keeps the directory entry and the descriptor that it has read: a write to them changes only
loads that start later (R139). -/
def State.loadStep (s : State) (l : OverlayLoad) : LoadStep :=
  match l.dirEntry, l.desc with
  | none, _ => match s.overlayTable l.domain with
    | none => .fail
    | some e => .known s { l with dirEntry := some e }
  | some e, none => s.readDescriptor l e
  | some _, some d =>
    if overlayOk d = false ∨ (s.core l.core).codeGranules < granulesOf (bits d 80 64) (bits d 104 96) then .fail
    else s.readImage l (bits d 55 0) (bits d 80 64) (bits d 104 96)

/-- A slot overlaps a run of n granules from f. -/
def Slot.meets (x : Slot) (f n : Nat) : Bool := decide (x.first < f + n) && decide (f < x.first + x.count)

/-- Step 3 of R94: the first granule of the run that a load of n granules takes; none while every run meets a LOADING
slot. Between runs of the same latest fetch cycle it takes the lowest, also where they remove different slots, of which R94 says
nothing (assumption 109). -/
def chooseRun (c : CoreState) (n : Nat) : Option Nat :=
  let slots := c.slots.map (·.2)
  let hit := fun (f : Nat) => slots.filter fun x => x.meets f n
  let last := fun (f : Nat) => (hit f).foldl (fun t x => max t x.lastFetch) 0
  let runs := List.range (c.codeGranules + 1 - n)
  match runs.find? fun f => (hit f).isEmpty with
  | some f => some f
  | none =>
    (leastBy (fun a b => decide (last a < last b)) (runs.filter fun f => (hit f).all fun x => x.state != .loading))

/-- A load takes its run: the slots that it removes go, and its own is LOADING. -/
def CoreState.takeRun (c : CoreState) (l : OverlayLoad) (f n length constWords : Nat) : CoreState :=
  let x : Slot := { domain := l.domain, overlay := l.overlay, count := n, first := f, state := .loading, length := length,
                    constWords := constWords, lastFetch := 0 }
  { c with slots := Table.set (c.slots.filter fun (_, y) => !y.meets f n) f x }

def State.setLoad (s : State) (cl n : Nat) (l : OverlayLoad) : State :=
  let k := s.cluster cl
  s.setCluster cl { k with loads := listSet k.loads n l }

/-- A load leaves the copy unit, with what was brought for it. -/
def State.dropLoad (s : State) (cl n : Nat) (l : OverlayLoad) : State :=
  let k := s.cluster cl
  { s.setCluster cl { k with loads := listErase k.loads n } with
    inflow := s.inflow.filter fun f => f.unit != l.agent.unit }

/-- The LOADING slot of a load. -/
def State.loadingSlot (s : State) (l : OverlayLoad) : Option Slot :=
  l.slot.bind fun f => (Table.get? (s.core l.core).slots f).filter fun x => x.state == .loading

/-- What a load may do next: before it has a slot the descriptor is read, afterwards the image of its slot. -/
def State.loadNext (s : State) (l : OverlayLoad) : LoadStep :=
  match s.loadingSlot l with
  | some x => s.readImage l l.image x.length x.constWords
  | none => s.loadStep l

/-- Steps 4 and 5 of R94: the image and the constant bank are written, the rest of the last granule is zeroed, and the
contexts that wait are woken (R92). -/
def State.writeImage (s : State) (cl n : Nat) (l : OverlayLoad) (x : Slot) (image : Nat) : State :=
  let len := x.length + 4 * x.constWords
  let base := slotBase l.core x
  let bs := (sectorRuns image len).flatMap fun (a, m) => s.copyBytes l.agent a m
  let s := { s with mem := memPuts s.mem base bs
                    poison := s.poison.filter fun u => !(decide (base ≤ u) && decide (u < base + x.count * granuleBytes)) }
  let s := s.zeroRun (base + len) (x.count * granuleBytes - len)
  let c := s.core l.core
  let y : Slot := { x with state := .executable, lastFetch := s.cycle }
  let s := (s.setCore l.core { c with slots := Table.set c.slots x.first y }).dropLoad cl n l
  l.waiters.foldl (fun s w => s.reply w 7 .wake) s

/-- OVERLAY_LOAD_COMPLETE (R92, R94): the load chooses its slot; at its next step the image is written. -/
def execOverlayLoadComplete (cluster n : Nat) (s : State) : Result :=
  match (s.cluster cluster).loads[n]? with
  | none => .next s
  | some l =>
    if l.pageWait then .next s
    else match s.loadNext l with
      | .fail => .next s
      | .wait s => .next s
      | .known s l => .next (s.setLoad cluster n l)
      | .page s cause va =>
        let die := dieOfCluster cluster
        .next (match s.pageFault die { who := l.who, cause := cause, access := 6, die := die, va := va } with
          | some s => s.setLoad cluster n { l with pageWait := true }
          | none => s)
      | .ready s image length constWords =>
        match s.loadingSlot l with
        | some x => .next (s.writeImage cluster n l x image)
        | none =>
          let c := s.core l.core
          match chooseRun c (granulesOf length constWords) with
          | none => .next s
          | some f =>
            .next ((s.setCore l.core (c.takeRun l f (granulesOf length constWords) length constWords)).setLoad cluster n
              { l with slot := some f, image := image })

/-- OVERLAY_LOAD_FAIL (R94): the slot is EMPTY and zeroed, and every context parked on the load takes a protection
violation at its own PC. -/
def execOverlayLoadFail (cluster n : Nat) (s : State) : Result :=
  match (s.cluster cluster).loads[n]? with
  | none => .next s
  | some l =>
    if l.pageWait then .next s
    else match s.loadNext l with
      | .wait _ | .known _ _ | .page _ _ _ | .ready _ _ _ _ => .next s
      | .fail =>
        let s := match s.loadingSlot l with
          | some x =>
            let c := s.core l.core
            (s.setCore l.core { c with slots := Table.erase c.slots x.first }).zeroRun (slotBase l.core x)
              (x.count * granuleBytes)
          | none => s
        let s := s.dropLoad cluster n l
        .next (l.waiters.foldl (fun s w => s.reply w 7 (.fault .protection .overlay w.word 0 (dieOfCluster cluster))) s)

/-! ## Refreshes of subscribed tiles -/

/-- The partition of a domain, by its rights descriptor (R38). -/
def State.domainPart (s : State) (domain : Nat) : Nat := ((s.rightsDesc domain).map fun d => bits d 7 0).getD 0

def maxRefreshes : Nat := 8

/-- TILE_REFRESH_START (R112): the first tile that waits, in the order in which they became STALE. -/
def execTileRefreshStart (cluster : Nat) (s : State) : Result :=
  let k := s.cluster cluster
  if maxRefreshes ≤ (k.refreshes.filter fun r => r.running).length then .next s
  else match k.refreshes.findIdx? fun r => !r.running with
    | none => .next s
    | some n => match k.refreshes[n]? with
      | none => .next s
      | some r =>
        let s := s.setCluster cluster { k with refreshes := listSet k.refreshes n { r with running := true } }
        .next (s.putDesc cluster r.index (dSetRefresh (s.desc cluster r.index) true))

/-- Who reads the source of a tile: the tile's domain, in that domain's partition. -/
def State.refreshAt (s : State) (cl d : Nat) (r : Refresh) : CopyAt :=
  { unit := .refresh cl r.index (dGen d),
    who := { r.who with domain := BitVec.ofNat 16 (dDomain d), part := BitVec.ofNat 8 (s.domainPart (dDomain d)) },
    cluster := cl, held := false }

/-- Register a tile for one sector of its source (R68, R73, R77): at its format where the page's master allows one and
the brick has room for it, and otherwise as a holder of a brick in S. No tile is registered for a line of the context pool
(R113, assumption 113). -/
def State.subscribeTile (s : State) (cl i va : Nat) (d : Nat) : State :=
  let b := dieOfCluster cl
  match s.translate b va false with
  | .error _ => s
  | .ok e =>
    let pa := pteAddr e va
    if s.inPool va then s
    else match s.rangeOf pa with
    | .hostUncached | .peer | .hole => s
    | .hashed | .die _ | .hostCoherent =>
      let f := dFmt d
      let t : TileSub := { cluster := cl, index := i, va := sectorOf va, pa := sectorOf pa, fmt := f, upd := dUpd d }
      let s := (((s.applyAcked fun x => x.target == .brick b && x.pa == sectorOf pa).ensureDir pa va).trimFormats pa va b)
      let x := s.dirSector pa
      let fs := x.formats.get b
      let s := { s.filterRoom b va with tileSubs := (s.tileSubs.filter fun y =>
        !(y.cluster == cl && y.index == i && y.va == sectorOf va)) ++ [t] }
      let s := if x.bricks.get b = .sub then s
        else s.modifySector pa fun y => { y with masters := y.masters.set b (pteMaster e) }
      if x.bricks.get b = .s ∨ (x.bricks.get b).owns then s
      else if !(s.onDevice pa && subscribable (pteMaster e) f) then s.setBrickState pa b .s []
      else if fs.any fun (g, _) => g == f then
        s.setBrickState pa b .sub (fs.map fun (g, u) => (g, if g = f then u || dUpd d else u))
      else if fs.length < 4 then s.setBrickState pa b .sub (fs ++ [(f, dUpd d)])
      else s.setBrickState pa b .s []

/-- What the registration of a tile for a sector of its source waits for: room for the line's directory entry (R65, R80). -/
def State.tileRoom (s : State) (cl va : Nat) : Option State :=
  match s.translate (dieOfCluster cl) va false with
  | .error _ => none
  | .ok e =>
    if s.inPool va then none
    else match s.rangeOf (pteAddr e va) with
      | .hostUncached | .peer | .hole => none
      | .hashed | .die _ | .hostCoherent => s.entryRoom (pteAddr e va)

/-- The tile subscribes to the sectors of its source in order; the state after it, and whether all of them had room. -/
def State.subscribeRuns (s : State) (cl i d : Nat) : List (Nat × Nat) → State × Bool
  | [] => (s, true)
  | (a, _) :: runs => match s.tileRoom cl a with
    | some t => (t, false)
    | none => (s.subscribeTile cl i a d).subscribeRuns cl i d runs

/-- The codes of the elements of a source, in the order of the tile's rows. -/
def sourceCodes (master : Nat) (f : Fmt) (bs : List Byte) : List Nat :=
  (lanes (8 * masterSize master) (bs.length / masterSize master) (ofBytes bs)).map (toSub master f)

/-- The writes of a refresh as the guards count them: one for each 256-byte line (R106). -/
def State.countRefresh (s : State) (cl d : Nat) : State :=
  let rows := (List.range (dRows d)).map fun r => (dBase d + r * dPitch d, dRowBytes d)
  (rows.flatMap fun (a, n) => linesOf a n).eraseDups.foldl (fun s l =>
    s.guardedWrites cl ((rows.map fun (a, n) => (max a (l * 256), min (a + n) (l * 256 + 256) - max a (l * 256))).filter
      fun (_, n) => n != 0)) s

/-- The operations set aside whose sources are all current join the tile unit's queue (R222, R223). -/
def State.resumeAside (s : State) (cl : Nat) : State :=
  let k := s.cluster cl
  let ready := k.tileAside.filter fun op => !s.staleSource op
  s.setCluster cl { k with tileAside := k.tileAside.filter fun op => s.staleSource op, tileQ := k.tileQ ++ ready }

/-- A pass without a message has ended: STALE and REFRESH go in one write, and everything that waited goes on (R112, R281). -/
def State.endRefresh (s : State) (cl n : Nat) (r : Refresh) (d : Nat) : State :=
  let d' := dSetRefresh (dSetStale d false) false
  let s := s.putDesc cl r.index (if r.jobs.isEmpty then d' else dNextVersion d')
  let s := if r.jobs.isEmpty then s else s.staleKeys cl r.index
  let k := s.cluster cl
  let s := s.setCluster cl { k with refreshes := listErase k.refreshes n }
  let s := r.jobs.foldl (fun s j => s.jobDone cl j .ok) s
  (s.resumeAside cl).servePending cl

/-- A pass of a refresh has read the whole source, to each sector of which the tile is subscribed: the codes are written into it and
counted (R106); a message that the subscriptions have caused for the tile itself starts the pass again (R78). -/
def State.fillTile (s : State) (cl n : Nat) (r : Refresh) (c : CopyAt) (d : Nat) : State :=
  let master := s.masterAt (dieOfCluster cl) (dSrc d)
  let runs := sectorRuns (dSrc d) (s.sourceBytes cl d)
  let codes := sourceCodes master (dFmt d) (runs.flatMap fun (a, m) => s.copyBytes c a m)
  let s := { s with mem := putTileCodes (dView cl d) 0 0 1 codes 0 s.mem,
                    inflow := s.inflow.filter fun f => f.unit != c.unit }.touchTile cl d
  let s := s.countRefresh cl d
  if s.desc cl r.index = d then s.endRefresh cl n r d else s

/-- The end of a pass, once the tile is subscribed to each sector of its source and the banks of its rows grant the copy unit's
port (R99). -/
def State.finishRefresh (s : State) (cl n : Nat) (r : Refresh) (c : CopyAt) : State :=
  let d := s.desc cl r.index
  match s.subscribeRuns cl r.index d (sectorRuns (dSrc d) (s.sourceBytes cl d)) with
  | (s, false) => s
  | (s, true) => s.withBanks cl copyPort ((tileSpans cl d).map fun (a, m) => (a - tspBase cl, m)) fun s => s.fillTile cl n r c d

/-- What the source of a tile answers. -/
def State.refreshStep (s : State) (cl : Nat) (r : Refresh) : CopyStep :=
  let d := s.desc cl r.index
  s.copyReadAll (s.refreshAt cl d r) rightsRS 4 (sectorRuns (dSrc d) (s.sourceBytes cl d))

/-- Change a refresh of a cluster. -/
def State.setRefresh (s : State) (cl n : Nat) (r : Refresh) : State :=
  let k := s.cluster cl
  s.setCluster cl { k with refreshes := listSet k.refreshes n r }

/-- The message for one of the contexts whose jobs a refresh has absorbed: once it has found a place, the ACTIVE jobs of that
context are in PAGE_WAIT (R111). -/
def State.pageSubmitter (s : State) (cl : Nat) (r : Refresh) (m : PfMsg) (w : Who) : State :=
  match s.pageFault m.die { m with who := w } with
  | none => s
  | some s =>
    let k := s.cluster cl
    let mine := fun (i : Nat) (x : JobSlot) => r.jobs.contains i && x.state == .active && x.who.ctx == w.ctx
    s.setCluster cl { k with jobs := k.jobs.map fun (i, x) => (i, if mine i x then { x with state := .pageWait } else x) }

/-- The contexts whose ACTIVE jobs a refresh has absorbed, each once. -/
def ClusterState.submitters (k : ClusterState) (r : Refresh) : List Who :=
  ((r.jobs.filterMap fun j => Table.get? k.jobs j).filter fun x => x.state == .active).foldl
    (fun ws x => if ws.any fun w => w.ctx == x.who.ctx then ws else ws ++ [x.who]) []

/-- The refresh waits for a page. A message names each context whose job it has absorbed, and the refresh waits once each has found
a place (R111); one that no context asked for names a free CONTEXT_VA. -/
def State.pageRefresh (s : State) (cl n : Nat) (r : Refresh) (cause va : Nat) : State :=
  let die := dieOfCluster cl
  let c := (s.refreshAt cl (s.desc cl r.index) r).who
  if r.jobs.isEmpty then
    let (v, s) := s.draw
    let w := { c with ctx := v.toNat % 2 ^ 56 }
    match s.pageFault die { who := w, cause := cause, access := 4, die := die, va := va } with
    | none => s
    | some s => s.setRefresh cl n { r with pageWait := true, who := w }
  else
    let m : PfMsg := { who := c, cause := cause, access := 4, die := die, va := va }
    let s := ((s.cluster cl).submitters r).foldl (fun s w => s.pageSubmitter cl r m w) s
    if ((s.cluster cl).submitters r).isEmpty then s.setRefresh cl n { r with pageWait := true } else s

/-- TILE_REFRESH_COMPLETE (R78, R112): a pass that a message has interrupted starts again. -/
def execTileRefreshComplete (cluster n : Nat) (s : State) : Result :=
  let k := s.cluster cluster
  match k.refreshes[n]? with
  | none => .next s
  | some r =>
    if !r.running || r.pageWait then .next s
    else if r.again then
      .next (s.setCluster cluster { k with refreshes := listSet k.refreshes n { r with again := false } })
    else match s.refreshStep cluster r with
      | .wait s => .next s
      | .stop _ _ => .next s
      | .page s cause _ va => .next (s.pageRefresh cluster n r cause va)
      | .done s => .next (s.finishRefresh cluster n r (s.refreshAt cluster (s.desc cluster r.index) r))

/-- The class 4 record of a failed refresh (R112, R332, R333). -/
def State.refreshRecord (s : State) (cl i : Nat) : FaultRec :=
  let d := s.desc cl i
  { pc := 0#32, aux := 0#32, code := .refreshFailed, cls := .tile, access := .none, domain := BitVec.ofNat 16 (dDomain d),
    part := BitVec.ofNat 8 (s.domainPart (dDomain d)), die := dieOfCluster cl, gen := 0#16, ctx := 0,
    va := s.handleOf cl i }

/-- What a failed refresh ends: the jobs that it has absorbed, and everything that waits for a STALE tile (R112). -/
def State.failRefresh (s : State) (cl : Nat) (r : Refresh) (st : JobStatus) : State :=
  if dStale (s.desc cl r.index) then s.endStale (s.handleOf cl r.index) r.jobs st
  else r.jobs.foldl (fun s i => s.jobDone cl i st) s

/-- The refresh waits for its source: its home is offline or has no circuit. On a brick that is being reset it fails, since what the
brick has accepted has to complete (R371, assumption 117). -/
def State.refreshWaits (s : State) (cl : Nat) (st : JobStatus) : Bool :=
  (st == .homeOffline || st == .noCircuit) && s.dieLive (dieOfCluster cl)

/-- TILE_REFRESH_FAIL (R112): a protection or poison error of the source. A home that is offline or has no circuit is
waited for. -/
def execTileRefreshFail (cluster n : Nat) (s : State) : Result :=
  let k := s.cluster cluster
  match k.refreshes[n]? with
  | none => .next s
  | some r =>
    if !r.running || r.pageWait || r.again then .next s
    else match s.refreshStep cluster r with
      | .wait _ | .done _ | .page _ _ _ _ => .next s
      | .stop t st =>
        if s.refreshWaits cluster st then .next s
        else
          let c := s.refreshAt cluster (s.desc cluster r.index) r
          let t := { t with inflow := t.inflow.filter fun f => f.unit != c.unit }
          let t := t.putDesc cluster r.index (dSetRefresh (t.desc cluster r.index) false)
          let k := t.cluster cluster
          let t := t.setCluster cluster { k with refreshes := listErase k.refreshes n }
          let t := t.report (t.refreshRecord cluster r.index)
          .next (t.failRefresh cluster r (if st = .poisoned then .poisoned else .protection))

end Sys2Proof.Machine
end

