-- ==== Sys2Proof/Machine/Migration.lean ====
section
/-!
DEFINITION. Machine/Migration.lean: page migration (R53 to R55, R356): the rounds of copying, the freeze and the switch. A frame
may lie in device memory, in host memory or behind an optical port.
-/
namespace Sys2Proof.Machine

/-! ## One line -/

/-- The copy unit as it works for a migration. -/
def State.migrationAt (s : State) (g : Migration) : CopyAt :=
  { unit := .job g.job.1 g.job.2 (((Table.get? (s.cluster g.job.1).jobs g.job.2).map JobSlot.seq).getD 0), who := g.who,
    cluster := g.job.1, held := false }

/-- The address in the new frame of an address in the old one. -/
def Migration.moved (g : Migration) (pa : Nat) : Nat := g.newFrame + (pa - g.oldFrame)

/-- The copies of a sector that stand before the access are taken back: no brick, and for a write not the host either, has a copy
that is newer; for host memory the agent owns the sector (R80). -/
def State.frameCopies (s : State) (va pa : Nat) (write : Bool) : CopyStep :=
  let asked := s.askShare pa va none
  let asked := if write && (asked.dirSector pa).host != .i then asked.snoop .host va pa .inval else asked
  if asked.hasSnoop pa then .wait asked
  else match s.askHost pa write with
    | some s => .wait s
    | none => if !write && s.isPoisoned pa then .stop s .poisoned else .done s

/-- A sector of a frame can be read or written: its home is LIVE and can be reached, and no held write and no earlier request stands
before the access (R33, R66). -/
def State.frameSector (s : State) (c : CopyAt) (va pa : Nat) (write : Bool) : CopyStep :=
  if s.onDevice pa && !s.dieLive (s.homeDie pa) then .stop s .homeOffline
  else if !s.lineOpen c.die pa then .wait s
  else (if s.heldLine pa || (write && decide (s.cycle < s.leaseOf pa)) then CopyStep.wait s
    else match s.unitWaits (some c.unit) pa with
    | some s => .wait s
    | none => s.frameCopies va pa write).atHome (some c.unit) pa

/-- The four sectors of a line. -/
def State.frameLine (s : State) (c : CopyAt) (va pa : Nat) (write : Bool) : CopyStep :=
  [0, 1, 2, 3].foldl (fun (x : CopyStep) k => x.andThen fun s => s.frameSector c (va + 64 * k) (pa + 64 * k) write) (CopyStep.done s)

/-- The circuit to the peer of a frame: NO_CIRCUIT where none leads to it (R368). -/
def State.framePeer (s : State) (c : CopyAt) (pa : Nat) : CopyStep :=
  if s.circuitTo c.die (peerPort pa) then .done s
  else if s.circuitTuning c.die (peerPort pa) then .wait s
  else .stop s .noCircuit

/-- A line of the old frame is ready to be read coherently. -/
def State.frameRead (s : State) (c : CopyAt) (va pa : Nat) : CopyStep :=
  match s.rangeOf pa with
  | .hostUncached => s.copyReadOut c va 256 pa none
  | .peer => (s.framePeer c pa).andThen fun s => s.copyReadOut c va 256 pa (some (peerPort pa))
  | .hashed | .die _ | .hostCoherent | .hole => s.frameLine c va pa false

/-- The bytes of a line that is ready. -/
def State.frameBytes (s : State) (c : CopyAt) (va pa : Nat) : List Byte :=
  match s.rangeOf pa with
  | .hostUncached | .peer => ((s.inflowAt c va 256).map (·.bytes)).getD []
  | .hashed | .die _ | .hostCoherent | .hole => s.cohBytes pa 256

/-- A line of a frame is written. -/
def State.frameWrite (s : State) (c : CopyAt) (va pa : Nat) (bs : List Byte) : CopyStep :=
  match s.rangeOf pa with
  | .hostUncached => .done (s.copyOut c va pa bs.length (.store bs) true none)
  | .peer => (s.framePeer c pa).andThen fun s => .done (s.copyOut c va pa bs.length (.store bs) true (some (peerPort pa)))
  | .hashed | .die _ | .hostCoherent | .hole => (s.frameLine c va pa true).andThen fun s => .done (s.cohPut pa bs)

/-- What was brought for a line is used up. -/
def State.dropInflowAt (s : State) (c : CopyAt) (va : Nat) : State :=
  { s with inflow := s.inflow.filter fun f => !(f.unit == c.unit && f.va == va) }

/-- One line is read coherently from the old frame and written into the new one (R53). -/
def State.migrateLine (s : State) (g : Migration) (l : Nat) : CopyStep :=
  let c := s.migrationAt g
  let pa := l * 256
  let va := g.page + (pa - g.oldFrame)
  (s.frameRead c va pa).andThen fun s =>
    (s.frameWrite c va (g.moved pa) (s.frameBytes c va pa)).andThen fun s => .done (s.dropInflowAt c va)

/-! ## The end of a migration -/

/-- Migration n ends: its held requests are released, and its job ends with a status once what it has written is performed. -/
def State.endMigration (s : State) (n : Nat) (st : JobStatus) : State :=
  match s.migrations[n]? with
  | none => s
  | some g =>
    ({ s with migrations := listErase s.migrations n,
              inflow := s.inflow.filter fun f => f.unit != (s.migrationAt g).unit }.releaseFrozen g).endWith g.job.1 g.job.2 st

/-- The job of a migration has been cancelled (R109). -/
def State.migrationEnding (s : State) (g : Migration) : Option JobStatus :=
  (Table.get? (s.cluster g.job.1).jobs g.job.2).bind JobSlot.ending

/-- Change migration n. -/
def State.setMigration (s : State) (n : Nat) (f : Migration → Migration) : State :=
  match s.migrations[n]? with
  | some g => { s with migrations := listSet s.migrations n (f g) }
  | none => s

/-- The lines of a round that can be moved now are moved; one that cannot be moved at all ends the migration. -/
def State.migrateLines (s : State) (n : Nat) : List Nat → State
  | [] => s
  | l :: ls =>
    match s.migrations[n]? with
    | none => s
    | some g => match s.migrateLine g l with
      | .wait s => State.migrateLines s n ls
      | .page s _ _ _ => State.migrateLines s n ls
      | .stop s st => s.endMigration n st
      | .done s => State.migrateLines (s.setMigration n fun g => { g with pending := g.pending.erase l }) n ls

/-- MIGRATION_ROUND (R53): a round takes over the marked lines and clears their marks; its lines are then copied. -/
def execMigrationRound (n : Nat) (s : State) : Result :=
  match s.migrations[n]? with
  | none => .next s
  | some g =>
    match s.migrationEnding g with
    | some st => .next (s.endMigration n st)
    | none =>
      if g.frozenAt.isSome then .next s
      else if !g.pending.isEmpty then .next (s.migrateLines n g.pending)
      else if g.roundDue then
        .next (s.setMigration n fun g => { g with pending := g.marked, marked := [], rounds := g.rounds + 1 })
      else .next s

/-! ## The freeze (R54) -/

/-- The requests that stand at the homes of a frozen frame are held there. -/
def State.freezeAll (s : State) (g : Migration) : State :=
  s.reqs.foldl (fun s r => match r.phase with
    | .home pa _ _ => if g.holds pa && !r.isNotice then s.freezeReq r pa else s
    | .xlat | .acks _ _ _ | .frozen _ | .turn _ _ _ => s) s

/-- The contexts that context caches hold of a page. -/
def State.pageContexts (s : State) (g : Migration) : List Nat :=
  ((s.cores.flatMap fun (_, x) => x.entries.filterMap fun (_, e) => e.ctx?.map Held.va) ++
    s.clusters.flatMap fun (_, x) => x.ctxL2.map (·.1)).filter fun va => decide (g.page ≤ va) && decide (va < g.page + g.size)

/-- Recalls that take time: the host's copies of the frame, and the contexts of a page of the context pool. -/
def State.askFrame (s : State) (g : Migration) : State :=
  let s := s.dir.foldl (fun s (l, e) =>
    if g.holds (l * 256) then
      [0, 1, 2, 3].foldl (fun s k =>
        if (e.sectors.get k).host ≠ .i then s.snoop .host (e.vaLine * 256 + 64 * k) (l * 256 + 64 * k) .inval else s) s
    else s) s
  (s.pageContexts g).foldl (fun s va => s.expelCtx va) s

/-- The agent asks for the ownership of a frame in host memory, which the switch will zero (R80); none when it has it. -/
def State.ownFrame (s : State) (g : Migration) : Option State :=
  if s.rangeOf g.oldFrame = .hostCoherent then
    g.lines.findSome? fun l => [0, 1, 2, 3].findSome? fun k => s.askHost (l * 256 + 64 * k) true
  else none

/-- A write of the copy unit for a migration is not acknowledged yet. -/
def State.migrationWrites (s : State) (g : Migration) : Bool :=
  s.outReqs.any fun q => q.unit == some (s.migrationAt g).unit && q.posted

/-- The work that still stands in a frozen frame: requests that wait for acknowledgements, open combining entries,
unacknowledged snoops, write-backs, peer leases, and contexts that are held or on their way. -/
def State.frameBusy (s : State) (g : Migration) : Bool :=
  s.reqs.any (fun r => match r.phase with
    | .acks pa _ _ => g.holds pa
    | .home pa _ _ => r.isNotice && g.holds pa && decide (s.cycle < s.leaseOf pa)
    | .xlat | .frozen _ | .turn _ _ _ => false) ||
    s.combine.any (fun c => g.holds c.pa) || s.snoops.any (fun x => g.holds x.pa && !x.acked) ||
    s.dir.any (fun (l, e) => g.holds (l * 256) && decide (s.cycle < e.leaseExp)) || !(s.pageContexts g).isEmpty ||
    (s.transfers.any fun t => decide (g.page ≤ t.va) && decide (t.va < g.page + g.size)) || s.migrationWrites g

/-- Step 1: every cached copy of the frame is recalled and invalidated; dirty data is accepted and marks its line. -/
def State.recallFrame (s : State) (g : Migration) : State :=
  g.lines.foldl (fun s l => [0, 1, 2, 3].foldl (fun s k => s.recallSector (l * 256 + 64 * k)) s) s

/-- The matching entry of a page table and its physical address (R44). -/
def State.ptEntryAt (s : State) (v sz : Nat) : Option (Nat × Nat) :=
  ((List.range 8).map fun i => (s.bucketOf v sz + 32 * i, s.cohWide (s.bucketOf v sz + 32 * i) 32)).find? fun (_, e) =>
    pteMatches e v sz

/-- Every byte of the old frame is zeroed (R55, R356). -/
def State.zeroFrame (s : State) (g : Migration) : State :=
  match s.rangeOf g.oldFrame with
  | .hostUncached | .peer =>
    let c := s.migrationAt g
    let port := if s.rangeOf g.oldFrame = .peer then some (peerPort g.oldFrame) else none
    g.lines.foldl (fun s l => s.copyOut c (g.page + (l * 256 - g.oldFrame)) (l * 256) 256 (.store (List.replicate 256 0)) true port) s
  | .hashed | .die _ | .hostCoherent | .hole => { s with mem := memZero s.mem g.oldFrame g.size }

/-- Steps 3 to 5: the new entry, a `tlbi` of the page in every brick, the release; and the old frame is zeroed. -/
def State.switchFrame (s : State) (n : Nat) (g : Migration) : State :=
  let sz := if g.size = 2 ^ 25 then 1 else 0
  let s := match s.ptEntryAt g.page sz with
    | some (a, e) => s.cohPut a (toBytes 32 (setBits e 111 64 g.newFrame))
    | none => s
  let s := [0, 1, 2, 3].foldl (fun s d => s.tlbiAt d g.page (if sz = 1 then 25 else 16)) s
  (s.zeroFrame g).endMigration n .ok

/-- The frame of migration n is frozen and nothing of it is under way: what is still marked is copied, and the page is switched
once nothing is left to copy and every copy has arrived. -/
def State.copyFrozen (s : State) (n : Nat) (g : Migration) : State :=
  let s := (s.recallFrame g).setMigration n fun g => { g with pending := g.pending ++ g.marked.filter fun l => !g.pending.contains l, marked := [] }
  let s := s.migrateLines n ((s.migrations[n]?.map Migration.pending).getD [])
  match s.migrations[n]? with
  | some h => if h.job = g.job ∧ h.pending = [] ∧ s.migrationWrites h = false then s.switchFrame n h else s
  | none => s

/-- MIGRATION_FREEZE (R54): the first step holds the requests; the page is switched once nothing of it is under way. -/
def execMigrationFreeze (n : Nat) (s : State) : Result :=
  match s.migrations[n]? with
  | none => .next s
  | some g =>
    match s.migrationEnding g with
    | some st => .next (s.endMigration n st)
    | none =>
      match g.frozenAt with
      | none =>
        if g.roundDue || !g.pending.isEmpty then .next s
        else .next ((s.setMigration n fun g => { g with frozenAt := some s.cycle }).freezeAll g)
      | some _ =>
        let asked := (s.freezeAll g).askFrame g
        if asked.frameBusy g then .next asked
        else match asked.ownFrame g with
          | some s => .next s
          | none => .next (asked.copyFrozen n g)

/-- The limit of a freeze, and how often it may be abandoned. -/
def freezeLimit : Nat := 12000
def freezeTries : Nat := 4

/-- MIGRATION_FREEZE_ABANDON (R54): the held requests go on at the old frame, and another round follows, of the lines that are
marked or not copied yet; the 16 rounds of R53 count anew from it (assumption 84). -/
def execMigrationFreezeAbandon (n : Nat) (s : State) : Result :=
  match s.migrations[n]? with
  | none => .next s
  | some g =>
    match g.frozenAt with
    | none => .next s
    | some t =>
      if s.cycle < t + freezeLimit then .next s
      else if g.abandoned + 1 = freezeTries then .next (s.endMigration n .migAbort)
      else
        .next ((s.setMigration n fun g => { g with frozenAt := none, abandoned := g.abandoned + 1, rounds := 0 }).releaseFrozen g)

end Sys2Proof.Machine
end

