-- ==== Sys2Proof/Machine/Outer.lean ====
section
/-!
DEFINITION. Machine/Outer.lean: requests of the host and of peers (R79, R82 to R85, R358, R361 to R363, R368): the list of those
that have reached the device and are not answered, and what answers them.
-/
namespace Sys2Proof.Machine

def State.sendOuter (s : State) (m : OutMsg) : State := { s with outbox := s.outbox ++ [m] }

/-- What a try to answer a request gives: it is answered, or it stays. -/
inductive OuterStep
  | gone (s : State)
  | stay (s : State) (o : OuterReq)
  deriving DecidableEq, Repr

/-- A step of an access of the host at the home of a sector: the access keeps its place in the order while it waits, and leaves it
when it is answered or performed (R66). -/
def OuterStep.atHome (x : OuterStep) (pa : Nat) : OuterStep :=
  match x with
  | .gone s => .gone (s.leaveHome none pa)
  | .stay s o => .stay (if o.performed then s.leaveHome none pa else s.keepPlace none pa) o

/-! ## The host (R79, R358) -/

/-- The host reaches a sector through the HDM range: brick 0's firmware has trained HBM, and the sector's home is LIVE. -/
def State.hostHome (s : State) (pa : Nat) : Bool :=
  s.boot.hbmTrained && s.onDevice pa && s.dieLive (s.homeDie pa)

/-- What a request of the host for one sector waits for at the home, as every other request does (R66, R84); a write that a lease
has held has its turn. -/
def State.hostWaits (s : State) (o : OuterReq) (read : Bool) : Option State :=
  if s.frozenAt o.addr || s.hasSnoop o.addr || (read && s.heldLine o.addr) then some s
  else if o.held.isSome then none
  else s.unitWaits none o.addr

def State.vaOf (s : State) (pa : Nat) : Nat :=
  ((s.dirOf pa).map fun e => e.vaLine * 256).getD (noVaLine * 256) + pa % 256

/-- The home answers a host read: the host then holds the sector, in M where no brick holds it, no peer has a lease on its line and
the line is not one of the context pool (assumption 124). -/
def State.grantHost (s : State) (pa : Nat) : State :=
  let s := match s.dirOf pa with | some _ => s | none => s.ensureDir pa (noVaLine * 256)
  let x := s.dirSector pa
  let alone := (s.poolVaOf pa).isNone && decide (s.leaseOf pa ≤ s.cycle) && [0, 1, 2, 3].all fun b => x.bricks.get b == .i && (x.formats.get b).isEmpty
  let s := if alone then (s.markMigrations pa).dropLoads pa else s
  (s.modifySector pa fun x => { x with host := if alone then .m else .s }).sendOuter (.hostData pa (some (memSector s.mem pa)))

/-- A context of a pool line is recalled from the context caches before the host's access to it (R64, R114, R123). -/
def State.hostAfterRecall (s : State) (o : OuterReq) (go : State → OuterStep) : OuterStep :=
  match s.poolVaOf o.addr with
  | none => go s
  | some va => match s.recallCtx (va / 128 * 128) with
    | (s, false) => .stay s o
    | (s, true) => go s

/-- A host read: poisoned data where no home can serve it; otherwise it takes its turn at the home (R79, R358, R368, R375). -/
def State.hostRead (s : State) (o : OuterReq) : OuterStep :=
  let pa := o.addr
  if s.hostHome pa = false then .gone (s.sendOuter (.hostData pa none))
  else OuterStep.atHome (match s.hostWaits o true with
    | some s => .stay s o
    | none => s.hostAfterRecall o fun s =>
      let asked := (s.otherBricks pa none BrickState.owns).foldl (fun s b => s.snoop (.brick b) (s.vaOf pa) pa .share) s
      if asked.hasSnoop pa then .stay asked o
      else if s.isPoisoned pa || (s.poolVaOf pa).any fun va => s.quarantine.contains (va / 128 * 128) then
        .gone (s.sendOuter (.hostData pa none))
      else match s.dirRoom pa with
        | some s => .stay s o
        | none => .gone (s.grantHost pa)) pa

/-- A host write is dropped, and brick 0's log has it (R358, R368); its DETAIL is a free value, since no reply is named. -/
def State.hostDropped (s : State) (pa : Nat) : State :=
  let (d, s) := s.detailOf none
  s.refused 0 { ctx := 0, gen := 0, domain := 0, part := 0, core := 0, pc := 0, word := 0 } d pa

/-- The acknowledgement of a host write, once every invalidation and update of its sector has been acknowledged (R69). -/
def State.hostAcked (s : State) (o : OuterReq) : OuterStep :=
  if s.hasSnoop o.addr then .stay s o else .gone ((s.tidyDir o.addr).sendOuter (.hostWritten o.addr))

/-- A host write to a line of the context pool is a store there: it is performed while the context is FAULTED or HALTED, with a new
tag (R114, R123), and dropped otherwise (assumption 124). -/
def State.hostPoolWrite (s : State) (va pa : Nat) (bs : List (Option Byte)) : State :=
  match s.poolWrite { ctx := 0, gen := 0, domain := 0, part := 0, core := 0, pc := 0, word := 0 } va bs with
  | (s, true) => s.sendOuter (.hostWritten pa)
  | (s, false) => s.hostDropped pa

/-- A host write is a store at the home, which acknowledges it (R69, R79); the host's own copy of the sector is given up with it. -/
def State.hostWrite (s : State) (o : OuterReq) (bs : List (Option Byte)) : OuterStep :=
  let pa := o.addr
  if o.performed then s.hostAcked o
  else if s.hostHome pa = false then .gone (s.hostDropped pa)
  else OuterStep.atHome (match s.hostWaits o false with
    | some s => .stay s o
    | none =>
      if s.cycle < s.leaseOf pa then .stay s { o with held := some (lineOfAddr pa) }
      else (s.modifySector pa fun x => { x with host := .i }).hostAfterRecall o fun s => match s.poolVaOf pa with
      | some va => .gone (s.hostPoolWrite va pa bs)
      | none =>
        let asked := s.askOwners pa (s.vaOf pa)
        if asked.hasSnoop pa then .stay asked o
        else
          (s.homeWrite pa (s.vaOf pa) [] (mergeBytes (memSector s.mem pa) 0 bs) (fun i => (bs[i]?).join.isSome)
            o.held.isSome).hostAcked { o with performed := true, held := none }) pa

/-! ## Peers (R361 to R363) -/

/-- The brick at which the circuit of a port ends (R365). -/
def State.portDie (s : State) (port : Nat) : Option Nat :=
  [0, 1, 2, 3].find? fun d => s.circuitTo d port

/-- The domain of a port, in that domain's partition (R362). -/
def State.peerAt (s : State) (port die : Nat) (held : Bool) : CopyAt :=
  let domain := bits (regOf s.mortar.talakCfg port) 15 0
  { unit := .peer port,
    who := { ctx := 0, gen := 0, domain := BitVec.ofNat 16 domain, part := BitVec.ofNat 8 (s.domainPart domain),
             core := die * 4096, pc := 0, word := 0 },
    cluster := die * 512, held := held }

/-- The NACK code of a failed access (R361, R368). -/
def nackCode (st : JobStatus) : Nat :=
  match st with
  | .bounds => 3
  | .poisoned => 4
  | .homeOffline => 5
  | .ok | .cancelled | .protection | .noCircuit | .migAbort | .expired => 2

def State.nackPeer (s : State) (port : Nat) (st : JobStatus) : State := s.sendOuter (.talakNack port (nackCode st))

/-- A step of an access as an answer to a peer; a page fault is answered as PROTECTION. -/
def CopyStep.outer (x : CopyStep) (port : Nat) (o : OuterReq) (f : State → OuterStep) : OuterStep :=
  match x with
  | .done s => f s
  | .stop s st => .gone (s.nackPeer port st)
  | .page s _ _ _ => .gone (s.nackPeer port .protection)
  | .wait s => .stay s o

def State.dropInflow (s : State) (c : CopyAt) : State := { s with inflow := s.inflow.filter fun f => f.unit != c.unit }

/-- A GET (R361, R362): of a register in the form of R30, or of bytes. -/
def State.peerGet (s : State) (c : CopyAt) (port : Nat) (o : OuterReq) (len : Nat) : OuterStep :=
  match targetOf o.addr with
  | .reg die off =>
    let (b, r) := blockAt die off
    if s.listRights c.who.domain.toNat c.who.part.toNat o.addr rightsR = false ∨ (registerFault die b r len).isSome then
      .gone (s.nackPeer port .protection)
    else .gone (s.sendOuter (.talakData port (s.readRegister die b r) len))
  | .hole | .paged | .clm _ _ | .tsp _ _ =>
    let rs := sectorRuns o.addr len
    (s.copyReadAll c rightsR 0 rs).outer port o fun s =>
      .gone ((s.dropInflow c).sendOuter (.talakData port (ofBytes (rs.flatMap fun (a, n) => s.copyBytes c a n)) len))

/-- The step by which a write to the register window is performed (R401). -/
def registerStep (w : RegAccess) : Instr :=
  if (registerFault w.die.val w.block w.offset w.width).isSome then .registerWrite w
  else match ownRow w.block w.offset with
    | some .lqPtr => .launchQueueTailWrite w
    | some .pfqPtr => .pfqHeadWrite w
    | some .elogLost => .elogLostClear w
    | some .partRect => .partRectWrite w
    | some .ctCommit => .ctCommit w
    | some .brickState => .brickQuiesce w
    | some .attGo => .attGo w
    | none => .registerWrite w

/-- A step that performs a peer's write to a register. -/
def Instr.isPeerWrite (i : Instr) : Bool :=
  match i with
  | .registerWrite w | .launchQueueTailWrite w | .pfqHeadWrite w | .elogLostClear w | .partRectWrite w | .ctCommit w
  | .brickQuiesce w | .attGo w => (match w.src with | .talak _ => true | .host | .ctx _ => false)
  | _ => false

/-- A PUT to the register window becomes the next step of the device, after those that peers have put there before it, when it has the
form of R30; that step acknowledges it. -/
def State.peerRegister (s : State) (c : CopyAt) (port die off : Nat) (o : OuterReq) (bs : List (Option Byte)) : State :=
  let (b, r) := blockAt die off
  let w : RegAccess := { die := Fin.ofNat 4 die, block := b, offset := r, width := bs.length,
                         value := BitVec.ofNat 64 (ofBytes (bs.map fun x => x.getD 0)), src := .talak (Fin.ofNat 8 port) }
  if s.listRights c.who.domain.toNat c.who.part.toNat o.addr rightsW = false ∨ bs.all Option.isSome = false ∨
      (registerFault die b r bs.length).isSome ∨ b = .capability then s.nackPeer port .protection
  else { s with agenda := s.agenda.takeWhile Instr.isPeerWrite ++ registerStep w :: s.agenda.dropWhile Instr.isPeerWrite }

/-- The write of a peer is performed; its acknowledgements may be outstanding (R363). -/
def State.peerAcked (s : State) (c : CopyAt) (o : OuterReq) : Bool :=
  !(s.outReqs.any fun q => q.unit == some c.unit && q.posted) &&
    match targetOf o.addr, s.translate c.die o.addr true with
    | .paged, .ok e => [0, 1, 2, 3].all fun k => !s.hasSnoop (pteAddr e o.addr / 256 * 256 + 64 * k)
    | _, _ => true

/-- Bytes of a peer are written as a line of the copy unit is, and counted in a TSP (R106, R363). -/
def State.peerPut (s : State) (c : CopyAt) (o : OuterReq) (bs : List (Option Byte)) : CopyStep :=
  let ws := ((List.range bs.length).filterMap fun i => ((bs[i]?).join).map fun b => (o.addr + i, b))
  s.copyLinePut c (o.addr / 256) ws

/-- The write of a peer at its home, then the answer once it is acknowledged. -/
def State.peerWrite (s : State) (c : CopyAt) (port : Nat) (o : OuterReq) (write : State → CopyStep) (answer : State → State)
    (after : OuterReq) : OuterStep :=
  if o.performed then (if s.peerAcked c o then .gone (answer s) else .stay s o)
  else
    let line := s.leasedLine c o.addr
    (write s).outer port { o with held := if line.isSome then line else o.held } fun s =>
      let done : OuterReq := { after with performed := true, held := none }
      if s.peerAcked c o then .gone (answer s) else .stay s done

def talakFn (op : TalakAtomicOp) (e : Nat) : AtomicFn :=
  match op with | .add => .add | .swap => .swap | .cas => .cas e

/-- The current value of an aligned word that `copyWrite` has made ready. -/
def State.peerValue (s : State) (c : CopyAt) (va n : Nat) : Nat :=
  match targetOf va, s.translate c.die va true with
  | .paged, .ok e => memNat s.mem (pteAddr e va) n
  | .paged, .error _ => 0
  | .tsp _ _, _ | .clm _ _, _ | .reg _ _, _ | .hole, _ => memNat s.mem va n

/-- An ATOMIC needs an aligned word of a CLM, a TSP or a page, R, W and A rights, and data that is not poisoned; the atomics of
peers are among those that host-uncached memory and peers take (R274). -/
def State.peerAtomicBad (s : State) (c : CopyAt) (va n : Nat) : Option JobStatus :=
  if va % n ≠ 0 ∨ s.listRights c.who.domain.toNat c.who.part.toNat va rightsRWA = false then some .protection
  else match targetOf va, s.translate c.die va true with
    | .paged, .ok e => match s.rangeOf (pteAddr e va) with
      | .hostUncached | .peer => none
      | .hashed | .die _ | .hostCoherent | .hole => if s.isPoisoned (pteAddr e va) then some .poisoned else none
    | .paged, .error _ => some .protection
    | .tsp _ _, _ | .clm _ _, _ => if s.isPoisoned va then some .poisoned else none
    | .reg _ _, _ | .hole, _ => some .protection

/-- The physical address of a word outside the device, and the optical port that leads to it, if it is a peer's. -/
def State.outsideWord (s : State) (c : CopyAt) (va : Nat) : Option (Nat × Option Nat) :=
  match targetOf va, s.translate c.die va true with
  | .paged, .ok e => match s.rangeOf (pteAddr e va) with
    | .hostUncached => some (pteAddr e va, none)
    | .peer => some (pteAddr e va, some (peerPort (pteAddr e va)))
    | .hashed | .die _ | .hostCoherent | .hole => none
  | _, _ => none

/-- An ATOMIC of a peer on a word outside the device goes on as an AtomicOp or as a Talak ATOMIC (R274, R359, R361). -/
def State.peerAtomicOut (s : State) (c : CopyAt) (port : Nat) (o : OuterReq) (fn : AtomicFn) (n x pa : Nat) (outPort : Option Nat) :
    OuterStep :=
  ((s.copyWrite c (o.addr / 64 * 64)).andThen fun s => s.copyAskOut c o.addr n pa (.atomic fn x) outPort).outer port o fun s =>
    let old := ((s.inflowAt c o.addr n).map fun f => ofBytes f.bytes).getD 0
    .gone ((s.dropInflow c).sendOuter (.talakData port old n))

/-- An ATOMIC of a peer; once it is performed, e of the request holds the old value. -/
def State.peerAtomic (s : State) (c : CopyAt) (port : Nat) (o : OuterReq) (op : TalakAtomicOp) (n x e : Nat) : OuterStep :=
  if o.performed then (if s.peerAcked c o then .gone (s.sendOuter (.talakData port e n)) else .stay s o)
  else match s.peerAtomicBad c o.addr n, s.outsideWord c o.addr with
    | some st, _ => .gone (s.nackPeer port st)
    | none, some (pa, outPort) => s.peerAtomicOut c port o (talakFn op e) n x pa outPort
    | none, none =>
      let line := s.leasedLine c o.addr
      (s.copyWrite c (o.addr / 64 * 64)).outer port { o with held := if line.isSome then line else o.held } fun s =>
        let old := s.peerValue c o.addr n
        let new := ((talakFn op e).eval n old x).1
        let ws := (List.range n).map fun i => (o.addr + i, (toBytes n new)[i]?.getD 0)
        (s.copyPut c (o.addr / 64 * 64) (sectorPlaces (o.addr / 64 * 64) ws)).outer port o fun s =>
          if s.peerAcked c o then .gone (s.sendOuter (.talakData port old n))
          else .stay s { o with op := .atomic op n x old, performed := true, held := none }

/-! ## Leases (R82 to R86) -/

/-- Nanoseconds as home-brick cycles, rounded up (R86). -/
def leaseCycles (ns : Nat) : Nat := (7 * ns + 3) / 4

/-- The port runs the compatibility lease (R85). -/
def State.compatPort (s : State) (die port : Nat) : Bool := bit (s.brick die).portCompat.toNat port

/-- The duration of a lease on a line: COH_LEASE, or the line's compatibility lease (R85, R86). -/
def State.leaseNs (s : State) (die port : Nat) (e : DirEntry) : Nat :=
  let b := s.brick die
  if s.compatPort die port then min (2 ^ e.compatLog2) b.cohLeaseMax.toNat else b.cohLease.toNat

/-- A grant: the entry's expiry is raised, and the reply says how long the lease lasts. -/
def State.grantLease (s : State) (port pa : Nat) (e : DirEntry) (data : Bool) : State :=
  let die := s.homeDie pa
  let ns := s.leaseNs die port e
  let s := s.putDir pa { e with leaseExp := max e.leaseExp (s.cycle + leaseCycles ns) }
  let line := if data then some (memNat s.mem (pa / 256 * 256) 256) else none
  s.sendOuter (.talakLease port line ns e.version)

/-- What stands before a read of a whole device line for a peer: R rights, the home's state, copies in E or M of bricks or
of the host, poison. A line that is not on the device, or one of the context pool, has no lease (assumption 88). -/
def State.leaseReady (s : State) (c : CopyAt) (o : OuterReq) : CopyStep :=
  let va := o.addr / 256 * 256
  match targetOf va, s.translate c.die va false with
  | .paged, .ok e =>
    if s.onDevice (pteAddr e va) = false ∨ s.inPool va then .stop s .protection
    else (if s.heldLine (pteAddr e va) then CopyStep.wait s
    else (s.copyReadAll c rightsR 0 (sectorRuns va 256)).andThen fun s =>
      match s.dirRoom (pteAddr e va) with
      | some s => .wait s
      | none => .done (s.ensureDir (pteAddr e va) va)).atHome (some c.unit) (pteAddr e va)
  | _, _ => .stop s .protection

/-- GET_LEASE and RENEW: the entry before the grant, and whether the line goes with the reply (R82, R83, R85). -/
def State.peerLease (s : State) (c : CopyAt) (port : Nat) (o : OuterReq) (renew : Option (BitVec 32)) : OuterStep :=
  (s.leaseReady c o).outer port o fun s =>
    let va := o.addr / 256 * 256
    match s.translate c.die va false with
    | .error _ => .gone (s.nackPeer port .protection)
    | .ok t =>
      let pa := pteAddr t va
      match s.dirOf pa with
      | none => .stay s o
      | some e =>
        if s.compatPort (s.homeDie pa) port then
          let grown := if renew.isSome && !e.written then e.compatLog2 + 1 else e.compatLog2
          let top := (s.brick (s.homeDie pa)).cohLeaseMax.toNat
          let log2 := if 2 ^ grown ≤ top then grown else e.compatLog2
          .gone (s.grantLease port pa { e with compatLog2 := log2, written := false } true)
        else .gone (s.grantLease port pa e (renew != some e.version))

/-! ## Serving -/

/-- Try to answer one request. -/
def State.serveOuter (s : State) (o : OuterReq) : OuterStep :=
  match o.port with
  | none => match o.op with
    | .hostRead => s.hostRead o
    | .hostWrite bs => s.hostWrite o bs
    | .get _ | .lease | .renew _ | .put _ | .atomic _ _ _ _ => .gone s
  | some port =>
    match s.portDie port with
    | none => .stay s o
    | some die =>
      let c := s.peerAt port die o.held.isSome
      match o.op with
      | .hostRead | .hostWrite _ => .gone s
      | .get len => s.peerGet c port o len
      | .lease => s.peerLease c port o none
      | .renew v => s.peerLease c port o (some v)
      | .put bs =>
        match targetOf o.addr with
        | .reg d off => .gone (s.peerRegister c port d off o bs)
        | .hole | .paged | .clm _ _ | .tsp _ _ =>
          s.peerWrite c port o (fun s => s.peerPut c o bs) (fun s => s.sendOuter (.talakAck port)) o
      | .atomic op n x e => s.peerAtomic c port o op n x e

/-- The first and the last sector that a request touches. -/
def OuterReq.sectors (o : OuterReq) : Nat × Nat :=
  match o.op with
  | .hostRead | .hostWrite _ => (o.addr / 64, o.addr / 64)
  | .lease | .renew _ => (o.addr / 256 * 4, o.addr / 256 * 4 + 3)
  | .get n => (o.addr / 64, (o.addr + n - 1) / 64)
  | .put bs => (o.addr / 64, (o.addr + bs.length - 1) / 64)
  | .atomic _ n _ _ => (o.addr / 64, (o.addr + n - 1) / 64)

def OuterReq.isPut (o : OuterReq) : Bool := match o.op with | .put _ => true | _ => false

/-- Two requests touch a sector in common, or are two PUTs to one line, whose order is kept (R81, R363). -/
def OuterReq.meets (o p : OuterReq) : Bool :=
  (decide (o.sectors.1 ≤ p.sectors.2) && decide (p.sectors.1 ≤ o.sectors.2)) ||
    (o.isPut && p.isPut && o.addr / 256 == p.addr / 256)

/-- A request waits behind an earlier one of the same agent that it meets. -/
def outerBehind (o : OuterReq) : List OuterReq → Bool
  | [] => false
  | p :: ps => if p = o then false else (p.port == o.port && p.meets o) || outerBehind o ps

/-- Every request that can be answered now is answered, oldest first. -/
def State.serveOuters (s : State) : State :=
  s.outers.foldl (fun s o =>
    if outerBehind o s.outers then s
    else match s.serveOuter o with
      | .gone s => { s with outers := s.outers.erase o }
      | .stay s p => { s with outers := s.outers.map fun q => if q = o then p else q }) s

/-- A request arrives. -/
def State.outerArrives (s : State) (port : Option Nat) (addr : Nat) (op : OuterOp) : State :=
  let o : OuterReq := { port := port, addr := addr, op := op, held := none, performed := false }
  { s with outers := s.outers ++ [o] }.serveOuters

/-- A peer's request at an offset of its export window (R362). -/
def State.peerArrives (s : State) (port off : Nat) (op : OuterOp) : State :=
  let cfg := regOf s.mortar.talakCfg port
  if (s.portDie port).isNone then s
  else if bit cfg 31 = false ∨ 2 ^ bits cfg 21 16 ≤ off then s.nackPeer port .bounds
  else s.outerArrives (some port) (bits (regOf s.mortar.talakVbase port) 55 0 + off) op

end Sys2Proof.Machine
end

