-- ==== Sys2Proof/Machine/HostPort.lean ====
section
/-!
DEFINITION. Machine/HostPort.lean: the steps of the host port and of the optical ports (R79, R80, R82 to R85, R357 to R363):
accesses of the host, PCIe completions, requests of peers, and the replies to the device's own requests.
-/
namespace Sys2Proof.Machine

/-! ## Held writes -/

/-- HELD_WRITE_LEASE_EXPIRY (R84): request n, held at its home, is performed when the lease has expired; a number beyond
the requests stands for the writes of the host and of peers. -/
def execHeldWriteLeaseExpiry (n : Nat) (s : State) : Result :=
  match s.reqs[n]? with
  | none => .next s.serveOuters
  | some r =>
    if r.heldUntil = 0 then .next s
    else match r.op, r.phase with
      | .store bs, .home pa wr master => .next (s.storeAtHome n r bs pa wr master true)
      | .atomic fn x, .home pa _ _ => .next (s.atomicAtHome n r fn x pa true)
      | .cwb, .home pa _ _ => .next (s.cwbAtHome n r pa)
      | .notice d, .home pa _ _ => .next (s.noticeAtHome n r d pa)
      | _, _ => .next s

/-! ## The host -/

/-- Device physical addresses that the HDM range covers (R358). -/
def hdmEnd : Nat := 0x020000000000

/-- A host read of the region at index 0, from reset on (R30, R358, R375); where R30 refuses it the host receives no value
(assumption 116). -/
def State.hostRegion (s : State) (o size : Nat) : State :=
  match targetOf (0x00FC000000000000 + o) with
  | .reg die off =>
    let (b, r) := blockAt die off
    s.sendOuter (.hostRegister o
      (if (registerFault die b r size).isSome then none else some (BitVec.ofNat 64 (s.readRegister die b r))))
  | .paged | .clm _ _ | .tsp _ _ | .hole => s

/-- HOST_CXL_MEM_READ (R79, R358): of memory through the HDM range, or of a register through the region at index 0. -/
def execHostCxlMemRead (at_ : HostRead) (s : State) : Result :=
  .next (match at_ with
    | .hdm pa => if pa < hdmEnd then s.outerArrives none (pa / 64 * 64) .hostRead else s
    | .region o size => if o < 2 ^ 34 then s.hostRegion o size else s)

/-- HOST_CXL_MEM_WRITE (R79, R358): bytes inside one sector. -/
def execHostCxlMemWrite (pa : Nat) (bytes : List Byte) (s : State) : Result :=
  if pa < hdmEnd ∧ bytes ≠ [] ∧ pa % 64 + bytes.length ≤ 64 then
    .next (s.outerArrives none (pa / 64 * 64)
      (.hostWrite ((List.range 64).map fun i => if i < pa % 64 then none else bytes[i - pa % 64]?)))
  else .next s

/-- The bricks that hold a sector of host memory in E or M fall to S, with their dirty data (R80). -/
def State.shareHost (s : State) (pa : Nat) : State :=
  let va := s.vaOf pa
  (s.otherBricks pa none BrickState.owns).foldl (fun s b =>
    ((s.writeBackBrick b va pa false).mapCopies b va fun c => if c.st = .m ∨ c.st = .e then { c with st := .s } else c).setBrickState
      pa b .s []) s

/-- HOST_SNOOP (R80): the agent passes it to the bricks that hold the sector, and yields the device's ownership; dirty data
goes with the answer. -/
def execHostSnoop (pa : Nat) (excl : Bool) (s : State) : Result :=
  if s.rangeOf pa = .hostCoherent then
    let p := sectorOf pa
    let own := s.agentOwns (lineOfAddr p)
    let s := if excl then s.recallSector p else s.shareHost p
    let left := if excl ∨ own.get (sectorIndex p) = .i then HostState.i else .s
    let data := if own.get (sectorIndex p) = .m then some (memSector s.mem p) else none
    .next (({ s with dcaOwn := Table.set s.dcaOwn (lineOfAddr p) (own.set (sectorIndex p) left) }.tidyDir p).sendOuter
      (.hostSnooped p data))
  else .next s

/-! ## Replies to the device's own requests (R359, R361) -/

/-- What a read that has come back gives (R68: the requester converts). -/
def OutReq.value (q : OutReq) (data : Nat) : Nat :=
  let v := data % 2 ^ (8 * q.size)
  match q.op with
  | .subscribe f _ => toSub q.master f v
  | .load | .store _ | .atomic _ _ | .feset _ | .ldfe | .stfe _ | .barrier _ _ | .swait _ | .sarm _ _ _ _ | .cwb | .cinv
  | .prefetch _ | .notice _ => v

/-- An access outside the device is over. -/
def State.dropOut (s : State) (n : Nat) (q : OutReq) : State :=
  { s with outReqs := listErase s.outReqs n,
           outbox := (s.outbox.erase (.pcie q)).erase (.talak (peerPort q.pa) q) }

/-- A read or atomic outside the device returns data: to its thread, or to the copy unit. The read of a fence's probe returns
nothing: the probe then echoes (R263). -/
def State.outDone (s : State) (q : OutReq) (data : Nat) : State :=
  match q.unit with
  | some u =>
    { s with inflow := s.inflow ++ [{ unit := u, va := q.va, bytes := toBytes q.size data, bad := none }] }
  | none =>
    if q.isProbe then s
    else
    let s := if q.acq then s.acquireAt (dieOfCore q.who.core) else s
    let s := if q.reply = .reissue then s.deposit q.who q.va (q.value data) else s
    if q.posted then s else s.reply q.who 1 (q.reply.body (q.value data) 0)

/-- An access outside the device fails: the fault in its reply, the deferred error of a PUT, or the status of a job. The
brick is the one from which the request came (R332, R390). -/
def State.outFault (s : State) (q : OutReq) (c : FaultCode) (st : JobStatus) : State :=
  match q.unit with
  | some u => { s with inflow := s.inflow ++ [{ unit := u, va := q.va, bytes := [], bad := some st }] }
  | none =>
    if q.isProbe then s
    else
    let die := dieOfCore q.who.core
    if q.posted then
      let (d, s) := s.detailOf (if c = .protection then some 2 else none)
      { s.refused die q.who d q.va with nacks := s.nacks ++ [(q.who.ctx, q.who.gen, q.who.pc)] }
    else s.reply q.who 1 (.fault c q.op.access (replyAux q.who c) q.va die)

/-- The access n, when it went over PCIe (R359). -/
def State.pcieOut (s : State) (n : Nat) : Option OutReq := (s.outReqs[n]?).filter fun q => s.rangeOf q.pa == .hostUncached

/-- The access n, when it went to an optical port (R361). -/
def State.talakOut (s : State) (n : Nat) : Option OutReq := (s.outReqs[n]?).filter fun q => s.rangeOf q.pa == .peer

/-- PCIE_COMPLETION (R359). -/
def execPcieCompletion (n : Nat) (r : PcieResult) (s : State) : Result :=
  match s.pcieOut n with
  | none => .next s
  | some q =>
    let s := s.dropOut n q
    match r with
    | .data v => .next (s.outDone q v.toNat)
    | .abort => .next (s.outFault q .protection .protection)
    | .poisoned => .next (s.outFault q .poisonedData .poisoned)

def pcieTimeout : Nat := 2 ^ 26

/-- PCIE_COMPLETION_TIMEOUT (R359): PROTECTION, and a TARGET_REFUSED entry. -/
def execPcieCompletionTimeout (n : Nat) (s : State) : Result :=
  match s.pcieOut n with
  | none => .next s
  | some q =>
    if s.cycle < q.sentAt + pcieTimeout then .next s
    else if q.isProbe then .next (s.dropOut n q)
    else .next (((s.dropOut n q).refused (dieOfCore q.who.core) q.who 2 q.va).outFault q .protection .protection)

/-- TALAK_REPLY (R361): the data of a GET, up to 256 bytes, or the old value of an ATOMIC. -/
def execTalakReply (n : Nat) (data : BitVec 2048) (s : State) : Result :=
  match s.talakOut n with
  | some q => .next (if q.posted then s else (s.dropOut n q).outDone q data.toNat)
  | none => .next s

/-- TALAK_ACK (R363): a PUT counts as acknowledged. -/
def execTalakAck (n : Nat) (s : State) : Result :=
  match s.talakOut n with
  | some q => .next (if q.posted then s.dropOut n q else s)
  | none => .next s

/-- The fault of a NACK code (R361); other codes are not sent. -/
def nackFault (code : Nat) : Option (FaultCode × JobStatus) :=
  match code with
  | 2 => some (.protection, .protection)
  | 3 => some (.bounds, .bounds)
  | 4 => some (.poisonedData, .poisoned)
  | 5 => some (.homeOffline, .homeOffline)
  | _ => none

/-- TALAK_NACK (R361). -/
def execTalakNack (n code : Nat) (s : State) : Result :=
  match s.talakOut n, nackFault code with
  | some q, some (c, st) => .next ((s.dropOut n q).outFault q c st)
  | _, _ => .next s

/-- TALAK_FLIT_CRC_RETRY (R361): the link sends the flit again, and no request is performed twice: nothing else changes. -/
def execTalakFlitCrcRetry (_n : Nat) (s : State) : Result := .next s

/-! ## Requests of peers (R362, R363) -/

/-- TALAK_GET (R361, R362): up to 256 bytes within one line. -/
def execTalakGet (port : Fin 8) (off len : Nat) (s : State) : Result :=
  .next (if len = 0 ∨ 256 < off % 256 + len then s else s.peerArrives port.val off (.get len))

/-- TALAK_GET_LEASE (R82). -/
def execTalakGetLease (port : Fin 8) (off : Nat) (s : State) : Result := .next (s.peerArrives port.val off .lease)

/-- TALAK_RENEW (R83, R85). -/
def execTalakRenew (port : Fin 8) (off : Nat) (ver : BitVec 32) (s : State) : Result :=
  .next (s.peerArrives port.val off (.renew ver))

/-- TALAK_PUT (R363): masked bytes within one line. -/
def execTalakPut (port : Fin 8) (off : Nat) (bytes : List (Option Byte)) (s : State) : Result :=
  .next (if bytes = [] ∨ 256 < off % 256 + bytes.length then s else s.peerArrives port.val off (.put bytes))

/-- TALAK_ATOMIC (R361, R363): x is the operand, e the expected value of a compare-and-swap. -/
def execTalakAtomic (port : Fin 8) (off : Nat) (op : TalakAtomicOp) (w : AWidth) (x e : BitVec 64) (s : State) : Result :=
  let n := match w with | .w64 => 8 | .w32 => 4
  .next (s.peerArrives port.val off (.atomic op n (x.toNat % 2 ^ (8 * n)) (e.toNat % 2 ^ (8 * n))))

end Sys2Proof.Machine
end

