-- ==== Sys2Proof/Machine/Mortar.lean ====
section
/-!
DEFINITION. Machine/Mortar.lean: the connection table and its commits (R364 to R367), the UCIe modules of a brick (R369), and
the warm reset of a brick (R370, R371).
-/
namespace Sys2Proof.Machine

/-! ## Entries of the connection table (R365) -/

def ctEntries : Nat := 64

def ctValid (e : Nat) : Bool := bit e 63
def ctLink (e : Nat) : Nat := bits e 62 61
def ctExt (e : Nat) : Bool := bit e 15
def ctBrickB (e : Nat) : Nat := bits e 11 10
def ctPortB (e : Nat) : Nat := bits e 9 6
def ctBrickA (e : Nat) : Nat := bits e 5 4
def ctPortA (e : Nat) : Nat := bits e 3 0

def ctSetLink (e v : Nat) : Nat := setBits e 62 61 v

/-- Endpoint A: a brick and a circuit port of it. -/
def ctEndA (e : Nat) : Nat × Nat := (ctBrickA e, ctPortA e)

/-- Endpoint B: a brick and a circuit port of it, or (4, an off-package port). -/
def ctEndB (e : Nat) : Nat × Nat := if ctExt e then (4, ctPortB e) else (ctBrickB e, ctPortB e)

/-- A valid entry joins a brick to anything. -/
def ctNames (e d : Nat) : Bool := ctBrickA e == d || (!ctExt e && ctBrickB e == d)

/-- Entry n of a table; an absent one reads zero. -/
def ctEntry (t : Table (BitVec 64)) (n : Nat) : Nat := ((Table.get? t n).getD 0#64).toNat

/-- The entries of a table with their numbers. -/
def ctAll (t : Table (BitVec 64)) : List (Nat × Nat) := (List.range ctEntries).map fun n => (n, ctEntry t n)

/-! ## The checks of a commit (R367) -/

/-- REASON 1: a field that has to be zero is not, in any entry. -/
def ctReserved (e : Nat) : Bool := ctLink e != 0 || bits e 60 16 != 0 || bits e 14 12 != 0 || (ctExt e && ctBrickB e != 0)

/-- REASON 2: the entry shares a port with an entry after it. -/
def ctShares (t : Table (BitVec 64)) (n e : Nat) : Bool :=
  (ctAll t).any fun (m, x) => decide (n < m) && ctValid x &&
      [ctEndA x, ctEndB x].any fun p => p == ctEndA e || p == ctEndB e

/-- REASON 3. -/
def ctMisjoined (e : Nat) : Bool := if ctExt e then decide (7 < ctPortB e) else ctBrickA e == ctBrickB e

/-- Two bricks share a circuit. -/
def ctJoined (t : Table (BitVec 64)) (a b : Nat) : Bool :=
  (ctAll t).any fun (_, e) => ctValid e && !ctExt e &&
    ((ctBrickA e == a && ctBrickB e == b) || (ctBrickA e == b && ctBrickB e == a))

/-- A brick that a table has to join to the others. -/
def State.dieJoins (s : State) (d : Nat) : Bool :=
  s.mortar.bricks.get d == .live || s.mortar.bricks.get d == .admitting

/-- REASON 4. -/
def State.ctApart (s : State) : Bool :=
  [(0, 1), (0, 2), (0, 3), (1, 2), (1, 3), (2, 3)].any fun (a, b) =>
    s.dieJoins a && s.dieJoins b && !ctJoined s.mortar.shadow a b

/-- REASON 5. -/
def State.ctNamesDown (s : State) (e : Nat) : Bool := [0, 1, 2, 3].any fun d => ctNames e d && !s.dieJoins d

/-- The first reason to refuse the shadow table, with the first entry that gives it; REASON 4 names no entry. -/
def State.ctRefusal (s : State) : Option (Nat × Option Nat) :=
  let t := s.mortar.shadow
  let first := fun (p : Nat → Nat → Bool) => ((ctAll t).find? fun (n, e) => p n e).map fun (n, _) => n
  match first fun _ e => ctReserved e with
  | some n => some (1, some n)
  | none => match first fun n e => ctValid e && ctShares t n e with
    | some n => some (2, some n)
    | none => match first fun _ e => ctValid e && ctMisjoined e with
      | some n => some (3, some n)
      | none =>
        if s.ctApart then some (4, none)
        else (first fun _ e => ctValid e && s.ctNamesDown e).map fun n => (5, some n)

/-! ## A commit (R364, R367) -/

def ctBusy (m : Mortar) : Bool := bits m.ctStatus.toNat 1 0 == 1

/-- The table in force while its added circuits are tuned: a circuit between the same endpoints keeps its LINK, every
other valid entry is being tuned, and what the shadow does not hold is torn down. -/
def ctTuned (m : Mortar) : Table (BitVec 64) :=
  (ctAll m.shadow).filterMap fun (n, e) =>
    if !ctValid e then none
    else
      let old := (ctAll m.active).find? fun (_, x) => ctValid x && bits x 15 0 == bits e 15 0
      some (n, BitVec.ofNat 64 (ctSetLink e (match old with | some (_, x) => ctLink x | none => 1)))

/-- The circuits of a table between two bricks: their entries and endpoints. -/
def ctPair (t : Table (BitVec 64)) (a b : Nat) : List (Nat × Nat) :=
  ((ctAll t).filter fun (_, e) => ctValid e && !ctExt e && brickPair (ctBrickA e) (ctBrickB e) == brickPair a b).map
    fun (n, e) => (n, bits e 15 0)

/-- The pairs of bricks whose circuits a commit changes: their messages wait for its end (R33, R367). A message that has been sent
has arrived, so none is left to drain (assumption 111). -/
def ctChanged (m : Mortar) : List (Nat × Nat) :=
  [(0, 1), (0, 2), (0, 3), (1, 2), (1, 3), (2, 3)].filter fun (a, b) => ctPair m.active a b != ctPair m.shadow a b

/-- Mortar refuses a table: CT_STATUS says REFUSED, the reason and the entry. -/
def State.refuseTable (s : State) (reason : Nat) (entry : Option Nat) : State :=
  let (n, s) : Nat × State := match entry with
    | some n => (n, s)
    | none =>
      (let (v, s) := s.draw
       (v.toNat % ctEntries, s))
  { s with mortar := { s.mortar with ctStatus := BitVec.ofNat 64 (2 + reason * 2 ^ 8 + n * 2 ^ 16) } }

/-- CT_COMMIT (R364, R367): values other than 1, and a write while a commit is in progress, are refused. -/
def execCtCommit (w : RegAccess) (s : State) : Result :=
  .next (s.ownWrite w .ctCommit fun s v =>
    if v != 1 || ctBusy s.mortar then none
    else match s.ctRefusal with
      | some (reason, entry) => some (s.refuseTable reason entry)
      | none => some { s with mortar := { s.mortar with ctStatus := 1#64, active := ctTuned s.mortar,
                                                        commitAt := some s.cycle, holding := ctChanged s.mortar } })

/-- A brick's state changes, which vector 5 signals (R358, R370). -/
def State.setDie (s : State) (d : Nat) (x : DieState) : State :=
  { s with mortar := { s.mortar with bricks := s.mortar.bricks.set d x }, outbox := s.outbox ++ [.msix 5] }

/-- A brick becomes LIVE: the entries in its spill area are reloaded (R311, R371). -/
def State.admitDie (s : State) (d : Nat) : State :=
  let b := s.brick d
  (s.setBrick d { b with ready := b.ready.map fun e => { e with since := s.cycle } }).setDie d .live

/-- CIRCUIT_TUNING_COMPLETE (R367): the circuits that are being tuned are up, and the commit ends. -/
def execCircuitTuningComplete (s : State) : Result :=
  if !ctBusy s.mortar then .next s
  else
    let up := fun (x : BitVec 64) => if ctLink x.toNat = 1 then BitVec.ofNat 64 (ctSetLink x.toNat 2) else x
    let t := { s with mortar := { s.mortar with active := s.mortar.active.map fun (n, x) => (n, up x), ctStatus := 0#64,
                                                commitAt := none, holding := [] } }
    .next ([0, 1, 2, 3].foldl (fun (t : State) d => if s.mortar.bricks.get d = .admitting then t.admitDie d else t) t)

/-- Tuning completes within this many cycles (R367). -/
def tuneCycles : Nat := 35000

/-- CIRCUIT_TUNE_TIMEOUT (R367): a circuit that is still being tuned then fails. -/
def execCircuitTuneTimeout (e : Nat) (s : State) : Result :=
  match s.mortar.commitAt with
  | none => .next s
  | some t =>
    let x := ctEntry s.mortar.active e
    if s.cycle < t + tuneCycles || ctLink x != 1 then .next s
    else .next { s with mortar := { s.mortar with
      active := Table.set s.mortar.active e (BitVec.ofNat 64 (ctSetLink x 3)) } }

/-! ## UCIe modules (R369) -/

def ucieModules : Nat := 32

/-- UCIE_LINK_RETRAINING (R369): a module with a link error retrains; the repaired module is in service again. -/
def execUcieLinkRetraining (die : Die) (m : Nat) (s : State) : Result :=
  let b := s.brick die.val
  if ucieModules ≤ m || b.ucieOut.contains m then .next s
  else if b.ucieRetraining.contains m then
    .next (s.setBrick die.val { b with ucieRetraining := b.ucieRetraining.erase m })
  else .next (s.setBrick die.val { b with ucieRetraining := b.ucieRetraining ++ [m] })

/-- UCIE_RETRAIN_FAIL (R369): a module that fails its retraining leaves service, and its loss is logged. -/
def execUcieRetrainFail (die : Die) (m : Nat) (s : State) : Result :=
  let b := s.brick die.val
  if !b.ucieRetraining.contains m then .next s
  else
    .next ((s.setBrick die.val { b with ucieRetraining := b.ucieRetraining.erase m, ucieOut := b.ucieOut ++ [m] }).log
      { die := die.val, event := 1, detail := 0, pc := 0, domain := 0, part := 0, sourceDie := die.val, ctx := 0, addr := 0 })

/-! ## What is on a brick -/

/-- The numbers of a table of cores or clusters that lie on a brick. -/
def onDie {α : Type} (dieOf : Nat → Nat) (t : Table α) (d : Nat) : List (Nat × α) := t.filter fun (n, _) => dieOf n == d

def State.dieCores (s : State) (d : Nat) : List (Nat × CoreState) := onDie dieOfCore s.cores d
def State.dieClusters (s : State) (d : Nat) : List (Nat × ClusterState) := onDie dieOfCluster s.clusters d

/-! ## The disposal of a brick's work (R370 step 2, R371) -/

/-- The ready-queue entries whose AFFINITY names another brick move to it, with their level and gain; an entry whose claim
is outstanding stays until the claim is decided. -/
def State.moveReady (s : State) (d : Nat) : State :=
  let b := s.brick d
  let goes := fun (e : ReadyEntry) => if e.offered then none
    else (s.place e.va).line?.bind fun l => otherBrick l.affinity d
  let s := s.setBrick d { b with ready := b.ready.filter fun e => (goes e).isNone }
  b.ready.foldl (fun s e => match goes e with
    | some k => s.readyPush k { e with since := s.cycle, tried := [], refused := false }
    | none => s) s

/-- The deques of the brick's cores are emptied into ready queues. -/
def State.moveDeques (s : State) (d : Nat) : State :=
  (s.dieCores d).foldl (fun s (c, x) =>
    let k := s.core c
    x.deque.foldl (fun s e =>
      let p := s.place e.va
      match p.line? with
      | some l => s.enterReady e.va l p.l2Brick e.steal
      | none => s) (s.setCore c { k with deque := [] })) s

/-- Every resident context leaves its context L1. -/
def State.evictAll (s : State) (d : Nat) : State :=
  (s.dieCores d).foldl (fun s (c, x) => x.entries.foldl (fun s (n, e) => match e.ctx? with
    | some h => if h.draining then s else s.startEviction c n h (endingOf h.line)
    | none => s) s) s

/-- The enlisted waits end, each with its timeout. -/
def State.endWaits (s : State) (d : Nat) : State :=
  (s.dieClusters d).foldl (fun s (c, x) =>
    let k := s.cluster c
    x.waits.foldl (fun s (_, e) => s.reply e.who e.cond.kind
      (.fault (if e.cond.kind = 3 then .feTimeout else .barTimeout) .none (BitVec.ofNat 32 e.limit) e.addr d))
      (s.setCluster c { k with waits := [] })) s

/-- The migrations whose jobs stand in the brick's queues end with their jobs. -/
def State.endMigrations (s : State) (d : Nat) : State :=
  (s.migrations.filter fun g => dieOfCluster g.job.1 == d).foldl (fun s g =>
    match s.migrations.findIdx? fun x => x == g with
    | some n => s.endMigration n .homeOffline
    | none => s) s

/-- No job is one that a refresh of the cluster completes. -/
def ClusterState.leaveRefreshes (k : ClusterState) : ClusterState :=
  { k with refreshes := k.refreshes.map fun r => { r with jobs := [] } }

/-- The copy jobs in the brick's queues complete with HOME_OFFLINE, once the writes that they have made are performed (R298); a refresh
that has absorbed one goes on without it. -/
def State.endJobs (s : State) (d : Nat) : State :=
  let s := { s with clusters := s.clusters.map fun (c, k) => (c, if dieOfCluster c = d then ClusterState.leaveRefreshes k else k) }
  (s.dieClusters d).foldl (fun s (c, x) => x.jobs.foldl (fun s (n, j) => match j.state with
    | .done _ => s
    | .queued | .active | .pageWait => s.endEarly c n j .homeOffline) s) (s.endMigrations d)

/-- The contexts that wait for an overlay load on the brick fetch again where they run next. -/
def State.endLoads (s : State) (d : Nat) : State :=
  (s.dieClusters d).foldl (fun s (c, x) =>
    let k := s.cluster c
    x.loads.foldl (fun s l => l.waiters.foldl (fun s w => s.reply w 7 .wake) s) (s.setCluster c { k with loads := [] })) s

/-- Expansion and gangs: reserved pool lines go back, and reserved entries are released. -/
def State.endExpansion (s : State) (d : Nat) : State :=
  let mine := s.chunks.filter fun c => c.die == d
  let s := mine.foldl (fun s c => s.returnLines c.lines)
    { s with chunks := s.chunks.filter (fun c => c.die != d), steals := s.steals.filter fun r => r.thief != d }
  (s.brick d).gangs.foldl (fun s g => s.releaseGang d g) s

/-- The tiles for which work of a cluster waits. -/
def ClusterState.awaited (k : ClusterState) : List Nat :=
  ((k.tileAside.flatMap fun (op : TileOp) => (op.handles.filter fun (n, _) => n != 0).map (·.2)) ++
    k.pendingMx.filterMap (fun (q : MxReq) => operandOf q.handles 2) ++ k.mxStacks.map fun (_, x) => x.key.handle : List Nat).eraseDups

/-- Work that waits for a STALE tile which no refresh serves ends as it does when the refresh fails, since the brick takes no
`tload.sub` any more (R371, assumption 118). -/
def State.endUnserved (s : State) (d : Nat) : State :=
  (s.dieClusters d).foldl (fun s (c, x) => x.awaited.foldl (fun s h =>
    if dStale (s.desc c (handleIndex h)) && !(s.cluster c).refreshes.any fun r => r.index == handleIndex h then
      s.endStale h [] .protection else s) s) s

/-- The work on a brick is disposed of; what arises while it quiesces is disposed of when it is looked at again. -/
def State.disposeWork (s : State) (d : Nat) : State :=
  ((((((((s.endExpansion d).moveReady d).moveDeques d).evictAll d).endWaits d).endJobs d).endLoads d).endUnserved d)

/-- BRICK_QUIESCE (R370): refused for brick 0, while another brick is not LIVE, while a commit is in progress, and for any
value but QUIESCING. -/
def execBrickQuiesce (w : RegAccess) (s : State) : Result :=
  .next (s.ownWrite w .brickState fun s v =>
    let d := (w.offset - 0x420) / 8
    if v != 1 || d == 0 || ctBusy s.mortar || !([0, 1, 2, 3].all fun k => s.dieLive k) then none
    else some ((s.setDie d .quiescing).disposeWork d))

/-! ## Recalls and write-backs (R370 steps 2 to 4) -/

/-- The lines of the brick's context L2s are written back through their homes. -/
def State.flushContexts (s : State) (d : Nat) : State :=
  (s.dieClusters d).foldl (fun s (c, x) => x.ctxL2.foldl (fun s (va, y) => match s.poolPhys va true with
    | some pa =>
      let k := s.cluster c
      (s.writeCtx pa va y.line).setCluster c { k with ctxL2 := Table.erase k.ctxL2 va }
    | none => s) s) s

/-- The contexts held in context caches. -/
def State.cachedContexts (s : State) : List Nat :=
  (s.cores.flatMap fun (_, x) => x.entries.filterMap fun (_, e) => e.ctx?.map (·.va)) ++
    s.clusters.flatMap fun (_, x) => x.ctxL2.map (·.1)

/-- The homes of the brick recall every context whose line they keep, and every sector, wherever it is held. -/
def State.recallHomes (s : State) (d : Nat) : State :=
  let s := s.cachedContexts.foldl (fun s va => if s.ctxHome va = d then (s.recallCtx va).1 else s) s
  s.dir.foldl (fun s (l, e) =>
    if s.homeDie (l * 256) = d then
      [0, 1, 2, 3].foldl (fun s k =>
        let pa := l * 256 + 64 * k
        let s := s.recallSector pa
        if (s.dirSector pa).host ≠ .i then s.snoop .host (e.vaLine * 256 + 64 * k) pa .inval else s) s
    else s) s

/-- The brick gives up what it holds of lines homed elsewhere: its L2 lines with their dirty sectors, and the copies in its
tiles. -/
def State.flushCaches (s : State) (d : Nat) : State :=
  let s := (s.l2.get d).foldl (fun s (v, _) => s.evictL2 d v) s
  let s := { s with l2 := s.l2.set d [] }
  let tiles := s.tileSubs.filter fun t => dieOfCluster t.cluster == d
  let s := { s with tileSubs := s.tileSubs.filter fun t => dieOfCluster t.cluster != d }
  tiles.foldl (fun s t => applyNotice s d t.va t.pa (Quad.all none) false) s

/-- Cores and clusters of a brick still hold work. -/
def CoreState.working (x : CoreState) : Bool := !x.entries.isEmpty || !x.storeBuf.isEmpty

/-- Tile operations and members of Geyser that a cluster has accepted. -/
def ClusterState.tileWork (x : ClusterState) : Bool :=
  !x.tileQ.isEmpty || !x.tileAside.isEmpty || !x.mxStacks.isEmpty || !x.pendingMx.isEmpty || !x.engineQ.isEmpty ||
    !x.zeroing.isEmpty

def ClusterState.working (x : ClusterState) : Bool := !x.ctxL2.isEmpty || x.tileWork || x.jobs.any fun (_, j) => !j.isDone

/-- Steps 2 to 4 of a reset, as far as they can go now: copies are recalled and caches given up once the tile operations and the
members of Geyser that the brick has accepted are complete (R371). -/
def State.drainDie (s : State) (d : Nat) : State :=
  let s := (s.disposeWork d).flushContexts d
  if (s.dieClusters d).any fun (_, x) => x.tileWork then s else (s.recallHomes d).flushCaches d

/-- Accesses and claims that the brick has sent are under way, or messages about its lines. -/
def State.dieBusy (s : State) (d : Nat) : Bool :=
  s.claims.any (fun c => c.die == d) || s.claimsLost.any (fun (c, _) => c.die == d) ||
    s.transfers.any (fun t => dieOfCore t.core == d) || s.reqs.any (fun r => !r.isTurn && dieOfCore r.who.core == d) ||
    s.bankQ.any (fun r => dieOfCore r.who.core == d) || !(s.brick d).pfHeld.isEmpty ||
    s.combine.any (fun c => s.homeDie c.pa == d) ||
    s.snoops.any fun x => s.homeDie x.pa == d || x.target == .brick d

/-- A directory entry of the brick still names a holder, or a peer's lease on its line has not expired (R84). -/
def State.homesBusy (s : State) (d : Nat) : Bool :=
  s.dir.any fun (l, e) => s.homeDie (l * 256) == d &&
    (!([0, 1, 2, 3].all fun k => (e.sectors.get k).idle) || decide (s.cycle < e.leaseExp))

/-- Steps 2 to 4 are complete. -/
def State.dieIdle (s : State) (d : Nat) : Bool :=
  !(s.dieCores d).any (fun (_, x) => x.working) && !(s.dieClusters d).any (fun (_, x) => x.working) && !s.dieBusy d &&
    !s.homesBusy d

/-! ## The reset of a brick (R370 steps 5 to 8) -/

/-- Mortar removes every circuit with an endpoint on the brick. -/
def Mortar.without (m : Mortar) (d : Nat) : Mortar :=
  let keep := fun (t : Table (BitVec 64)) => t.filter fun (_, e) => !(ctValid e.toNat && ctNames e.toNat d)
  { m with shadow := keep m.shadow, active := keep m.active }

/-- A key of a CLM or a TSP of a brick (R28, R29). -/
def localKey (d a : Nat) : Bool :=
  let inside := fun (b : Nat) => decide (b + d * 2 ^ 32 ≤ a) && decide (a < b + (d + 1) * 2 ^ 32)
  inside clmWindow || inside tspWindow

/-- The spilled entries stand in the brick's spill area; their bytes are not architectural (R311, R371). -/
def State.spillAll (s : State) (d : Nat) : State :=
  let b := s.brick d
  (List.range (min b.ready.length onChip)).foldl (fun (s : State) i =>
    let (v, s) := s.draw
    { s with mem := memPuts s.mem (b.spillBase.toNat % 2 ^ 48 + 8 * i) (toBytes 8 v.toNat) }) s

/-- The registers of a brick's window, its spilled entries and its gangs outlast the reset; every array is cleared. -/
def Brick.afterReset (b : Brick) (d : Nat) : Brick :=
  { Brick.reset d with rects := b.rects, ready := b.ready, gangs := b.gangs, spillBase := b.spillBase,
                       freemapBase := b.freemapBase, elogBase := b.elogBase, elogHead := b.elogHead, elogTail := b.elogTail,
                       elogLost := b.elogLost, cohLease := b.cohLease, cohLeaseMin := b.cohLeaseMin,
                       cohLeaseMax := b.cohLeaseMax, portCompat := b.portCompat, ucieOut := b.ucieOut }

/-- Steps 5 and 6. -/
def State.resetDie (s : State) (d : Nat) : State :=
  let s := s.spillAll d
  let s := { s with mortar := s.mortar.without d
                    cores := s.cores.filter fun (c, _) => dieOfCore c != d
                    clusters := s.clusters.filter fun (c, _) => dieOfCluster c != d
                    l2 := s.l2.set d []
                    dir := s.dir.filter fun (l, _) => s.homeDie (l * 256) != d
                    mem := s.mem.filter fun (a, _) => !localKey d a
                    full := s.full.filter fun a => !localKey d a
                    poison := s.poison.filter fun a => !localKey d a }
  (s.setBrick d ((s.brick d).afterReset d)).setDie d .reset

def State.dieIn (s : State) (x : DieState) : Option Nat := [0, 1, 2, 3].find? fun d => s.mortar.bricks.get d == x

/-- BRICK_QUIESCE_COMPLETE (R370 steps 2 to 6): what is left of the work is disposed of, copies are recalled and data is
written back; once nothing remains, the brick's circuits go and it resets. -/
def execBrickQuiesceComplete (s : State) : Result :=
  match s.dieIn .quiescing with
  | none => .next s
  | some d =>
    let s := s.drainDie d
    .next (if s.dieIdle d then s.resetDie d else s)

/-- BRICK_LINK_TRAINED (R370 step 7). -/
def execBrickLinkTrained (s : State) : Result :=
  match s.dieIn .reset with
  | none => .next s
  | some d =>
    let b := s.brick d
    .next ((s.setBrick d { b with linkTrained := true }).setDie d .admitting)

/-! ## Power and temperature (R379) -/

/-- THERMAL_THROTTLE: firmware withholds POOL cycles, firings or job starts on a brick, or stops to. -/
def execThermalThrottle (what : Withhold) (die : Die) (on : Bool) (s : State) : Result :=
  let b := s.brick die.val
  let rest := b.withheld.filter (· != what)
  .next (s.setBrick die.val { b with withheld := if on then rest ++ [what] else rest })

end Sys2Proof.Machine
end

