-- ==== Sys2Proof/Machine/Boot.lean ====
section
/-!
DEFINITION. Machine/Boot.lean: cold boot and recovery (R373 to R375), and attestation (R376).
-/
namespace Sys2Proof.Machine

/-! ## The checks of the mask ROM (R373) -/

/-- The image's vendor key is the fused one, its signature over its digest is valid, and its security version is not below
the fused minimum. -/
def imageOk (f : FirmwareImage) : Bool :=
  shake256 f.key Config.vendorKeyHash.length == Config.vendorKeyHash &&
    Config.ed448Valid f.key (shake256 f.body 64) f.signature && decide (Config.minimumVersion.toNat ≤ f.version.toNat)

/-! ## The default connection table (R32, R366) -/

/-- The number by which brick d counts a partner: 0 to 2 in rising brick order. -/
def partnerNumber (d p : Nat) : Nat := if p < d then p else p - 1

/-- Entry 5π + i of the default table for the pair (a, b) of index π, with its circuit up. -/
def defaultEntry (link a b i : Nat) : BitVec 64 :=
  BitVec.ofNat 64 (2 ^ 63 + link * 2 ^ 61 + b * 2 ^ 10 + (5 * partnerNumber b a + i) * 2 ^ 6 + a * 2 ^ 4 +
    (5 * partnerNumber a b + i))

/-- The table: LINK reads 0 in the shadow and 2 in the active table. -/
def defaultTable (link : Nat) : Table (BitVec 64) :=
  [(0, 0, 1), (1, 0, 2), (2, 0, 3), (3, 1, 2), (4, 1, 3), (5, 2, 3)].flatMap fun (p, a, b) =>
    (List.range 5).map fun i => (5 * p + i, defaultEntry link a b i)

/-! ## Firmware (R373) -/

/-- The state after a step that cannot stop. -/
def State.after (s : State) (r : Result) : State :=
  match r with
  | .next t => t
  | .fault _ | .refused _ => s

/-- A register write of the firmware, through whichever row the register has. -/
def State.bootWrite (s : State) (w : RegAccess) : State :=
  let w := { w with src := .host }
  s.after (match ownRow w.block w.offset with
    | none => execRegisterWrite w s
    | some .lqPtr => execLaunchQueueTailWrite w s
    | some .pfqPtr => execPfqHeadWrite w s
    | some .elogLost => execElogLostClear w s
    | some .partRect => execPartRectWrite w s
    | some .ctCommit => execCtCommit w s
    | some .brickState => execBrickQuiesce w s
    | some .attGo => execAttGo w s)

/-- The bytes of the free map of a share: bit (k div 4) is 1 for each context k of the pool with k mod 4 equal to the
share (R310). -/
def freeMapBytes (count share : Nat) : List Byte :=
  (List.range ((count + 31) / 32)).map fun j =>
    BitVec.ofNat 8 ((List.range 8).foldl (fun n i => if 4 * (8 * j + i) + share < count then n + 2 ^ i else n) 0)

/-- The free maps before the first launch: every context of the pool is FREE. -/
def State.writeFreeMaps (s : State) : State :=
  [0, 1, 2, 3].foldl (fun s d =>
    { s with mem := memPuts s.mem ((s.brick d).freemapBase.toNat % 2 ^ 48) (freeMapBytes s.poolCount d) }) s

/-- What a cold reset leaves: every register at its default, the arrays of the bricks cleared (R375). The serial flash, the
count of boots and of free values, and the bytes outside the bricks stay; what HBM holds then is the model's choice. -/
def State.coldReset (s : State) : State :=
  { State.reset with
    mem := s.mem.filter fun (a, _) => decide (a < 2 ^ 48)
    poison := s.poison.filter fun a => decide (a < 2 ^ 48)
    draws := s.draws
    boot := { BootState.reset with flash := s.boot.flash, boots := s.boot.boots + 1 } }

/-- The mask ROM runs an accepted image on every brick, and the firmware brings the device up. -/
def State.runImage (s : State) (f : FirmwareImage) : State :=
  let s := { s with boot := { s.boot with running := true, image := some f, hbmTrained := true }
                    mortar := { s.mortar with shadow := defaultTable 0, active := defaultTable 2 }
                    bricks := ⟨{ s.bricks.b0 with linkTrained := true }, { s.bricks.b1 with linkTrained := true },
                               { s.bricks.b2 with linkTrained := true }, { s.bricks.b3 with linkTrained := true }⟩ }
  let s := (f.writes.foldl State.bootWrite s).writeFreeMaps
  { s with boot := { s.boot with ready := true } }

/-- COLD_BOOT (R373 to R375): without an acceptable image the recovery function is presented. -/
def execColdBoot (s : State) : Result :=
  let s := s.coldReset
  match s.boot.flash with
  | some f => if imageOk f then .next (s.runImage f) else .next { s with boot := { s.boot with recovery := true } }
  | none => .next { s with boot := { s.boot with recovery := true } }

/-- RECOVERY_IMAGE_WRITE (R374): while the recovery function is present, the host writes an image into the flash and asks
for a cold reset. -/
def execRecoveryImageWrite (image : FirmwareImage) (s : State) : Result :=
  if s.boot.recovery then .next { s with boot := { s.boot with flash := some image }, agenda := s.agenda ++ [.coldBoot] }
  else .next s

/-! ## Attestation (R376) -/

/-- A field of n bytes. -/
def fieldBytes (n : Nat) (bs : List Byte) : List Byte := (bs ++ List.replicate n 0).take n

/-- Bytes 0 to 175 of a report: what is signed. -/
def State.reportBody (s : State) (f : FirmwareImage) : List Byte :=
  [0, 1, 2, 3].flatMap (fun i => toBytes 8 (regOf s.att.nonce i)) ++ shake256 f.body 64 ++ toBytes 4 f.version.toNat ++
    toBytes 4 Config.fuseConfig.toNat ++ fieldBytes 57 Config.deviceKey ++ List.replicate 7 0 ++ toBytes 8 s.cycle

/-- ATTESTATION_COMPLETE (R376): the report of a running image is placed, DONE is set and vector 4 is sent. -/
def execAttestationComplete (s : State) : Result :=
  match s.att.busy, s.boot.image with
  | true, some f =>
    let body := fieldBytes 176 (s.reportBody f)
    let report := body ++ fieldBytes 114 (Config.ed448Sign body) ++ List.replicate 6 0
    .next { s with att := { s.att with done := true, busy := false, report := report }, outbox := s.outbox ++ [.msix 4] }
  | _, _ => .next s

end Sys2Proof.Machine
end

