-- ==== Sys2Proof/Machine/Agenda.lean ====
section
/-!
DEFINITION. Machine/Agenda.lean: which steps of the device come next: one cycle passes, and every unit with work puts its
steps on the agenda. A step whose precondition does not hold when its turn comes leaves the state as it is, so the
agenda may name it too often but must not leave it out. What only the host, a peer or the physical world can cause is not
put on the agenda: it is an input.
-/
namespace Sys2Proof.Machine

/-- The steps of a queue of a length, oldest item first: a step that takes its item away leaves the next one at 0; items
behind one that has to wait are reached by their own numbers. -/
def inOrder (n : Nat) (f : Nat → Instr) : List Instr := List.replicate n (f 0) ++ (List.range n).map f

/-- The steps of a queue whose items stay in place. -/
def eachOf (n : Nat) (f : Nat → Instr) : List Instr := (List.range n).map f

def dies : List Die := [0, 1, 2, 3]

/-! ## Cores -/

/-- The entries of a context L1 that drain (R128). -/
def CoreState.drainSteps (c : Nat) (x : CoreState) : List Instr :=
  x.entries.flatMap fun (n, e) => match e.ctx? with
    | some h => if h.draining then [.contextEviction c n, .contextWritebackPerformed c n] else []
    | none => []

/-- Siblings may take from a deque (R316). -/
def CoreState.stealSteps (c : Nat) (x : CoreState) : List Instr :=
  if x.deque.isEmpty then [] else (List.range 8).map fun i => .dequeSiblingSteal (c / 8 * 8 + i)

def State.coreSteps (s : State) : List Instr :=
  (s.cores.flatMap fun (c, x) =>
    if x.entries.isEmpty && x.deque.isEmpty && x.slotTabNext.isNone then [] else [.issueCycle c]) ++
  (s.cores.flatMap fun (c, x) => if x.storeBuf.isEmpty then [] else [.storeBufferAccept c]) ++
  (s.cores.flatMap fun (c, x) => x.drainSteps c ++ x.stealSteps c)

/-! ## Banks, translation and homes -/

/-- A request at a bank, or a store to a register, which has its own row (R30, R401). -/
def bankStep (n : Nat) (r : BankReq) : Instr :=
  match targetOf r.addr, r.op with
  | .reg die o, .store bs =>
    let (b, off) := blockAt die o
    registerStep { die := Fin.ofNat 4 die, block := b, offset := off, width := bs.length,
                   value := BitVec.ofNat 64 (ofBytes bs), src := .ctx r.who }
  | _, _ => .clmTspBankAccess n

/-- A request for the paged space (R44, R66 to R74, R84). -/
def reqSteps (n : Nat) (r : Req) : List Instr :=
  match r.phase with
  | .xlat => [.translationLookup n]
  | .frozen _ | .turn _ _ _ => []
  | .home _ _ _ | .acks _ _ _ =>
    if r.isNotice then [.writeBack n, .dropNotice n, .heldWriteLeaseExpiry n]
    else if r.heldUntil = 0 then
      (match r.op with
       | .load => [.readRequest n, .precisionChange n]
       | .subscribe _ _ => [.subscribeRequest n, .precisionChange n]
       | .prefetch _ => [.readRequest n]
       | .store _ => [.storeRequest n]
       | .atomic _ _ => [.homeAtomic n]
       | .cwb | .cinv => [.writeBack n]
       | .notice _ | .feset _ | .ldfe | .stfe _ | .barrier _ _ | .swait _ | .sarm _ _ _ _ => [])
    else [.heldWriteLeaseExpiry n, .storeRequest n, .homeAtomic n]

def snoopItem (n : Nat) (x : Snoop) : List Instr :=
  match x.target, x.kind with
  | .host, _ => []
  | .brick _, .share => [.snoopShare n]
  | .brick _, .inval | .brick _, .invalFmt _ => [.snoopInvalidate n]
  | .brick _, .update _ _ _ => [.update n]

/-- A list with the number of each item. -/
def numbered {α : Type} (xs : List α) : List (Nat × α) := xs.zipIdx.map fun (x, n) => (n, x)

def State.memorySteps (s : State) : List Instr :=
  ((numbered s.bankQ).map fun (n, r) => bankStep n r) ++
  ((numbered s.reqs).flatMap fun (n, r) => reqSteps n r) ++
  ((numbered s.snoops).flatMap fun (n, x) => snoopItem n x) ++
  eachOf s.combine.length .combineEntryClose ++
  (s.dir.filterMap fun (l, e) =>
    if 0 < e.leaseExp ∧ e.leaseExp ≤ s.cycle then some (.homeEntryLeaseExpiry l) else none) ++
  (if s.outers.isEmpty then [] else [.heldWriteLeaseExpiry s.reqs.length]) ++
  ((numbered s.fences).flatMap fun (n, f) => f.probes.map (fun _ => Instr.fenceProbe n) ++ f.probes.map fun _ => .probeEcho n) ++
  (s.fences.map fun _ => .probeEcho 0)

def State.translationSteps (s : State) : List Instr :=
  inOrder s.plbFills.length .plbRefill ++
  ((numbered s.invs).flatMap fun (n, v) =>
    if v.domain.isSome then v.left.map fun c => .plbiCoreInvalidate n c
    else v.left.map fun d => .tlbiBrickInvalidate n (Fin.ofNat 4 d)) ++
  (dies.flatMap fun d => inOrder (s.brick d.val).pfHeld.length fun n => .pfqMessageAccept d n)

/-! ## Contexts, faults and the scheduler -/

def State.contextSteps (s : State) : List Instr :=
  inOrder s.msgs.length .contextMessageApply ++ inOrder s.joins.length .joinMessage ++
  inOrder s.wakes.length .wakeMessage ++ inOrder s.nacks.length .nackMessage ++
  inOrder s.kills.length .killAtHome ++ inOrder s.resumes.length .resumeAtHome ++
  (s.timers.filterMap fun (w, kind, e) =>
    if kind = 9 then (if sleepTick e ≤ s.cycle then some (.sleepWake w.ctx) else none)
    else if e ≤ s.cycle then some (.pageFaultTimedWake w.ctx) else none) ++
  (s.clusters.flatMap fun (_, k) => k.ctxL2.filterMap fun (va, x) =>
    if x.wbWait && decide (x.retryAt ≤ s.cycle) then some (.contextWritebackRetry va) else none) ++
  inOrder s.faultQ.length .faultRecordAppend ++ inOrder s.handlerWakes.length .handlerWakeRetry ++
  inOrder s.elogQ.length .errorLogAppend

/-- The steps of a brick's Caldera: the entries whose age is due, oldest first, each by the place that it has once those before it
have gone to the tail. -/
def State.calderaSteps (s : State) (d : Die) : List Instr :=
  let b := s.brick d.val
  let old := (numbered b.ready).filter fun (n, e) =>
    decide (n < onChip) && decide (e.since + agingCycles ≤ s.cycle) && decide (e.level < 31) && !e.offered
  ((numbered b.ready).flatMap fun (n, e) =>
    if e.notBefore ≠ 0 ∧ e.notBefore ≤ s.cycle then [.claimPageFaultReoffer d n] else []) ++
  ((numbered old).map fun (k, (n, _)) => .readyEntryAging d (n - k)) ++
  (if b.gangs.isEmpty then [] else [.gangReserve d]) ++ (if b.ready.isEmpty then [] else [.dispatchOffer d]) ++
  (if b.rects.isEmpty then [] else [.stealRequest d])

def State.schedulerSteps (s : State) : List Instr :=
  let open_ := s.regs.lqBase.filterMap fun (q, _) => if s.lqEmpty q then none else some q
  open_.map .launchRecordDiscard ++ (if open_.isEmpty then [] else dies.map .chunkRequest) ++
  (s.chunks.map fun _ => .chunkGrant 0) ++ dies.flatMap s.calderaSteps ++
  inOrder s.claims.length .contextClaim ++ inOrder s.claimsLost.length .claimLost ++
  inOrder s.transfers.length .contextFill ++ eachOf s.steals.length .stealServe

/-! ## Clusters -/

/-- A wait table whose limits have passed (R97, R107, R276), and the threads that found it full (R96). -/
def ClusterState.waitSteps (k : ClusterState) (c cycle : Nat) : List Instr :=
  k.waits.filterMap fun (i, e) =>
    if cycle < e.since + e.limit then none
    else some (if e.cond.kind = 3 then .feWaitTimeout c i else .barWaitTimeout c i)

/-- A round or a freeze of a migration. -/
def migrationSteps (n : Nat) (g : Migration) : List Instr :=
  if g.frozenAt.isSome then [.migrationFreeze n, .migrationFreezeAbandon n] else [.migrationRound n, .migrationFreeze n]

/-- The work of a copy unit in the order of R112: refreshes, overlay loads, zeroing, the migrations of its jobs, then queued jobs. -/
def ClusterState.copySteps (k : ClusterState) (c : Nat) (migrations : List (Nat × Migration)) : List Instr :=
  (if k.refreshes.any fun r => !r.running then [.tileRefreshStart c] else []) ++
  eachOf k.refreshes.length (fun n => .tileRefreshFail c n) ++ eachOf k.refreshes.length (fun n => .tileRefreshComplete c n) ++
  eachOf k.loads.length (fun n => .overlayLoadComplete c n) ++ eachOf k.loads.length (fun n => .overlayLoadFail c n) ++
  eachOf k.zeroing.length (fun n => .tileZeroingComplete c n) ++
  (migrations.flatMap fun (n, g) => if g.job.1 = c then migrationSteps n g else []) ++
  (if k.jobs.any fun (_, x) => x.state == .queued then [.jobStart c] else []) ++
  (k.jobs.filterMap fun (i, x) => if x.state = .active then some (.copyLineWrite c i) else none)

def ClusterState.tileSteps (k : ClusterState) (c cycle : Nat) : List Instr :=
  (if k.tileQ.isEmpty then [] else [.tileOpExecute c]) ++
  (k.mxStacks.filterMap fun (i, x) =>
    if x.state = .opened ∧ x.deadline ≤ cycle then some (.geyserHoldExpire c i) else none) ++
  (if k.firing.isSome then [.stackFire c] else []) ++ (if k.engineQ.isEmpty then [] else [.engineNormOp c]) ++
  (if k.mxStacks.any fun (_, x) => x.state == .ready then [.engineSelect c] else [])

def State.clusterSteps (s : State) : List Instr :=
  (s.clusters.flatMap fun (c, k) => k.waitSteps c s.cycle ++ k.copySteps c (numbered s.migrations) ++ k.tileSteps c s.cycle) ++
  (s.noents.filterMap fun (w, _, since) => if since + 256 ≤ s.cycle then some (.feNoentRetry w.ctx) else none) ++
  (eachOf s.jobReqs.length .jobSubmission).reverse ++ inOrder s.tileArrivals.length .tileOpArrival ++
  inOrder s.discards.length .tdescDiscardNotice ++ inOrder s.mxArrivals.length .geyserAdmission ++
  (s.clusters.filterMap fun (c, k) => if k.serving.isEmpty then none else some (.geyserAdmission (pendingNumber + c))) ++
  (s.mxRetries.filterMap fun (_, since) => if since + mxRetryCycles ≤ s.cycle then some (.geyserRetryReissue 0) else none)

/-! ## The package -/

def State.packageSteps (s : State) : List Instr :=
  ((numbered s.outReqs).filterMap fun (n, q) =>
    if q.sentAt + pcieTimeout ≤ s.cycle then some (.pcieCompletionTimeout n) else none) ++
  (match s.mortar.commitAt with
   | some t => if t + tuneCycles ≤ s.cycle then eachOf ctEntries .circuitTuneTimeout else []
   | none => []) ++
  (if ctBusy s.mortar then [.circuitTuningComplete] else []) ++
  (if (s.dieIn .quiescing).isSome then [.brickQuiesceComplete] else []) ++
  (if (s.dieIn .reset).isSome then [.brickLinkTrained] else []) ++
  (if s.att.busy then [.attestationComplete] else []) ++
  if s.boot.boots = 0 then [.coldBoot] else []

/-- The steps that are due. -/
def State.due (s : State) : List Instr :=
  s.packageSteps ++ s.coreSteps ++ s.memorySteps ++ s.translationSteps ++ s.contextSteps ++ s.schedulerSteps ++
    s.clusterSteps

/-- One cycle passes, and the due steps are put on the agenda. -/
def State.tick (s : State) : State :=
  let s := { s with cycle := s.cycle + 1 }
  { s with agenda := s.due }

end Sys2Proof.Machine
end

