-- ==== Sys2Proof/Machine/Atomic.lean ====
section
/-!
DEFINITION. Machine/Atomic.lean: the twelve atomics (R271 to R274). Each shared operation stands first; one definition for
every constructor follows.
-/
namespace Sys2Proof.Machine

def awBytes : AWidth → Nat | .w64 => 8 | .w32 => 4

/-- An integer atomic with one operand (R272): d receives the old value, zero-extended. -/
def atomicOp (fn : AtomicFn) (g : Guard) (d a : Reg) (t : Tail) (o : AOrd) (w : AWidth) (s : State) : Result :=
  issue g t s fun b =>
    let n := awBytes w
    withAccess s b .g (b.held.line.reg a).toNat n .atomic rightsRWA .atomic fun s va tg =>
      atomicTo s b va n tg fn (t.value s b false).toNat (.reg d n true) o fun l v =>
        l.writes ((ReplyTo.reg d n true).writes (v.getD 0))

def opAadd := atomicOp .add
def opAand := atomicOp .and
def opAor := atomicOp .or
def opAxor := atomicOp .xor
def opAmin := atomicOp .min
def opAmax := atomicOp .max
def opAminu := atomicOp .minu
def opAmaxu := atomicOp .maxu
def opAswp := atomicOp .swap

/-- The 128 bits of a register pair (R272). -/
def pairNat (l : Line) (r : Reg) : Nat := (l.reg r).toNat + 2 ^ 64 * (l.reg (pairOf r)).toNat

/-- `acas` (R272): `.w128` takes the expected and the new value from pairs. -/
def opAcas (g : Guard) (d a b : Reg) (t : Tail) (o : AOrd) (w : CasWidth) (s : State) : Result :=
  issue g t s fun br =>
    let l := br.held.line
    let n := match w with | .w64 => 8 | .w32 => 4 | .w128 => 16
    let e := if w = .w128 then pairNat l b else (l.reg b).toNat
    let x := match w, t with
      | .w128, .reg c => pairNat l c
      | _, _ => (t.value s br false).toNat
    let reply := if w = .w128 then ReplyTo.pair d else .reg d n true
    withAccess s br .g (l.reg a).toNat n .atomic rightsRWA .atomic fun s va tg =>
      atomicTo s br va n tg (.cas e) x reply o fun l v => l.writes (reply.writes (v.getD 0))

/-- The scalar format of `afadd` and `axadd`. -/
def AFmt.ffmt : AFmt → FFmt | .f64 => .f64 | .f32 => .f32

/-- `afadd` (R273). -/
def opAfadd (g : Guard) (d a : Reg) (t : Tail) (o : AOrd) (f : AFmt) (s : State) : Result :=
  issue g t s fun b =>
    let n := match f with | .f64 => 8 | .f32 => 4
    withAccess s b .g (b.held.line.reg a).toNat n .atomic rightsRWA .atomic fun s va tg =>
      atomicTo s b va n tg (.fadd f) (t.floatCode s b (AFmt.ffmt f)) (.reg d n true) o fun l v =>
        l.writes ((ReplyTo.reg d n true).writes (v.getD 0))

/-- `axadd` (R273): a 16-byte exact accumulator word. -/
def opAxadd (g : Guard) (d a : Reg) (t : Tail) (o : AOrd) (f : AFmt) (s : State) : Result :=
  issue g t s fun b =>
    withAccess s b .g (b.held.line.reg a).toNat 16 .atomic rightsRWA .atomic fun s va tg =>
      atomicTo s b va 16 tg (.xadd f) (t.floatCode s b (AFmt.ffmt f)) (.pair d) o fun l v =>
        l.writes ((ReplyTo.pair d).writes (v.getD 0))

/-! One definition for every constructor. -/

def execAadd (g : Guard) (d a b : Reg) (o : AOrd) (w : AWidth) (s : State) : Result :=
  opAadd g d a (.reg b) o w s
def execAaddRL (g : Guard) (d a : Reg) (o : AOrd) (w : AWidth) (lit : BitVec 32) (s : State) : Result :=
  opAadd g d a (.lit lit) o w s
def execAand (g : Guard) (d a b : Reg) (o : AOrd) (w : AWidth) (s : State) : Result :=
  opAand g d a (.reg b) o w s
def execAandRL (g : Guard) (d a : Reg) (o : AOrd) (w : AWidth) (lit : BitVec 32) (s : State) : Result :=
  opAand g d a (.lit lit) o w s
def execAor (g : Guard) (d a b : Reg) (o : AOrd) (w : AWidth) (s : State) : Result :=
  opAor g d a (.reg b) o w s
def execAorRL (g : Guard) (d a : Reg) (o : AOrd) (w : AWidth) (lit : BitVec 32) (s : State) : Result :=
  opAor g d a (.lit lit) o w s
def execAxor (g : Guard) (d a b : Reg) (o : AOrd) (w : AWidth) (s : State) : Result :=
  opAxor g d a (.reg b) o w s
def execAxorRL (g : Guard) (d a : Reg) (o : AOrd) (w : AWidth) (lit : BitVec 32) (s : State) : Result :=
  opAxor g d a (.lit lit) o w s
def execAmin (g : Guard) (d a b : Reg) (o : AOrd) (w : AWidth) (s : State) : Result :=
  opAmin g d a (.reg b) o w s
def execAminRL (g : Guard) (d a : Reg) (o : AOrd) (w : AWidth) (lit : BitVec 32) (s : State) : Result :=
  opAmin g d a (.lit lit) o w s
def execAmax (g : Guard) (d a b : Reg) (o : AOrd) (w : AWidth) (s : State) : Result :=
  opAmax g d a (.reg b) o w s
def execAmaxRL (g : Guard) (d a : Reg) (o : AOrd) (w : AWidth) (lit : BitVec 32) (s : State) : Result :=
  opAmax g d a (.lit lit) o w s
def execAminu (g : Guard) (d a b : Reg) (o : AOrd) (w : AWidth) (s : State) : Result :=
  opAminu g d a (.reg b) o w s
def execAminuRL (g : Guard) (d a : Reg) (o : AOrd) (w : AWidth) (lit : BitVec 32) (s : State) : Result :=
  opAminu g d a (.lit lit) o w s
def execAmaxu (g : Guard) (d a b : Reg) (o : AOrd) (w : AWidth) (s : State) : Result :=
  opAmaxu g d a (.reg b) o w s
def execAmaxuRL (g : Guard) (d a : Reg) (o : AOrd) (w : AWidth) (lit : BitVec 32) (s : State) : Result :=
  opAmaxu g d a (.lit lit) o w s
def execAswp (g : Guard) (d a b : Reg) (o : AOrd) (w : AWidth) (s : State) : Result :=
  opAswp g d a (.reg b) o w s
def execAswpRL (g : Guard) (d a : Reg) (o : AOrd) (w : AWidth) (lit : BitVec 32) (s : State) : Result :=
  opAswp g d a (.lit lit) o w s
def execAcas (g : Guard) (d a b c : Reg) (o : AOrd) (w : CasWidth) (s : State) : Result :=
  opAcas g d a b (.reg c) o w s
def execAcasRL (g : Guard) (d a b : Reg) (o : AOrd) (w : CasWidth) (lit : BitVec 32) (s : State) : Result :=
  opAcas g d a b (.lit lit) o w s
def execAfadd (g : Guard) (d a b : Reg) (o : AOrd) (f : AFmt) (s : State) : Result :=
  opAfadd g d a (.reg b) o f s
def execAfaddRL (g : Guard) (d a : Reg) (o : AOrd) (f : AFmt) (lit : BitVec 32) (s : State) : Result :=
  opAfadd g d a (.lit lit) o f s
def execAxadd (g : Guard) (d a b : Reg) (o : AOrd) (f : AFmt) (s : State) : Result :=
  opAxadd g d a (.reg b) o f s
def execAxaddRL (g : Guard) (d a : Reg) (o : AOrd) (f : AFmt) (lit : BitVec 32) (s : State) : Result :=
  opAxadd g d a (.lit lit) o f s

end Sys2Proof.Machine
end

