-- ==== Sys2Proof/Machine/Memory.lean ====
section
/-!
DEFINITION. Machine/Memory.lean: loads, stores, full/empty operations and cache control (R257 to R270). Each shared
operation stands first; one definition for every constructor follows. An offset is sign-extended in every form
(assumption 15).
-/
namespace Sys2Proof.Machine

/-- ea := (ga + off) mod 2^64 (R257). -/
def eaOf (b : Barrel) (a : Reg) (t : Tail) (s : State) : Nat := (b.held.line.reg a + t.value s b false).toNat

/-- The n low bytes of a register (R265). -/
def regBytes (b : Barrel) (r : Reg) (n : Nat) : List Byte := toBytes n (b.held.line.reg r).toNat

/-- The 16 bytes of a register pair (R266). -/
def pairBytes (b : Barrel) (r : Reg) : List Byte := regBytes b r 8 ++ regBytes b (pairOf r) 8

def widthBytes (w : Width) : Nat := widthBits w / 8

/-- `ld` (R265). -/
def opLd (g : Guard) (d a : Reg) (t : Tail) (o : Option Scope) (y : Space) (z : Bool) (w : Width) (s : State) : Result :=
  issue g t s fun b =>
    withAccess s b y (eaOf b a t s) (widthBytes w) .plain rightsR .load fun s va tg =>
      loadFrom s b va (widthBytes w) tg .load (.reg d (widthBytes w) z) o .load

/-- `st` (R265). -/
def opSt (g : Guard) (d a : Reg) (t : Tail) (o : Option Scope) (y : Space) (w : Width) (s : State) : Result :=
  issue g t s fun b =>
    withAccess s b y (eaOf b a t s) (widthBytes w) .plain rightsW .store fun s va tg =>
      storeOrd s b y va (widthBytes w) tg (.store (regBytes b d (widthBytes w))) o

/-- `ld2` (R266). -/
def opLd2 (g : Guard) (d a : Reg) (t : Tail) (o : Option Scope) (y : Space) (s : State) : Result :=
  issue g t s fun b =>
    withAccess s b y (eaOf b a t s) 16 .pair rightsR .load fun s va tg =>
      loadFrom s b va 16 tg .load (.pair d) o .load

/-- `st2` (R266). -/
def opSt2 (g : Guard) (d a : Reg) (t : Tail) (o : Option Scope) (y : Space) (s : State) : Result :=
  issue g t s fun b =>
    withAccess s b y (eaOf b a t s) 16 .pair rightsW .store fun s va tg =>
      storeOrd s b y va 16 tg (.store (pairBytes b d)) o

/-- The width of the element that `ldq` reads (R267): by the page's MASTER as far as the brick can tell it, and 2 bytes
while the page has no translation, since then a page fault comes first (assumption 16). -/
def ldqSize (s : State) (b : Barrel) (ea : Nat) : Nat :=
  match targetOf ea with
  | .paged =>
    match Table.get? (s.l2.get (dieOfCore b.core)) (lineOfAddr ea), s.translate (dieOfCore b.core) ea false with
    | none, .error _ => 2
    | _, _ => masterSize (s.masterOf (dieOfCore b.core) ea)
  | .clm _ _ | .tsp _ _ | .reg _ _ | .hole => 4

/-- `ldq` (R267). -/
def opLdq (g : Guard) (d a : Reg) (t : Tail) (o : Option Scope) (u : Bool) (f : Fmt) (s : State) : Result :=
  issue g t s fun b =>
    let n := ldqSize s b (eaOf b a t s)
    withAccess s b .g (eaOf b a t s) n .sub rightsRS .subscribed fun s va tg =>
      loadFrom s b va n tg (.subscribe f u) (.subscribed d f) o .subscribed

/-- `ldb` (R268): the sentinel first, then the bound. -/
def opLdb (g : Guard) (d a b : Reg) (t : Tail) (y : Space) (z : Bool) (w : Width) (s : State) : Result :=
  issue g t s fun br =>
    let index := uv 32 (br.held.line.reg b)
    let bound := uv 32 (t.value s br false)
    let ea := (br.held.line.reg a + BitVec.ofNat 64 (index * widthBytes w)).toNat
    if index = 0xFFFFFFFF then .next (s.complete br (br.held.line.setReg d 0))
    else if bound ≤ index then .next (s.fault br .bounds .load ea)
    else
      withAccess s br y ea (widthBytes w) .plain rightsR .load fun s va tg =>
        loadFrom s br va (widthBytes w) tg .load (.reg d (widthBytes w) z) none .load

/-- A full/empty operation that waits for its reply: in the barrel at the core's own CLM when the buffer holds no entry
of the context (R269), otherwise at the word's bank, after the context's own stores and `feset` to the word have left the
buffer; anywhere else a protection violation (R259). -/
def feTo (s : State) (b : Barrel) (va : Nat) (tg : Target) (op : AccessOp) (reply : ReplyTo) (acc : AccessKind) : Result :=
  match tg with
  | .paged => .next (s.toHome b va 4 op reply false)
  | .clm _ _ | .tsp _ _ | .reg _ _ | .hole =>
    let own := match tg with
      | .clm c _ => c == b.core && !s.buffered b.core b.held.va
      | .tsp _ _ | .paged | .reg _ _ | .hole => false
    let acq := acc == .load && decide (3 ≤ scopeRank (targetScope b.core tg))
    if (s.core b.core).storeBuf.any fun e => e.meets b.held.va va 4 then .next (s.awaitBuffer b)
    else if own then
      let (s, out) := s.bankDo { who := b.who, addr := va, size := 4, op := op, reply := reply, posted := false, acq := acq }
      .next (s.bankReply b out va acc fun l v => l.writes (reply.writes (v.getD 0)))
    else .next (s.toBank b va 4 op reply acq)

/-- `ldfe` (R269). -/
def opLdfe (g : Guard) (d a : Reg) (t : Tail) (z : Bool) (y : Space) (s : State) : Result :=
  issue g t s fun b =>
    withAccess s b y (eaOf b a t s) 4 .fe rightsR .load fun s va tg => feTo s b va tg .ldfe (.reg d 4 z) .load

/-- `stfe` (R269): a release at the target scope, then the operation. -/
def opStfe (g : Guard) (d a : Reg) (t : Tail) (y : Space) (s : State) : Result :=
  issue g t s fun b =>
    withAccess s b y (eaOf b a t s) 4 .fe rightsW .store fun s va tg =>
      withFence s b (targetScope b.core tg) true fun s b =>
        feTo s b va tg (.stfe ((b.held.line.reg d).setWidth 32)) .nothing .store

/-- `feset` (R269): enters the store buffer like a store. -/
def opFeset (g : Guard) (a : Reg) (t : Tail) (u : Bool) (y : Space) (s : State) : Result :=
  issue g t s fun b =>
    withAccess s b y (eaOf b a t s) 4 .fe rightsW .store fun s va tg => storeTo s b y va 4 tg (.feset u) .store

/-- `pref` (R270): a rights failure, a PLB miss or an address out of range drops it; it never parks and never faults. -/
def opPref (g : Guard) (a : Reg) (t : Tail) (x : Bool) (s : State) : Result :=
  issue g t s fun b =>
    let ea := eaOf b a t s
    let s := if ea < 2 ^ 56 ∧ targetOf ea = .paged ∧
        s.checkRights b.core b.held.va b.held.line.domain ea rightsR = .ok then
      let r : Req := { who := b.who, va := ea / 256 * 256, size := 256, op := .prefetch x, reply := .nothing,
                       phase := .xlat, posted := true, acq := false, heldUntil := 0, via := none }
      { s with reqs := s.reqs ++ [r] }
    else s
    .next (s.complete b b.held.line)

/-- `cwb` and `cinv` (R270): they enter the store buffer, and the thread parks until the home acknowledges. -/
def cacheOp (op : AccessOp) (n : Rights) (g : Guard) (a : Reg) (t : Tail) (s : State) : Result :=
  issue g t s fun b =>
    withAccess s b .g (eaOf b a t s) 1 .cache n .store fun s va _ =>
      .next (s.enqueue b { who := b.who, va := va / 256 * 256, size := 256, op := op, reply := .nothing, posted := false,
                           acq := false } fun s => s.parkAdvance b 1 8)

def opCwb := cacheOp .cwb rightsR
def opCinv := cacheOp .cinv rightsW

/-! One definition for every constructor. -/

def execLd (g : Guard) (d a b : Reg) (o : Option Scope) (y : Space) (z : Bool) (w : Width) (s : State) : Result :=
  opLd g d a (.reg b) o y z w s
def execLdRL (g : Guard) (d a : Reg) (o : Option Scope) (y : Space) (z : Bool) (w : Width) (lit : BitVec 32) (s : State) : Result :=
  opLd g d a (.lit lit) o y z w s
def execLdRK (g : Guard) (d a : Reg) (w : Width) (k : BitVec 8) (s : State) : Result :=
  opLd g d a (.const k) none .g false w s
def execLdRI (g : Guard) (d a : Reg) (imm : BitVec 13) (s : State) : Result :=
  opLd g d a (.imm imm) none .g false .w64 s
def execSt (g : Guard) (d a b : Reg) (o : Option Scope) (y : Space) (w : Width) (s : State) : Result :=
  opSt g d a (.reg b) o y w s
def execStRL (g : Guard) (d a : Reg) (o : Option Scope) (y : Space) (w : Width) (lit : BitVec 32) (s : State) : Result :=
  opSt g d a (.lit lit) o y w s
def execStRK (g : Guard) (d a : Reg) (w : Width) (k : BitVec 8) (s : State) : Result :=
  opSt g d a (.const k) none .g w s
def execStRI (g : Guard) (d a : Reg) (imm : BitVec 13) (s : State) : Result :=
  opSt g d a (.imm imm) none .g .w64 s
def execLd2 (g : Guard) (d a b : Reg) (o : Option Scope) (y : Space) (s : State) : Result :=
  opLd2 g d a (.reg b) o y s
def execLd2RL (g : Guard) (d a : Reg) (o : Option Scope) (y : Space) (lit : BitVec 32) (s : State) : Result :=
  opLd2 g d a (.lit lit) o y s
def execLd2RK (g : Guard) (d a : Reg) (k : BitVec 8) (s : State) : Result :=
  opLd2 g d a (.const k) none .g s
def execLd2RI (g : Guard) (d a : Reg) (imm : BitVec 13) (s : State) : Result :=
  opLd2 g d a (.imm imm) none .g s
def execSt2 (g : Guard) (d a b : Reg) (o : Option Scope) (y : Space) (s : State) : Result :=
  opSt2 g d a (.reg b) o y s
def execSt2RL (g : Guard) (d a : Reg) (o : Option Scope) (y : Space) (lit : BitVec 32) (s : State) : Result :=
  opSt2 g d a (.lit lit) o y s
def execSt2RK (g : Guard) (d a : Reg) (k : BitVec 8) (s : State) : Result :=
  opSt2 g d a (.const k) none .g s
def execSt2RI (g : Guard) (d a : Reg) (imm : BitVec 13) (s : State) : Result :=
  opSt2 g d a (.imm imm) none .g s
def execLdq (g : Guard) (d a b : Reg) (o : Option Scope) (u : Bool) (f : Fmt) (s : State) : Result :=
  opLdq g d a (.reg b) o u f s
def execLdqRL (g : Guard) (d a : Reg) (o : Option Scope) (u : Bool) (f : Fmt) (lit : BitVec 32) (s : State) : Result :=
  opLdq g d a (.lit lit) o u f s
def execLdb (g : Guard) (d a b c : Reg) (y : Space) (z : Bool) (w : Width) (s : State) : Result :=
  opLdb g d a b (.reg c) y z w s
def execLdbRL (g : Guard) (d a b : Reg) (y : Space) (z : Bool) (w : Width) (lit : BitVec 32) (s : State) : Result :=
  opLdb g d a b (.lit lit) y z w s
def execLdbRK (g : Guard) (d a b : Reg) (w : Width) (k : BitVec 8) (s : State) : Result :=
  opLdb g d a b (.const k) .g false w s
def execLdfe (g : Guard) (d a b : Reg) (z : Bool) (y : Space) (s : State) : Result :=
  opLdfe g d a (.reg b) z y s
def execLdfeRL (g : Guard) (d a : Reg) (z : Bool) (y : Space) (lit : BitVec 32) (s : State) : Result :=
  opLdfe g d a (.lit lit) z y s
def execLdfeRK (g : Guard) (d a : Reg) (y : Space) (k : BitVec 8) (s : State) : Result :=
  opLdfe g d a (.const k) false y s
def execLdfeRI (g : Guard) (d a : Reg) (imm : BitVec 13) (s : State) : Result :=
  opLdfe g d a (.imm imm) false .g s
def execStfe (g : Guard) (d a b : Reg) (y : Space) (s : State) : Result :=
  opStfe g d a (.reg b) y s
def execStfeRL (g : Guard) (d a : Reg) (y : Space) (lit : BitVec 32) (s : State) : Result :=
  opStfe g d a (.lit lit) y s
def execStfeRK (g : Guard) (d a : Reg) (y : Space) (k : BitVec 8) (s : State) : Result :=
  opStfe g d a (.const k) y s
def execStfeRI (g : Guard) (d a : Reg) (imm : BitVec 13) (s : State) : Result :=
  opStfe g d a (.imm imm) .g s
def execFeset (g : Guard) (a b : Reg) (u : Bool) (y : Space) (s : State) : Result :=
  opFeset g a (.reg b) u y s
def execFesetRL (g : Guard) (a : Reg) (u : Bool) (y : Space) (lit : BitVec 32) (s : State) : Result :=
  opFeset g a (.lit lit) u y s
def execFesetRK (g : Guard) (a : Reg) (y : Space) (k : BitVec 8) (s : State) : Result :=
  opFeset g a (.const k) false y s
def execFesetRI (g : Guard) (a : Reg) (imm : BitVec 13) (s : State) : Result :=
  opFeset g a (.imm imm) false .g s
def execPref (g : Guard) (a b : Reg) (x : Bool) (s : State) : Result :=
  opPref g a (.reg b) x s
def execPrefRL (g : Guard) (a : Reg) (x : Bool) (lit : BitVec 32) (s : State) : Result :=
  opPref g a (.lit lit) x s
def execPrefRK (g : Guard) (a : Reg) (x : Bool) (k : BitVec 8) (s : State) : Result :=
  opPref g a (.const k) x s
def execPrefRI (g : Guard) (a : Reg) (imm : BitVec 13) (s : State) : Result :=
  opPref g a (.imm imm) false s
def execCwb (g : Guard) (a b : Reg) (s : State) : Result :=
  opCwb g a (.reg b) s
def execCwbRL (g : Guard) (a : Reg) (lit : BitVec 32) (s : State) : Result :=
  opCwb g a (.lit lit) s
def execCwbRK (g : Guard) (a : Reg) (k : BitVec 8) (s : State) : Result :=
  opCwb g a (.const k) s
def execCwbRI (g : Guard) (a : Reg) (imm : BitVec 13) (s : State) : Result :=
  opCwb g a (.imm imm) s
def execCinv (g : Guard) (a b : Reg) (s : State) : Result :=
  opCinv g a (.reg b) s
def execCinvRL (g : Guard) (a : Reg) (lit : BitVec 32) (s : State) : Result :=
  opCinv g a (.lit lit) s
def execCinvRK (g : Guard) (a : Reg) (k : BitVec 8) (s : State) : Result :=
  opCinv g a (.const k) s
def execCinvRI (g : Guard) (a : Reg) (imm : BitVec 13) (s : State) : Result :=
  opCinv g a (.imm imm) s

end Sys2Proof.Machine
end

