-- ==== Sys2Proof/Machine/Branch.lean ====
section
/-!
DEFINITION. Machine/Branch.lean: the branch instructions, their target checks (R145), the return stack (R136) and
overlay misses (R91). Each shared operation stands first; one definition for every constructor follows.
-/
namespace Sys2Proof.Machine

/-- A context waits for an overlay of its domain: the core's load of it is requested, unless it is under way (R91,
R92). -/
def State.requestOverlay (s : State) (b : Barrel) (overlay : Nat) (wait : Bool) : State :=
  let cl := clusterOfCore b.core
  let k := s.cluster cl
  let dom := b.held.line.domain
  let w := if wait then [b.who] else []
  let mine := fun (l : OverlayLoad) => l.core == b.core && l.domain == dom && l.overlay == overlay
  if k.loads.any mine then
    s.setCluster cl { k with loads := k.loads.map fun l => if mine l then { l with waiters := l.waiters ++ w } else l }
  else
    let l : OverlayLoad := { core := b.core, domain := dom, overlay := overlay, who := b.who, dirEntry := none, desc := none,
                             slot := none, image := 0, pageWait := false, waiters := w }
    s.setCluster cl { k with loads := k.loads ++ [l] }

/-- An overlay miss parks the thread with KIND OVERLAY (R91). -/
def State.overlayMiss (s : State) (b : Barrel) (overlay : Nat) : State :=
  (s.requestOverlay b overlay true).park b 7 overlay

/-- A target PC: an overlay and an offset, which may be negative before its check. -/
def targetPc (overlay : Nat) (o : Int) : BitVec 32 := BitVec.ofNat 32 (overlay * 2 ^ 16 + (o % 65536).toNat)

/-- A fault of a branch target check: AUX is the target PC, FAULT_VA 0, ACCESS 8 (R332, R333). -/
def State.branchFault (s : State) (b : Barrel) (code : FaultCode) (target : BitVec 32) : State :=
  s.takeFault b b.held.line code .none target 0

/-- The target checks 2 to 6 of R145, in their order. -/
def withTarget (s : State) (b : Barrel) (overlay : Nat) (o : Int) (go : BitVec 32 → Result) : Result :=
  let pc := targetPc overlay o
  if o % 4 ≠ 0 then .next (s.branchFault b .misaligned pc)
  else
    match execSlot (s.core b.core) b.held.line.domain overlay with
    | none => .next (s.overlayMiss b overlay)
    | some x =>
      if o < 0 ∨ (x.length : Int) ≤ o then .next (s.branchFault b .bounds pc)
      else if o % 64 = 0 then .next (s.branchFault b .branchToHeader pc)
      else if litBit (lineHeader s (slotBase b.core x) o.toNat) (o.toNat % 64 / 4) then
        .next (s.branchFault b .branchToLiteral pc)
      else go pc

/-- A register or literal target (R145 check 1). -/
def withRegTarget (s : State) (b : Barrel) (v : Word64) (go : BitVec 32 → Result) : Result :=
  if v.toNat / 2 ^ 32 ≠ 0 then .next (s.branchFault b .bounds (v.setWidth 32))
  else withTarget s b (bits v.toNat 31 16) (bits v.toNat 15 0 : Nat) go

/-- The offset o + 4 × disp (R145). -/
def Barrel.dispTarget (b : Barrel) (disp : Int) : Int := (b.held.line.pcOffset : Int) + 4 * disp

/-- `b` (R204). -/
def opB (g : Guard) (disp : BitVec 19) (s : State) : Result :=
  issue0 g s fun b =>
    withTarget s b b.held.line.pcOverlay (b.dispTarget disp.toInt) fun pc => .next (s.jumpTo b b.held.line pc)

/-- `jmp` (R204): a literal tail is zero-extended (R203). -/
def opJmp (g : Guard) (t : Tail) (s : State) : Result :=
  issue g t s fun b => withRegTarget s b (t.value s b true) fun pc => .next (s.jumpTo b b.held.line pc)

/-- `dbnz` (R207). -/
def opDbnz (g : Guard) (r : Reg) (disp : BitVec 16) (s : State) : Result :=
  issue0 g s fun b =>
    let v := b.held.line.reg r - 1
    if v = 0 then .next (s.complete b (b.held.line.setReg r 0))
    else withTarget s b b.held.line.pcOverlay (b.dispTarget disp.toInt) fun pc =>
      .next (s.jumpTo b (b.held.line.setReg r v) pc)

/-- The doubleword that a call pushes: the return PC and the predicate word (R136). -/
def pushBytes (b : Barrel) : List Byte := toBytes 4 b.nextPc.toNat ++ toBytes 4 b.held.line.readPred.toNat

/-- The push of a call and its completion (R136, R205): in the barrel at the core's own CLM when the buffer holds no
entry of the context; otherwise the thread parks with the PC of the call until the push is performed. LINK[2:0] is tested before the address is (assumption
131). -/
def pushTo (s : State) (b : Barrel) (pc : BitVec 32) : Result :=
  let l := b.held.line
  let sp := l.link - 8
  if l.link.toNat % 8 ≠ 0 then .next (s.fault b .misaligned .store sp.toNat)
  else
    withAccess s b .g sp.toNat 8 .plain rightsW .store fun s va tg =>
      let own := match tg with
        | .clm c _ => c == b.core
        | .tsp _ _ | .paged | .reg _ _ | .hole => false
      if own && !s.buffered b.core b.held.va then
        let (s, out) := s.bankDo { who := b.who, addr := va, size := 8, op := .store (pushBytes b), reply := .nothing,
                                   posted := false, acq := false }
        match out with
        | .fault c a => .next (s.fault b c .store a)
        | .value _ _ | .queue _ | .wait _ => .next (s.jumpTo b { l with link := sp } pc)
      else
        .next (s.enqueue b { who := b.who, va := va, size := 8, op := .store (pushBytes b), reply := .jump pc sp,
                             posted := false, acq := false } fun s => s.park b 1 8)

/-- `call` (R205). -/
def opCall (g : Guard) (disp : BitVec 19) (s : State) : Result :=
  issue0 g s fun b =>
    withTarget s b b.held.line.pcOverlay (b.dispTarget disp.toInt) fun pc => pushTo s b pc

/-- `callr` (R205). -/
def opCallr (g : Guard) (t : Tail) (s : State) : Result :=
  issue g t s fun b => withRegTarget s b (t.value s b true) fun pc => pushTo s b pc

/-- What `ret` does with the doubleword it read (R206). -/
def returnWith (s : State) (b : Barrel) (keep : Bool) (v : Nat) : Result :=
  let l := b.held.line
  withTarget s b (bits v 31 16) (bits v 15 0 : Nat) fun pc =>
    let p := v / 2 ^ 32
    let pred := if keep then l.pred.toNat else setBits (setBits l.pred.toNat 7 1 (bits p 7 1)) 13 13 (bits p 13 13)
    .next (s.jumpTo b { l with link := l.link + 8, pred := BitVec.ofNat 32 pred } pc)

/-- `ret` (R206): a read that the barrel cannot serve parks the thread, and `ret` reissues. -/
def opRet (g : Guard) (keep : Bool) (s : State) : Result :=
  issue0 g s fun b =>
    let sp := b.held.line.link
    if sp.toNat % 8 ≠ 0 then .next (s.fault b .misaligned .load sp.toNat)
    else
      withAccess s b .g sp.toNat 8 .plain rightsR .load fun s va tg =>
        withRead s b va 8 tg 0 fun s v => returnWith s b keep v

/-! One definition for every constructor. -/

def execB (g : Guard) (disp : BitVec 19) (s : State) : Result :=
  opB g disp s
def execCall (g : Guard) (disp : BitVec 19) (s : State) : Result :=
  opCall g disp s
def execDbnz (g : Guard) (r : Reg) (disp : BitVec 16) (s : State) : Result :=
  opDbnz g r disp s
def execJmp (g : Guard) (b : Reg) (s : State) : Result :=
  opJmp g (.reg b) s
def execJmpRL (g : Guard) (lit : BitVec 32) (s : State) : Result :=
  opJmp g (.lit lit) s
def execCallr (g : Guard) (b : Reg) (s : State) : Result :=
  opCallr g (.reg b) s
def execCallrRL (g : Guard) (lit : BitVec 32) (s : State) : Result :=
  opCallr g (.lit lit) s
def execRet (g : Guard) (k : Bool) (s : State) : Result :=
  opRet g k s

end Sys2Proof.Machine
end

