-- ==== Sys2Proof/Machine/Copy.lean ====
section
/-!
DEFINITION. Machine/Copy.lean: submitting copy jobs (R279 to R281) and asking after them (R282). Each shared operation
stands first; one definition for every constructor follows.
-/
namespace Sys2Proof.Machine

/-- Submit a job to a queue: the release at device scope, then the park until the queue answers (R279). -/
def submitTo (s : State) (b : Barrel) (cl : Nat) (kind : JobKind) (d : Reg) (pf : PReg) : Result :=
  withFence s b .dev true fun s b =>
    let r : JobReq := { who := b.who, cluster := cl, kind := kind, d := d, pf := pf }
    .next ({ s with jobReqs := s.jobReqs ++ [r] }.parkAdvance b 1 d.val)

/-- `cpy` (R280). -/
def opCpy (g : Guard) (d a b : Reg) (t : Tail) (pf : PReg) (s : State) : Result :=
  issue g t s fun br =>
    let l := br.held.line
    let n := (t.value s br false).toNat
    if 2 ^ 32 ≤ n then .next (s.fault br .bounds .none 0)
    else submitTo s br (clusterOfCore br.core) (.copy (l.reg a).toNat (l.reg b).toNat n) d pf

/-- `cpy2` (R280): the tail is the geometry word. -/
def opCpy2 (g : Guard) (d a b : Reg) (t : Tail) (pf : PReg) (s : State) : Result :=
  issue g t s fun br =>
    let l := br.held.line
    let w := (t.value s br false).toNat
    let rows := bits w 23 12 + 1
    let n := bits w 11 0 + 1
    if bits w 63 44 < n ∧ 1 < rows then .next (s.fault br .bounds .none 0)
    else
      submitTo s br (clusterOfCore br.core)
        (.copy2 (l.reg a).toNat (l.reg b).toNat rows n (bits w 63 44) (bits w 43 24)) d pf

/-- `cpyg` (R280): register c holds the index list, the next one the count and the element size. -/
def opCpyg (g : Guard) (d a b c : Reg) (pf : PReg) (s : State) : Result :=
  issue0 g s fun br =>
    let l := br.held.line
    let w := (l.reg (pairOf c)).toNat
    let list := (l.reg c).toNat
    if 12 < bits w 35 32 ∨ bits w 63 36 ≠ 0 then .next (s.fault br .bounds .none 0)
    else if list % 4 ≠ 0 then .next (s.fault br .misaligned .copySrc list)
    else
      submitTo s br (clusterOfCore br.core)
        (.gather (l.reg a).toNat (l.reg b).toNat list (bits w 31 0) (bits w 35 32)) d pf

/-- A tile load or store goes to the queue of the tile's home cluster, where the rest of its handle is checked (R281). -/
def tileCopy (g : Guard) (d a : Reg) (t : Tail) (pf : PReg) (acc : AccessKind) (kind : Line → Nat → Word64 → JobKind)
    (s : State) : Result :=
  issue g t s fun b =>
    let h := b.held.line.reg a
    if 2 ^ 32 ≤ h.toNat then .next (s.fault b .staleHandle acc h.toNat)
    else submitTo s b (handleCluster h.toNat) (kind b.held.line h.toNat (t.value s b false)) d pf

/-- `tload` and `tload.sub` (R281). -/
def opTload (g : Guard) (d a b : Reg) (t : Tail) (sub : Bool) (pf : PReg) (s : State) : Result :=
  tileCopy g d a t pf .copyDst (fun l h x => if sub then .tloadSub h else .tload h (l.reg b).toNat x.toInt) s

def opTstore (g : Guard) (d a b : Reg) (t : Tail) (pf : PReg) (s : State) : Result :=
  tileCopy g d a t pf .copySrc (fun l h x => .tstore h (l.reg b).toNat x.toInt) s

/-- The checks of a job identifier (R108). -/
def withJob (s : State) (b : Barrel) (a : Reg) (go : Nat → Result) : Result :=
  let j := (b.held.line.reg a).toNat
  let other := match s.jobOf j with
    | some x => x.who.domain.toNat != b.held.line.domain
    | none => false
  if 2 ^ 27 ≤ j ∨ s.inPartition b.held.line.partition (jobCluster j) = false then
    .next (s.fault b .protection .none 0)
  else if other then .next (s.fault b .protection .none 0)
  else go j

/-- `jpoll` (R282): a DONE word is an acquire at device scope (R110); a remote queue costs a round trip. -/
def opJpoll (g : Guard) (d a : Reg) (pf : PReg) (s : State) : Result :=
  issue0 g s fun b =>
    withJob s b a fun j =>
      let st := s.jobStatus j
      let s := if st.isSome then s.acquire b.core .dev else s
      if jobCluster j = clusterOfCore b.core then
        .next (s.complete b ((b.held.line.setReg d (jobWord st)).setPredicate pf st.isSome))
      else
        .next ((s.reply b.who 1 (.done [(d, jobWord st)] (some (pf, st.isSome)) 0)).parkAdvance b 1 d.val)

/-- Wait for a job: at once when the job is DONE or gone, otherwise with KIND JOB (R110, R282). -/
def awaitJob (s : State) (b : Barrel) (j : Nat) (d : Reg) : Result :=
  match s.jobStatus j with
  | some st =>
    if jobCluster j = clusterOfCore b.core ∨ st = .expired then
      .next ((s.acquire b.core .dev).complete b (b.held.line.setReg d (jobWord (some st))))
    else .next ((s.reply b.who 2 (.done [(d, jobWord (some st))] none 0)).parkAdvance b 2 j)
  | none => .next ((s.jobAwait j b.who d).parkAdvance b 2 j)

/-- `jwait` (R282). -/
def opJwait (g : Guard) (d a : Reg) (s : State) : Result :=
  issue0 g s fun b => withJob s b a fun j => awaitJob s b j d

/-- `jcancel` (R109, R282). -/
def opJcancel (g : Guard) (d a : Reg) (s : State) : Result :=
  issue0 g s fun b => withJob s b a fun j => awaitJob (s.jobCancel j) b j d

/-! One definition for every constructor. -/

def execCpy (g : Guard) (d a b c : Reg) (pf : PReg) (s : State) : Result :=
  opCpy g d a b (.reg c) pf s
def execCpyRL (g : Guard) (d a b : Reg) (pf : PReg) (lit : BitVec 32) (s : State) : Result :=
  opCpy g d a b (.lit lit) pf s
def execCpy2 (g : Guard) (d a b c : Reg) (pf : PReg) (s : State) : Result :=
  opCpy2 g d a b (.reg c) pf s
def execCpy2RL (g : Guard) (d a b : Reg) (pf : PReg) (lit : BitVec 32) (s : State) : Result :=
  opCpy2 g d a b (.lit lit) pf s
def execCpyg (g : Guard) (d a b c : Reg) (pf : PReg) (s : State) : Result :=
  opCpyg g d a b c pf s
def execTload (g : Guard) (d a b c : Reg) (s : Bool) (pf : PReg) (st : State) : Result :=
  opTload g d a b (.reg c) s pf st
def execTloadRL (g : Guard) (d a b : Reg) (s : Bool) (pf : PReg) (lit : BitVec 32) (st : State) : Result :=
  opTload g d a b (.lit lit) s pf st
def execTstore (g : Guard) (d a b c : Reg) (pf : PReg) (s : State) : Result :=
  opTstore g d a b (.reg c) pf s
def execTstoreRL (g : Guard) (d a b : Reg) (pf : PReg) (lit : BitVec 32) (s : State) : Result :=
  opTstore g d a b (.lit lit) pf s
def execJpoll (g : Guard) (d a : Reg) (pf : PReg) (s : State) : Result :=
  opJpoll g d a pf s
def execJwait (g : Guard) (d a : Reg) (s : State) : Result :=
  opJwait g d a s
def execJcancel (g : Guard) (d a : Reg) (s : State) : Result :=
  opJcancel g d a s

end Sys2Proof.Machine
end

