-- ==== Sys2Proof/Machine/Integer.lean ====
section
/-!
DEFINITION. Machine/Integer.lean: arithmetic, logic, shifts, single-source operations, bit fields, compare, test,
select, moves and the predicate word (R184 to R198). Each shared operation stands first; one definition for every
constructor follows.
-/
namespace Sys2Proof.Machine

/-- `add` and `sub` (R187, R188). -/
def opAddSub (isAdd : Bool) (g : Guard) (d a : Reg) (t : Tail) (m : CarryMode) (z : Bool) (w : Width) (s : State) :
    Result :=
  issue g t s fun b =>
    let l := b.held.line
    let (r, c) := addSub isAdd m z (widthBits w) (l.reg a) (t.value s b z) l.carry
    let l := l.setReg d (extend (widthBits w) z r)
    .next (s.complete b (match c with | some v => l.setCarry v | none => l))

def opAdd := opAddSub true
def opSub := opAddSub false

/-- The shape of the other two-source operations of R187: d := ext_Z(r). -/
def binary (r : Nat → Word64 → Word64 → Int) (g : Guard) (d a : Reg) (t : Tail) (z : Bool) (w : Width) (s : State) :
    Result :=
  writeReg g t z d s fun l v => extend (widthBits w) z (r (widthBits w) (l.reg a) v)

def opMul := binary fun w x y => uv w x * uv w y
def opMulh := binary fun w x y => (sv w x * sv w y) / (2 ^ w : Nat)
def opMulhu := binary fun w x y => ((uv w x * uv w y / 2 ^ w : Nat) : Int)
/-- Quotients truncate toward zero; a divisor of 0 gives all ones; the most negative by −1 wraps (R189). -/
def opDiv := binary fun w x y => if sv w y = 0 then -1 else (sv w x).tdiv (sv w y)
def opDivu := binary fun w x y => if uv w y = 0 then ((2 ^ w - 1 : Nat) : Int) else ((uv w x / uv w y : Nat) : Int)
/-- A remainder has the sign of its dividend; a divisor of 0 gives the dividend (R189). -/
def opRem := binary fun w x y => if sv w y = 0 then sv w x else (sv w x).tmod (sv w y)
def opRemu := binary fun w x y => if uv w y = 0 then (uv w x : Int) else ((uv w x % uv w y : Nat) : Int)
def opAnd := binary fun _ x y => (x &&& y).toNat
def opOr := binary fun _ x y => (x ||| y).toNat
def opXor := binary fun _ x y => (x ^^^ y).toNat
def opAndn := binary fun _ x y => (x &&& ~~~y).toNat
def opOrn := binary fun _ x y => (x ||| ~~~y).toNat
/-- The shift count is the whole tail modulo W (R187). -/
def opShl := binary fun w x y => ((uv w x * 2 ^ (y.toNat % w) : Nat) : Int)
def opShr := binary fun w x y => ((uv w x / 2 ^ (y.toNat % w) : Nat) : Int)
def opSar := binary fun w x y => sv w x / (2 ^ (y.toNat % w) : Nat)
def opRol := binary fun w x y =>
  let n := y.toNat % w
  ((uv w x * 2 ^ n % 2 ^ w + uv w x / 2 ^ (w - n) : Nat) : Int)
def opRor := binary fun w x y =>
  let n := y.toNat % w
  ((uv w x / 2 ^ n + uv w x * 2 ^ (w - n) % 2 ^ w : Nat) : Int)
def opMin := binary fun w x y => min (sv w x) (sv w y)
def opMax := binary fun w x y => max (sv w x) (sv w y)
def opMinu := binary fun w x y => ((min (uv w x) (uv w y) : Nat) : Int)
def opMaxu := binary fun w x y => ((max (uv w x) (uv w y) : Nat) : Int)

/-! Single-source operations (R190). -/

/-- The magnitude; 2^(W−1) wraps without `.sat` and saturates to 2^(W−1) − 1 with it. -/
def opAbs (g : Guard) (d a : Reg) (sat z : Bool) (w : Width) (s : State) : Result :=
  writeReg0 g d s fun l =>
    let n := widthBits w
    let m : Int := ((sv n (l.reg a)).natAbs : Int)
    extend n z (if sat then min m (2 ^ (n - 1) - 1) else m)

def opClz (g : Guard) (d a : Reg) (w : Width) (s : State) : Result :=
  writeReg0 g d s fun l => BitVec.ofNat 64 (leadingZeros (widthBits w) (l.reg a).toNat)
def opCtz (g : Guard) (d a : Reg) (w : Width) (s : State) : Result :=
  writeReg0 g d s fun l => BitVec.ofNat 64 (trailingZeros (widthBits w) (l.reg a).toNat)
def opPopc (g : Guard) (d a : Reg) (w : Width) (s : State) : Result :=
  writeReg0 g d s fun l => BitVec.ofNat 64 (popCount (widthBits w) (l.reg a).toNat)
def opBswap (g : Guard) (d a : Reg) (z : Bool) (w : Width) (s : State) : Result :=
  writeReg0 g d s fun l => extend (widthBits w) z (reverseBytes (widthBits w / 8) (l.reg a).toNat : Nat)
def opBrev (g : Guard) (d a : Reg) (z : Bool) (w : Width) (s : State) : Result :=
  writeReg0 g d s fun l => extend (widthBits w) z (reverseBits (widthBits w) (l.reg a).toNat : Nat)
def opSext (g : Guard) (d a : Reg) (w : Width) (s : State) : Result :=
  writeReg0 g d s fun l => extend (widthBits w) false (uv (widthBits w) (l.reg a))
def opZext (g : Guard) (d a : Reg) (w : Width) (s : State) : Result :=
  writeReg0 g d s fun l => extend (widthBits w) true (uv (widthBits w) (l.reg a))

/-! Bit fields (R191): the tail is a field specification; the field stops at bit 63. -/

/-- The field's position and its length after the cut at bit 63. -/
def fieldOf (v : Word64) : Nat × Nat :=
  let pos := bits v.toNat 5 0
  (pos, min (bits v.toNat 11 6 + 1) (64 - pos))

def opExt (g : Guard) (d a : Reg) (t : Tail) (s : State) : Result :=
  writeReg g t false d s fun l v =>
    let (pos, n) := fieldOf v
    extend n (bit v.toNat 12) ((l.reg a).toNat / 2 ^ pos : Nat)

def opIns (g : Guard) (d a : Reg) (t : Tail) (s : State) : Result :=
  writeReg g t false d s fun l v =>
    let (pos, n) := fieldOf v
    BitVec.ofNat 64 (setBits (l.reg d).toNat (pos + n - 1) pos (l.reg a).toNat)

/-! Compare, test, select and moves (R192 to R196). -/

/-- A condition of `cmp` at width w (R192). -/
def condHolds (n : Cond) (w : Nat) (x y : Word64) : Bool :=
  match n with
  | .eq => uv w x == uv w y
  | .ne => uv w x != uv w y
  | .lt => decide (sv w x < sv w y)
  | .ge => decide (sv w y ≤ sv w x)
  | .le => decide (sv w x ≤ sv w y)
  | .gt => decide (sv w y < sv w x)
  | .ltu => decide (uv w x < uv w y)
  | .geu => decide (uv w y ≤ uv w x)
  | .leu => decide (uv w x ≤ uv w y)
  | .gtu => decide (uv w y < uv w x)

def opCmp (g : Guard) (p : PReg) (a : Reg) (t : Tail) (z : Bool) (w : Width) (n : Cond) (s : State) : Result :=
  writePred g t z p s fun l v => condHolds n (widthBits w) (l.reg a) v

/-- `tst`; with `.none` (neg) the predicate tells that no selected bit is set (R193). -/
def opTst (g : Guard) (p : PReg) (a : Reg) (t : Tail) (z neg : Bool) (s : State) : Result :=
  writePred g t z p s fun l v => ((l.reg a &&& v) != 0) != neg

def opSel (g : Guard) (d a : Reg) (t : Tail) (q : PReg) (neg : Bool) (s : State) : Result :=
  writeReg g t false d s fun l v => if l.predicate q != neg then l.reg a else v

def opMov (g : Guard) (d : Reg) (t : Tail) (z : Bool) (s : State) : Result :=
  writeReg g t z d s fun _ v => v

def opMovi (g : Guard) (d : Reg) (t : Tail) (s : State) : Result :=
  writeReg g t false d s fun _ v => v

/-- d := (d × 2^13 + uv_13(imm13)) mod 2^64 (R196). -/
def opMovh (g : Guard) (d : Reg) (t : Tail) (s : State) : Result :=
  writeReg g t false d s fun l v => BitVec.ofNat 64 ((l.reg d).toNat * 2 ^ 13 + v.toNat % 2 ^ 13)

/-! The predicate word (R197, R198). -/

def psetOf (o : PsetOp) (x y : Bool) : Bool :=
  match o with
  | .and => x && y
  | .or => x || y
  | .xor => x != y
  | .andn => x && !y
  | .orn => x || !y
  | .nand => !(x && y)
  | .nor => !(x || y)
  | .xnor => x == y

def opPset (g : Guard) (p pa pb : PReg) (o : PsetOp) (s : State) : Result :=
  issue0 g s fun b =>
    let l := b.held.line
    .next (s.complete b (l.setPredicate p (psetOf o (l.predicate pa) (l.predicate pb))))

def opRdp (g : Guard) (d : Reg) (s : State) : Result :=
  writeReg0 g d s fun l => l.readPred.setWidth 64

/-- PRED := (PRED AND NOT m) OR (lo_32(a) AND m), with m the writable bits of the mask (R198). -/
def opWrp (g : Guard) (a : Reg) (t : Tail) (s : State) : Result :=
  issue g t s fun b =>
    let l := b.held.line
    let m := (t.value s b false).setWidth 32 &&& wrpMask
    .next (s.complete b { l with pred := (l.pred &&& ~~~m) ||| ((l.reg a).setWidth 32 &&& m) })

/-! One definition for every constructor. -/

def execAdd (g : Guard) (d a b : Reg) (m : CarryMode) (z : Bool) (w : Width) (s : State) : Result :=
  opAdd g d a (.reg b) m z w s
def execAddRL (g : Guard) (d a : Reg) (m : CarryMode) (z : Bool) (w : Width) (lit : BitVec 32) (s : State) : Result :=
  opAdd g d a (.lit lit) m z w s
def execAddRK (g : Guard) (d a : Reg) (w : Width) (k : BitVec 8) (s : State) : Result :=
  opAdd g d a (.const k) .none false w s
def execAddRI (g : Guard) (d a : Reg) (imm : BitVec 13) (s : State) : Result :=
  opAdd g d a (.imm imm) .none false .w64 s
def execSub (g : Guard) (d a b : Reg) (m : CarryMode) (z : Bool) (w : Width) (s : State) : Result :=
  opSub g d a (.reg b) m z w s
def execSubRL (g : Guard) (d a : Reg) (m : CarryMode) (z : Bool) (w : Width) (lit : BitVec 32) (s : State) : Result :=
  opSub g d a (.lit lit) m z w s
def execSubRK (g : Guard) (d a : Reg) (w : Width) (k : BitVec 8) (s : State) : Result :=
  opSub g d a (.const k) .none false w s
def execSubRI (g : Guard) (d a : Reg) (imm : BitVec 13) (s : State) : Result :=
  opSub g d a (.imm imm) .none false .w64 s
def execMul (g : Guard) (d a b : Reg) (z : Bool) (w : Width) (s : State) : Result :=
  opMul g d a (.reg b) z w s
def execMulRL (g : Guard) (d a : Reg) (z : Bool) (w : Width) (lit : BitVec 32) (s : State) : Result :=
  opMul g d a (.lit lit) z w s
def execMulRK (g : Guard) (d a : Reg) (w : Width) (k : BitVec 8) (s : State) : Result :=
  opMul g d a (.const k) false w s
def execMulRI (g : Guard) (d a : Reg) (imm : BitVec 13) (s : State) : Result :=
  opMul g d a (.imm imm) false .w64 s
def execMulh (g : Guard) (d a b : Reg) (z : Bool) (w : Width) (s : State) : Result :=
  opMulh g d a (.reg b) z w s
def execMulhRL (g : Guard) (d a : Reg) (z : Bool) (w : Width) (lit : BitVec 32) (s : State) : Result :=
  opMulh g d a (.lit lit) z w s
def execMulhRK (g : Guard) (d a : Reg) (w : Width) (k : BitVec 8) (s : State) : Result :=
  opMulh g d a (.const k) false w s
def execMulhRI (g : Guard) (d a : Reg) (imm : BitVec 13) (s : State) : Result :=
  opMulh g d a (.imm imm) false .w64 s
def execMulhu (g : Guard) (d a b : Reg) (z : Bool) (w : Width) (s : State) : Result :=
  opMulhu g d a (.reg b) z w s
def execMulhuRL (g : Guard) (d a : Reg) (z : Bool) (w : Width) (lit : BitVec 32) (s : State) : Result :=
  opMulhu g d a (.lit lit) z w s
def execMulhuRK (g : Guard) (d a : Reg) (w : Width) (k : BitVec 8) (s : State) : Result :=
  opMulhu g d a (.const k) false w s
def execMulhuRI (g : Guard) (d a : Reg) (imm : BitVec 13) (s : State) : Result :=
  opMulhu g d a (.imm imm) false .w64 s
def execDiv (g : Guard) (d a b : Reg) (z : Bool) (w : Width) (s : State) : Result :=
  opDiv g d a (.reg b) z w s
def execDivRL (g : Guard) (d a : Reg) (z : Bool) (w : Width) (lit : BitVec 32) (s : State) : Result :=
  opDiv g d a (.lit lit) z w s
def execDivRK (g : Guard) (d a : Reg) (w : Width) (k : BitVec 8) (s : State) : Result :=
  opDiv g d a (.const k) false w s
def execDivRI (g : Guard) (d a : Reg) (imm : BitVec 13) (s : State) : Result :=
  opDiv g d a (.imm imm) false .w64 s
def execDivu (g : Guard) (d a b : Reg) (z : Bool) (w : Width) (s : State) : Result :=
  opDivu g d a (.reg b) z w s
def execDivuRL (g : Guard) (d a : Reg) (z : Bool) (w : Width) (lit : BitVec 32) (s : State) : Result :=
  opDivu g d a (.lit lit) z w s
def execDivuRK (g : Guard) (d a : Reg) (w : Width) (k : BitVec 8) (s : State) : Result :=
  opDivu g d a (.const k) false w s
def execDivuRI (g : Guard) (d a : Reg) (imm : BitVec 13) (s : State) : Result :=
  opDivu g d a (.imm imm) false .w64 s
def execRem (g : Guard) (d a b : Reg) (z : Bool) (w : Width) (s : State) : Result :=
  opRem g d a (.reg b) z w s
def execRemRL (g : Guard) (d a : Reg) (z : Bool) (w : Width) (lit : BitVec 32) (s : State) : Result :=
  opRem g d a (.lit lit) z w s
def execRemRK (g : Guard) (d a : Reg) (w : Width) (k : BitVec 8) (s : State) : Result :=
  opRem g d a (.const k) false w s
def execRemRI (g : Guard) (d a : Reg) (imm : BitVec 13) (s : State) : Result :=
  opRem g d a (.imm imm) false .w64 s
def execRemu (g : Guard) (d a b : Reg) (z : Bool) (w : Width) (s : State) : Result :=
  opRemu g d a (.reg b) z w s
def execRemuRL (g : Guard) (d a : Reg) (z : Bool) (w : Width) (lit : BitVec 32) (s : State) : Result :=
  opRemu g d a (.lit lit) z w s
def execRemuRK (g : Guard) (d a : Reg) (w : Width) (k : BitVec 8) (s : State) : Result :=
  opRemu g d a (.const k) false w s
def execRemuRI (g : Guard) (d a : Reg) (imm : BitVec 13) (s : State) : Result :=
  opRemu g d a (.imm imm) false .w64 s
def execAnd (g : Guard) (d a b : Reg) (z : Bool) (w : Width) (s : State) : Result :=
  opAnd g d a (.reg b) z w s
def execAndRL (g : Guard) (d a : Reg) (z : Bool) (w : Width) (lit : BitVec 32) (s : State) : Result :=
  opAnd g d a (.lit lit) z w s
def execAndRK (g : Guard) (d a : Reg) (w : Width) (k : BitVec 8) (s : State) : Result :=
  opAnd g d a (.const k) false w s
def execAndRI (g : Guard) (d a : Reg) (imm : BitVec 13) (s : State) : Result :=
  opAnd g d a (.imm imm) false .w64 s
def execOr (g : Guard) (d a b : Reg) (z : Bool) (w : Width) (s : State) : Result :=
  opOr g d a (.reg b) z w s
def execOrRL (g : Guard) (d a : Reg) (z : Bool) (w : Width) (lit : BitVec 32) (s : State) : Result :=
  opOr g d a (.lit lit) z w s
def execOrRK (g : Guard) (d a : Reg) (w : Width) (k : BitVec 8) (s : State) : Result :=
  opOr g d a (.const k) false w s
def execOrRI (g : Guard) (d a : Reg) (imm : BitVec 13) (s : State) : Result :=
  opOr g d a (.imm imm) false .w64 s
def execXor (g : Guard) (d a b : Reg) (z : Bool) (w : Width) (s : State) : Result :=
  opXor g d a (.reg b) z w s
def execXorRL (g : Guard) (d a : Reg) (z : Bool) (w : Width) (lit : BitVec 32) (s : State) : Result :=
  opXor g d a (.lit lit) z w s
def execXorRK (g : Guard) (d a : Reg) (w : Width) (k : BitVec 8) (s : State) : Result :=
  opXor g d a (.const k) false w s
def execXorRI (g : Guard) (d a : Reg) (imm : BitVec 13) (s : State) : Result :=
  opXor g d a (.imm imm) false .w64 s
def execAndn (g : Guard) (d a b : Reg) (z : Bool) (w : Width) (s : State) : Result :=
  opAndn g d a (.reg b) z w s
def execAndnRL (g : Guard) (d a : Reg) (z : Bool) (w : Width) (lit : BitVec 32) (s : State) : Result :=
  opAndn g d a (.lit lit) z w s
def execAndnRK (g : Guard) (d a : Reg) (w : Width) (k : BitVec 8) (s : State) : Result :=
  opAndn g d a (.const k) false w s
def execAndnRI (g : Guard) (d a : Reg) (imm : BitVec 13) (s : State) : Result :=
  opAndn g d a (.imm imm) false .w64 s
def execOrn (g : Guard) (d a b : Reg) (z : Bool) (w : Width) (s : State) : Result :=
  opOrn g d a (.reg b) z w s
def execOrnRL (g : Guard) (d a : Reg) (z : Bool) (w : Width) (lit : BitVec 32) (s : State) : Result :=
  opOrn g d a (.lit lit) z w s
def execOrnRK (g : Guard) (d a : Reg) (w : Width) (k : BitVec 8) (s : State) : Result :=
  opOrn g d a (.const k) false w s
def execOrnRI (g : Guard) (d a : Reg) (imm : BitVec 13) (s : State) : Result :=
  opOrn g d a (.imm imm) false .w64 s
def execShl (g : Guard) (d a b : Reg) (z : Bool) (w : Width) (s : State) : Result :=
  opShl g d a (.reg b) z w s
def execShlRL (g : Guard) (d a : Reg) (z : Bool) (w : Width) (lit : BitVec 32) (s : State) : Result :=
  opShl g d a (.lit lit) z w s
def execShlRK (g : Guard) (d a : Reg) (w : Width) (k : BitVec 8) (s : State) : Result :=
  opShl g d a (.const k) false w s
def execShlRI (g : Guard) (d a : Reg) (imm : BitVec 13) (s : State) : Result :=
  opShl g d a (.imm imm) false .w64 s
def execShr (g : Guard) (d a b : Reg) (z : Bool) (w : Width) (s : State) : Result :=
  opShr g d a (.reg b) z w s
def execShrRL (g : Guard) (d a : Reg) (z : Bool) (w : Width) (lit : BitVec 32) (s : State) : Result :=
  opShr g d a (.lit lit) z w s
def execShrRK (g : Guard) (d a : Reg) (w : Width) (k : BitVec 8) (s : State) : Result :=
  opShr g d a (.const k) false w s
def execShrRI (g : Guard) (d a : Reg) (imm : BitVec 13) (s : State) : Result :=
  opShr g d a (.imm imm) false .w64 s
def execSar (g : Guard) (d a b : Reg) (z : Bool) (w : Width) (s : State) : Result :=
  opSar g d a (.reg b) z w s
def execSarRL (g : Guard) (d a : Reg) (z : Bool) (w : Width) (lit : BitVec 32) (s : State) : Result :=
  opSar g d a (.lit lit) z w s
def execSarRK (g : Guard) (d a : Reg) (w : Width) (k : BitVec 8) (s : State) : Result :=
  opSar g d a (.const k) false w s
def execSarRI (g : Guard) (d a : Reg) (imm : BitVec 13) (s : State) : Result :=
  opSar g d a (.imm imm) false .w64 s
def execRol (g : Guard) (d a b : Reg) (z : Bool) (w : Width) (s : State) : Result :=
  opRol g d a (.reg b) z w s
def execRolRL (g : Guard) (d a : Reg) (z : Bool) (w : Width) (lit : BitVec 32) (s : State) : Result :=
  opRol g d a (.lit lit) z w s
def execRolRK (g : Guard) (d a : Reg) (w : Width) (k : BitVec 8) (s : State) : Result :=
  opRol g d a (.const k) false w s
def execRolRI (g : Guard) (d a : Reg) (imm : BitVec 13) (s : State) : Result :=
  opRol g d a (.imm imm) false .w64 s
def execRor (g : Guard) (d a b : Reg) (z : Bool) (w : Width) (s : State) : Result :=
  opRor g d a (.reg b) z w s
def execRorRL (g : Guard) (d a : Reg) (z : Bool) (w : Width) (lit : BitVec 32) (s : State) : Result :=
  opRor g d a (.lit lit) z w s
def execRorRK (g : Guard) (d a : Reg) (w : Width) (k : BitVec 8) (s : State) : Result :=
  opRor g d a (.const k) false w s
def execRorRI (g : Guard) (d a : Reg) (imm : BitVec 13) (s : State) : Result :=
  opRor g d a (.imm imm) false .w64 s
def execMin (g : Guard) (d a b : Reg) (z : Bool) (w : Width) (s : State) : Result :=
  opMin g d a (.reg b) z w s
def execMinRL (g : Guard) (d a : Reg) (z : Bool) (w : Width) (lit : BitVec 32) (s : State) : Result :=
  opMin g d a (.lit lit) z w s
def execMinRK (g : Guard) (d a : Reg) (w : Width) (k : BitVec 8) (s : State) : Result :=
  opMin g d a (.const k) false w s
def execMinRI (g : Guard) (d a : Reg) (imm : BitVec 13) (s : State) : Result :=
  opMin g d a (.imm imm) false .w64 s
def execMax (g : Guard) (d a b : Reg) (z : Bool) (w : Width) (s : State) : Result :=
  opMax g d a (.reg b) z w s
def execMaxRL (g : Guard) (d a : Reg) (z : Bool) (w : Width) (lit : BitVec 32) (s : State) : Result :=
  opMax g d a (.lit lit) z w s
def execMaxRK (g : Guard) (d a : Reg) (w : Width) (k : BitVec 8) (s : State) : Result :=
  opMax g d a (.const k) false w s
def execMaxRI (g : Guard) (d a : Reg) (imm : BitVec 13) (s : State) : Result :=
  opMax g d a (.imm imm) false .w64 s
def execMinu (g : Guard) (d a b : Reg) (z : Bool) (w : Width) (s : State) : Result :=
  opMinu g d a (.reg b) z w s
def execMinuRL (g : Guard) (d a : Reg) (z : Bool) (w : Width) (lit : BitVec 32) (s : State) : Result :=
  opMinu g d a (.lit lit) z w s
def execMinuRK (g : Guard) (d a : Reg) (w : Width) (k : BitVec 8) (s : State) : Result :=
  opMinu g d a (.const k) false w s
def execMinuRI (g : Guard) (d a : Reg) (imm : BitVec 13) (s : State) : Result :=
  opMinu g d a (.imm imm) false .w64 s
def execMaxu (g : Guard) (d a b : Reg) (z : Bool) (w : Width) (s : State) : Result :=
  opMaxu g d a (.reg b) z w s
def execMaxuRL (g : Guard) (d a : Reg) (z : Bool) (w : Width) (lit : BitVec 32) (s : State) : Result :=
  opMaxu g d a (.lit lit) z w s
def execMaxuRK (g : Guard) (d a : Reg) (w : Width) (k : BitVec 8) (s : State) : Result :=
  opMaxu g d a (.const k) false w s
def execMaxuRI (g : Guard) (d a : Reg) (imm : BitVec 13) (s : State) : Result :=
  opMaxu g d a (.imm imm) false .w64 s
def execAbs (g : Guard) (d a : Reg) (s z : Bool) (w : Width) (st : State) : Result :=
  opAbs g d a s z w st
def execClz (g : Guard) (d a : Reg) (w : Width) (s : State) : Result :=
  opClz g d a w s
def execCtz (g : Guard) (d a : Reg) (w : Width) (s : State) : Result :=
  opCtz g d a w s
def execPopc (g : Guard) (d a : Reg) (w : Width) (s : State) : Result :=
  opPopc g d a w s
def execBswap (g : Guard) (d a : Reg) (z : Bool) (w : Width) (s : State) : Result :=
  opBswap g d a z w s
def execBrev (g : Guard) (d a : Reg) (z : Bool) (w : Width) (s : State) : Result :=
  opBrev g d a z w s
def execSext (g : Guard) (d a : Reg) (w : Width) (s : State) : Result :=
  opSext g d a w s
def execZext (g : Guard) (d a : Reg) (w : Width) (s : State) : Result :=
  opZext g d a w s
def execExt (g : Guard) (d a b : Reg) (s : State) : Result :=
  opExt g d a (.reg b) s
def execExtRL (g : Guard) (d a : Reg) (lit : BitVec 32) (s : State) : Result :=
  opExt g d a (.lit lit) s
def execExtRK (g : Guard) (d a : Reg) (k : BitVec 8) (s : State) : Result :=
  opExt g d a (.const k) s
def execExtRI (g : Guard) (d a : Reg) (imm : BitVec 13) (s : State) : Result :=
  opExt g d a (.imm imm) s
def execIns (g : Guard) (d a b : Reg) (s : State) : Result :=
  opIns g d a (.reg b) s
def execInsRL (g : Guard) (d a : Reg) (lit : BitVec 32) (s : State) : Result :=
  opIns g d a (.lit lit) s
def execInsRK (g : Guard) (d a : Reg) (k : BitVec 8) (s : State) : Result :=
  opIns g d a (.const k) s
def execInsRI (g : Guard) (d a : Reg) (imm : BitVec 13) (s : State) : Result :=
  opIns g d a (.imm imm) s
def execCmp (g : Guard) (p : PReg) (a b : Reg) (z : Bool) (w : Width) (n : Cond) (s : State) : Result :=
  opCmp g p a (.reg b) z w n s
def execCmpRL (g : Guard) (p : PReg) (a : Reg) (z : Bool) (w : Width) (n : Cond) (lit : BitVec 32) (s : State) : Result :=
  opCmp g p a (.lit lit) z w n s
def execCmpRK (g : Guard) (p : PReg) (a : Reg) (n : Cond) (k : BitVec 8) (s : State) : Result :=
  opCmp g p a (.const k) false .w64 n s
def execCmpRI (g : Guard) (p : PReg) (a : Reg) (imm : BitVec 13) (s : State) : Result :=
  opCmp g p a (.imm imm) false .w64 .eq s
def execTst (g : Guard) (p : PReg) (a b : Reg) (z n : Bool) (s : State) : Result :=
  opTst g p a (.reg b) z n s
def execTstRL (g : Guard) (p : PReg) (a : Reg) (z n : Bool) (lit : BitVec 32) (s : State) : Result :=
  opTst g p a (.lit lit) z n s
def execTstRK (g : Guard) (p : PReg) (a : Reg) (z n : Bool) (k : BitVec 8) (s : State) : Result :=
  opTst g p a (.const k) z n s
def execTstRI (g : Guard) (p : PReg) (a : Reg) (imm : BitVec 13) (s : State) : Result :=
  opTst g p a (.imm imm) false false s
def execSel (g : Guard) (d a b : Reg) (q : PReg) (n : Bool) (s : State) : Result :=
  opSel g d a (.reg b) q n s
def execSelRL (g : Guard) (d a : Reg) (q : PReg) (n : Bool) (lit : BitVec 32) (s : State) : Result :=
  opSel g d a (.lit lit) q n s
def execMov (g : Guard) (d b : Reg) (z : Bool) (s : State) : Result :=
  opMov g d (.reg b) z s
def execMovRL (g : Guard) (d : Reg) (z : Bool) (lit : BitVec 32) (s : State) : Result :=
  opMov g d (.lit lit) z s
def execMovRK (g : Guard) (d : Reg) (z : Bool) (k : BitVec 8) (s : State) : Result :=
  opMov g d (.const k) z s
def execMovRI (g : Guard) (d : Reg) (imm : BitVec 13) (s : State) : Result :=
  opMov g d (.imm imm) false s
def execMovi (g : Guard) (d : Reg) (imm : BitVec 13) (s : State) : Result :=
  opMovi g d (.imm imm) s
def execMovh (g : Guard) (d : Reg) (imm : BitVec 13) (s : State) : Result :=
  opMovh g d (.imm imm) s
def execPset (g : Guard) (p pa pb : PReg) (o : PsetOp) (s : State) : Result :=
  opPset g p pa pb o s
def execRdp (g : Guard) (d : Reg) (s : State) : Result :=
  opRdp g d s
def execWrp (g : Guard) (a b : Reg) (s : State) : Result :=
  opWrp g a (.reg b) s
def execWrpRL (g : Guard) (a : Reg) (lit : BitVec 32) (s : State) : Result :=
  opWrp g a (.lit lit) s

end Sys2Proof.Machine
end

