-- ==== Sys2Proof/Machine/Sync.lean ====
section
/-!
DEFINITION. Machine/Sync.lean: `fence` (R263), barrier words (R275, R276) and sync words (R277, R278). Each shared
operation stands first; one definition for every constructor follows.
-/
namespace Sys2Proof.Machine

/-- `fence.S` (R263): its steps, then the acquire of device and system scope (R294). -/
def opFence (g : Guard) (sc : Scope) (s : State) : Result :=
  issue0 g s fun b =>
    withFence s b sc true fun s b => .next ((s.acquire b.core sc).complete b b.held.line)

/-- The buffer of the core holds a store or `feset` of the context in the barrel that touches the 16 bytes at an address. -/
def State.ownAhead (s : State) (b : Barrel) (va : Nat) : Bool :=
  (s.core b.core).storeBuf.any fun e => e.meets b.held.va va 16

/-- Send an operation on a barrier or sync word to its bank, after its checks and after the context's own stores to the word
have left the buffer (R285, R287); an address in the paged space is refused once it has been translated (R259). -/
def wordTo (s : State) (b : Barrel) (va : Nat) (tg : Target) (op : AccessOp) (reply : ReplyTo) (acc : AccessKind)
    (acq : Bool) : Result :=
  match tg with
  | .paged => .next (s.toHome b va 16 op reply acq)
  | .clm _ _ | .tsp _ _ | .reg _ _ | .hole =>
    if s.ownAhead b va then .next (s.awaitBuffer b)
    else if nearTarget b.core tg then
      match s.nearBank b tg { who := b.who, addr := va, size := 16, op := op, reply := reply, posted := false, acq := acq } with
      | some (s, out) => .next (s.bankReply b out va acc fun l v => l.writes (reply.writes (v.getD 0)))
      | none => .next (s.toBank b va 16 op reply acq)
    else .next (s.toBank b va 16 op reply acq)

/-- `bara` and `barc` (R276): a release at the target scope, then the arrival. -/
def barrierInstr (wait : Bool) (g : Guard) (d a : Reg) (t : Tail) (s : State) : Result :=
  issue g t s fun b =>
    withAccess s b .g (b.held.line.reg a).toNat 16 .bar rightsRW .atomic fun s va tg =>
      let x := t.value s b false
      withFence s b (targetScope b.core tg) true fun s b =>
        wordTo s b va tg (.barrier wait x) (.reg d 8 true) .atomic
          (wait && decide (3 ≤ scopeRank (targetScope b.core tg)))

def opBara := barrierInstr false
def opBarc := barrierInstr true

/-- `swait` (R277); it waits for the context's own buffered stores to the word (R287). -/
def opSwait (g : Guard) (d a : Reg) (t : Tail) (s : State) : Result :=
  issue g t s fun b =>
    withAccess s b .g (b.held.line.reg a).toNat 16 .bar rightsR .load fun s va tg =>
      wordTo s b va tg (.swait ((t.value s b false).setWidth 32)) (.reg d 4 true) .load
        (decide (3 ≤ scopeRank (targetScope b.core tg)))

/-- The sync word's TSP holds a range of its data part that does not contain the word (R278). -/
def rangeOk (word start len : Nat) : Bool :=
  match targetOf word, targetOf start with
  | .tsp c o, .tsp c' o' =>
    c == c' && decide (o < descTable) && len % 4 == 0 && start % 4 == 0 && decide (4 ≤ len) && decide (len ≤ 491520) &&
      decide (o' + len ≤ descTable) && (decide (o + 16 ≤ o') || decide (o' + len ≤ o))
  | _, _ => false

/-- `sarm` (R278): arm a guard, or release the guard of a sync word, after the context's own buffered stores to the word
(R285). -/
def opSarm (g : Guard) (d a b : Reg) (t : Tail) (y : Space) (off : Bool) (pf : PReg) (s : State) : Result :=
  issue g t s fun br =>
    let l := br.held.line
    withAccess s br y (l.reg a).toNat 16 .bar rightsW .atomic fun s va tg =>
      let start := (spaceAddr br.core y (l.reg b).toNat).getD 0
      let len := (t.value s br true).toNat
      if !off && !rangeOk va start len then .next (s.fault br .bounds .none 0)
      else
        let so := match targetOf start with | .tsp _ o => o | .clm _ _ | .paged | .reg _ _ | .hole => 0
        let op := AccessOp.sarm off so len pf
        match tg with
        | .paged => .next (s.toHome br va 16 op (.queue d pf) false)
        | .clm _ _ | .tsp _ _ | .reg _ _ | .hole =>
          if s.ownAhead br va then .next (s.awaitBuffer br)
          else if nearTarget br.core tg then
            match s.nearBank br tg { who := br.who, addr := va, size := 16, op := op, reply := .queue d pf, posted := false,
                                     acq := false } with
            | some (s, out) => .next (s.bankReply br out va .atomic fun l v => match v with
                | some n => (l.setReg d (BitVec.ofNat 64 n)).setPredicate pf false
                | none => l.setPredicate pf true)
            | none => .next (s.toBank br va 16 op (.queue d pf) false)
          else .next (s.toBank br va 16 op (.queue d pf) false)

/-! One definition for every constructor. -/

def execFence (g : Guard) (s : Scope) (st : State) : Result :=
  opFence g s st
def execBara (g : Guard) (d a b : Reg) (s : State) : Result :=
  opBara g d a (.reg b) s
def execBaraRL (g : Guard) (d a : Reg) (lit : BitVec 32) (s : State) : Result :=
  opBara g d a (.lit lit) s
def execBarc (g : Guard) (d a b : Reg) (s : State) : Result :=
  opBarc g d a (.reg b) s
def execBarcRL (g : Guard) (d a : Reg) (lit : BitVec 32) (s : State) : Result :=
  opBarc g d a (.lit lit) s
def execSwait (g : Guard) (d a b : Reg) (s : State) : Result :=
  opSwait g d a (.reg b) s
def execSwaitRL (g : Guard) (d a : Reg) (lit : BitVec 32) (s : State) : Result :=
  opSwait g d a (.lit lit) s
def execSwaitRK (g : Guard) (d a : Reg) (k : BitVec 8) (s : State) : Result :=
  opSwait g d a (.const k) s
def execSwaitRI (g : Guard) (d a : Reg) (imm : BitVec 13) (s : State) : Result :=
  opSwait g d a (.imm imm) s
def execSarm (g : Guard) (d a b c : Reg) (y : Space) (f : Bool) (pf : PReg) (s : State) : Result :=
  opSarm g d a b (.reg c) y f pf s
def execSarmRL (g : Guard) (d a b : Reg) (y : Space) (f : Bool) (pf : PReg) (lit : BitVec 32) (s : State) : Result :=
  opSarm g d a b (.lit lit) y f pf s

end Sys2Proof.Machine
end

