-- ==== Sys2Proof/Machine/Task.lean ====
section
/-!
DEFINITION. Machine/Task.lean: the scheduling instructions (R322 to R330). Each shared operation stands first; one
definition for every constructor follows.
-/
namespace Sys2Proof.Machine

/-! ## `spawn` (R323) -/

/-- The child's line (R137, R323); GENERATION is the one its line keeps. -/
def childLine (b : Barrel) (pc g1 link : BitVec 64) (aff : Nat) : Line :=
  let l := b.held.line
  let z := lineOf []
  { z with
    regs := { z.regs with g1 := g1 }
    pc := pc.setWidth 32
    status := BitVec.ofNat 32 (setBits 1 8 4 l.priority)
    control := BitVec.ofNat 64 (setBits (bits l.control.toNat 31 0) 27 24 aff)
    link := link
    parent := BitVec.ofNat 64 b.held.va
    user := l.user }

/-- `spawn` fails with its predicate set. -/
def failWith (s : State) (b : Barrel) (pf : PReg) : Result :=
  .next (s.complete b (b.held.line.setPredicate pf true))

/-- `spawn` (R323): after its checks and its release the thread waits for a pool line with KIND MEM and VALUE d. -/
def opSpawn (g : Guard) (d a b : Reg) (t : Tail) (st : Steal) (pf : PReg) (s : State) : Result :=
  issue g t s fun br =>
    let l := br.held.line
    let x := t.value s br true
    let aff := if bits x.toNat 35 32 = 0 then l.affinity else bits x.toNat 35 32
    if bits x.toNat 63 36 ≠ 0 ∨ x.toNat % 4 ≠ 0 then .next (s.fault br .bounds .none 0)
    else if aff &&& l.affinity = 0 then .next (s.fault br .protection .none 0)
    else if l.joinCount = BitVec.allOnes 32 then failWith s br pf
    else
      withFence s br .sys false fun s br =>
        .next ((s.reply br.who 1 (.child (childLine br x (br.held.line.reg b) (br.held.line.reg a) aff) st d pf br.nextPc
          (decide (2 ^ 16 ≤ br.next)))).park br 1 d.val)

/-! ## `launch` (R330) -/

def opLaunch (g : Guard) (d a : Reg) (t : Tail) (pf : PReg) (s : State) : Result :=
  issue g t s fun b =>
    let q := (t.value s b true).toNat
    let ea := (b.held.line.reg a).toNat
    if 3 < q then .next (s.fault b .bounds .none 0)
    else
      withAccess s b .g ea 64 .pair rightsR .load fun s va tg =>
        withRead s b va 64 tg 0 fun s v =>
          if bits v 143 128 ≠ b.held.line.domain then .next (s.fault b .protection .load va)
          else
            withFence s b .sys false fun s b =>
              let n := 4 * b.held.line.partition + q
              match s.launchWaits n with
              | some s => .next ((s.reply b.who 1 .wake).park b 1 d.val)
              | none => match s.insertLaunch n v with
              | none => .next ((s.reply b.who 1 (.done [] (some (pf, true)) 0)).parkAdvance b 1 d.val)
              | some (n, s) =>
                .next ((s.reply b.who 1 (.done [(d, BitVec.ofNat 64 n)] (some (pf, false)) 0)).parkAdvance b 1 d.val)

/-! ## Queues (R326) -/

/-- A queue operation: an atomic with `.ar` at its target scope. -/
def queueInstr (push : Bool) (g : Guard) (d a : Reg) (t : Tail) (pf : PReg) (s : State) : Result :=
  issue g t s fun b =>
    withAccess s b .g (b.held.line.reg a).toNat 16 .queue rightsRWA .atomic fun s va tg =>
      atomicTo s b va 16 tg (if push then .qpush else .qpop) (t.value s b false).toNat (.queue d pf) .ar fun l _ => l

def opQpush (g : Guard) (d a : Reg) (t : Tail) (pf : PReg) (s : State) : Result := queueInstr true g d a t pf s
def opQpop (g : Guard) (d a : Reg) (pf : PReg) (s : State) : Result := queueInstr false g d a noTail pf s

/-! ## The end of a context (R324) -/

/-- Steps 1 to 4 of R324: `target` is the parent or the successor, `keep` a retained line. -/
def endContext (s : State) (b : Barrel) (target : Nat) (keep : Bool) : Result :=
  if b.held.line.joinCount ≠ 0 then .next (s.park b 6 0)
  else
    withFence s b .sys true fun s b =>
      let l := b.held.line
      let s := if target = 0 then s else { s with joins := s.joins ++ [(target, dieOfCore b.core)] }
      if keep then
        .next (s.setLine b.counted ({ l with pc := b.nextPc, status := BitVec.ofNat 32 (setBits l.status.toNat 9 9 1) }.setState .halted))
      else .next (s.setLine b (l.setState .free))

def opDone (g : Guard) (s : State) : Result :=
  issue0 g s fun b => endContext s b b.held.line.parent.toNat false

/-- `halt` and `halt.r` (R324): a successor other than 0 is checked before step 1. -/
def opHalt (g : Guard) (a : Reg) (r : Bool) (s : State) : Result :=
  issue0 g s fun b =>
    let l := b.held.line
    let va := (l.reg a).toNat
    if r && va != 0 then
      (if va % 128 ≠ 0 ∨ s.inPool va = false then .next (s.fault b .bounds .none 0) else endContext s b va true)
    else endContext s b l.parent.toNat (r || l.retain)

/-- `waitc` (R325). -/
def opWaitc (g : Guard) (s : State) : Result :=
  issue0 g s fun b =>
    if b.held.line.joinCount = 0 then .next ((s.acquire b.core .sys).complete b b.held.line)
    else .next (s.park b 6 0)

/-! ## `yield`, `sleep` and `prio` (R327 to R329) -/

/-- `yield` (R327, R129): a head that waits for a page of the context evicts nothing. -/
def opYield (g : Guard) (s : State) : Result :=
  issue0 g s fun b =>
    let l := b.held.line
    let s' := s.complete b (if s.betterWaits b.core l.priority && !pageHeld (s.core b.core) b.held.va then
      l.setState .ready else l)
    .next { s' with barrel := s'.barrel.map fun b => { b with held := { b.held with skip := true } } }

/-- `sleep` (R328). -/
def opSleep (g : Guard) (t : Tail) (s : State) : Result :=
  issue g t s fun b =>
    let n := (t.value s b true).toNat
    let e := s.cycle + n
    if n = 0 then .next (s.complete b b.held.line)
    else if 2 ^ 35 ≤ n then .next (s.fault b .bounds .none 0)
    else .next ({ s with timers := s.timers ++ [(b.who, 9, e)] }.parkAdvance b 9 (bits e 35 8))

/-- `prio` (R329); an absent cap is the default 31. -/
def opPrio (g : Guard) (d : Reg) (t : Tail) (s : State) : Result :=
  issue g t s fun b =>
    let l := b.held.line
    let cap := ((Table.get? s.regs.prioCap l.partition).getD 31#64).toNat
    let p := min (min (t.value s b true).toNat 31) cap
    .next (s.complete b ((l.setPriority p).setReg d (BitVec.ofNat 64 l.priority)))

/-! One definition for every constructor. -/

def execSpawn (g : Guard) (d a b c : Reg) (s : Steal) (pf : PReg) (st : State) : Result :=
  opSpawn g d a b (.reg c) s pf st
def execSpawnRL (g : Guard) (d a b : Reg) (s : Steal) (pf : PReg) (lit : BitVec 32) (st : State) : Result :=
  opSpawn g d a b (.lit lit) s pf st
def execLaunch (g : Guard) (d a b : Reg) (pf : PReg) (s : State) : Result :=
  opLaunch g d a (.reg b) pf s
def execLaunchRL (g : Guard) (d a : Reg) (pf : PReg) (lit : BitVec 32) (s : State) : Result :=
  opLaunch g d a (.lit lit) pf s
def execQpush (g : Guard) (d a b : Reg) (pf : PReg) (s : State) : Result :=
  opQpush g d a (.reg b) pf s
def execQpushRL (g : Guard) (d a : Reg) (pf : PReg) (lit : BitVec 32) (s : State) : Result :=
  opQpush g d a (.lit lit) pf s
def execQpop (g : Guard) (d a : Reg) (pf : PReg) (s : State) : Result :=
  opQpop g d a pf s
def execDone (g : Guard) (s : State) : Result :=
  opDone g s
def execWaitc (g : Guard) (s : State) : Result :=
  opWaitc g s
def execYield (g : Guard) (s : State) : Result :=
  opYield g s
def execHalt (g : Guard) (a : Reg) (r : Bool) (s : State) : Result :=
  opHalt g a r s
def execSleep (g : Guard) (b : Reg) (s : State) : Result :=
  opSleep g (.reg b) s
def execSleepRL (g : Guard) (lit : BitVec 32) (s : State) : Result :=
  opSleep g (.lit lit) s
def execPrio (g : Guard) (d b : Reg) (s : State) : Result :=
  opPrio g d (.reg b) s
def execPrioRL (g : Guard) (d : Reg) (lit : BitVec 32) (s : State) : Result :=
  opPrio g d (.lit lit) s

end Sys2Proof.Machine
end

