-- ==== Sys2Proof/Machine/System.lean ====
section
/-!
DEFINITION. Machine/System.lean: the special registers and the system instructions (R345 to R356), with the writes of
CODE_GRANULES (R90) and CTXL1_LIMIT (R124). Each shared operation stands first; one definition for every constructor
follows.
-/
namespace Sys2Proof.Machine

/-! ## The control right (R345) -/

/-- The start of the register window of the core's brick. -/
def windowOf (core : Nat) : Nat := regWindow + dieOfCore core * 2 ^ 32

/-- The control right: W rights on the register window of the brick. -/
def withControl (s : State) (b : Barrel) (go : State → Result) : Result :=
  withRights s b (windowOf b.core) rightsW .store go

/-! ## Special registers (R347, R348) -/

/-- The slot table as `slotw` last wrote it. -/
def slotTabOf (c : CoreState) : Nat := (c.slotTabNext.getD c.slotTab).toNat

/-- The value of a special register other than CONTROL_RIGHT. -/
def State.special (s : State) (b : Barrel) (n : SReg) : Nat :=
  let c := s.core b.core
  let k := s.cluster (clusterOfCore b.core)
  match n with
  | .coreId => b.core % 8
  | .clusterId => b.core / 8 % 512
  | .dieId => dieOfCore b.core
  | .ctxva => b.held.va
  | .cycle => s.cycle % 2 ^ 64
  | .capbase => windowOf b.core
  | .controlRight => 0
  | .ctxl1Limit => c.ctxl1Limit
  | .codeGranules => c.codeGranules
  | .feLimit => k.feLimit.toNat
  | .barLimit => k.barLimit.toNat
  | .noHoldPriority => k.noHoldPriority.toNat
  | .holdLimit0 => k.holdLimit0.toNat
  | .holdLimit1 => k.holdLimit1.toNat
  | .holdLimit2 => k.holdLimit2.toNat
  | .holdLimit3 => k.holdLimit3.toNat
  | .slottab0 => slotTabOf c % 2 ^ 64
  | .slottab1 => slotTabOf c / 2 ^ 64

/-- `rsr` (R348). CONTROL_RIGHT is found as the check of R345 finds it, a PLB miss included (assumption 19). -/
def opRsr (g : Guard) (d : Reg) (n : SReg) (s : State) : Result :=
  issue0 g s fun b =>
    let put := fun (s : State) (v : Nat) => Host.Outcome.next (s.complete b (b.held.line.setReg d (BitVec.ofNat 64 v)))
    if n = .controlRight then
      match s.checkRights b.core b.held.va b.held.line.domain (windowOf b.core) rightsW with
      | .ok => put s 1
      | .violation => put s 0
      | .denied => put (s.setCore b.core ((s.core b.core).useDenied b.held.va (windowOf b.core))) 0
      | .miss => .next (s.plbMiss b (windowOf b.core))
    else put s (s.special b n)

/-- The entries of a core that a slot table pins and that hold something. -/
def pinnedHeld (c : CoreState) : Nat := (c.entries.filter fun (n, _) => isPinned c.slotTab.toNat n).length

/-- A write of CODE_GRANULES (R90, R92): every slot is EMPTY, a load in progress is abandoned and its waiters wake, and the
new code partition and the bytes that leave it are zeroed. -/
def State.setGranules (s : State) (core n : Nat) : State :=
  let c := s.core core
  let cl := clusterOfCore core
  let k := s.cluster cl
  let gone := k.loads.filter fun l => l.core == core && l.slot.isSome
  let s := s.setCore core { c with codeGranules := n, slots := [] }
  let s := s.setCluster cl { k with loads := k.loads.filter fun l => !(l.core == core && l.slot.isSome) }
  let s := s.zeroRun (clmBase core) (max n c.codeGranules * 0x4000)
  gone.foldl (fun s l => l.waiters.foldl (fun s w => s.reply w 7 .wake) s) s

/-- What `wsr` does with a register of the core: refused, or done. -/
def State.writeCoreReg (s : State) (core : Nat) (n : SReg) (v : Nat) : Option State :=
  let c := s.core core
  match n with
  | .ctxl1Limit => if v = 0 ∨ 16 < v ∨ v < pinnedHeld c then none else some (s.setCore core { c with ctxl1Limit := v })
  | .codeGranules => if 4 < v then none else some (s.setGranules core v)
  | _ => none

/-- What `wsr` does with a register of the cluster (R246, R347). -/
def ClusterState.writeReg (k : ClusterState) (n : SReg) (v : Nat) : Option ClusterState :=
  match n with
  | .feLimit => if 1024 ≤ v ∧ v < 2 ^ 32 then some { k with feLimit := BitVec.ofNat 32 v } else none
  | .barLimit => if 1024 ≤ v ∧ v < 2 ^ 32 then some { k with barLimit := BitVec.ofNat 32 v } else none
  | .noHoldPriority => if v ≤ 32 then some { k with noHoldPriority := BitVec.ofNat 6 v } else none
  | .holdLimit0 => if v < 2 ^ 16 then some { k with holdLimit0 := BitVec.ofNat 16 v } else none
  | .holdLimit1 => if v < 2 ^ 16 then some { k with holdLimit1 := BitVec.ofNat 16 v } else none
  | .holdLimit2 => if v < 2 ^ 16 then some { k with holdLimit2 := BitVec.ofNat 16 v } else none
  | .holdLimit3 => if v < 2 ^ 16 then some { k with holdLimit3 := BitVec.ofNat 16 v } else none
  | _ => none

/-- `wsr` (R348): a register of the core at once; one of the cluster with a park until it acknowledges. -/
def opWsr (g : Guard) (t : Tail) (n : SReg) (s : State) : Result :=
  issue g t s fun b =>
    let v := (t.value s b true).toNat
    withControl s b fun s =>
      if n = .ctxl1Limit ∨ n = .codeGranules then
        match s.writeCoreReg b.core n v with
        | some s => .next (s.complete b b.held.line)
        | none => .next (s.fault b .protection .none 0)
      else
        let cl := clusterOfCore b.core
        match (s.cluster cl).writeReg n v with
        | some k => .next (((s.setCluster cl k).reply b.who 1 (.done [] none 0)).parkAdvance b 1 8)
        | none => .next (s.fault b .protection .none 0)

/-! ## `trap`, `wake`, `kill` and `resume` (R349 to R352) -/

/-- `trap` (R349): the line's PC is the next PC. -/
def opTrap (g : Guard) (t : Tail) (s : State) : Result :=
  issue g t s fun b =>
    .next (s.takeFault b.counted { b.held.line with pc := b.nextPc } .trap .none ((t.value s b true).setWidth 32) 0)

/-- The checks of a context VA: alignment, the pool, W rights on it (R345, R350). -/
def withContext (s : State) (b : Barrel) (a : Reg) (go : State → Nat → Result) : Result :=
  let va := (b.held.line.reg a).toNat
  if va % 128 ≠ 0 then .next (s.fault b .misaligned .none va)
  else if s.inPool va = false then .next (s.fault b .bounds .none va)
  else withRights s b va rightsW .store fun s => go s va

/-- `wake` (R350). -/
def opWake (g : Guard) (a : Reg) (s : State) : Result :=
  issue0 g s fun b =>
    withContext s b a fun s va =>
      withFence s b .sys false fun s b => .next ({ s with wakes := s.wakes ++ [va] }.complete b b.held.line)

/-- `kill` (R351): a context that names itself ends as by `done`, without its join message. -/
def opKill (g : Guard) (d a : Reg) (s : State) : Result :=
  issue0 g s fun b =>
    withContext s b a fun s va =>
      if va = b.held.va then
        withFence s b .sys false fun s b => .next (s.setLine b (b.held.line.setState .free))
      else
        let c : HomeCmd := { who := b.who, target := va, d := d, found := none }
        .next ({ s with kills := s.kills ++ [c] }.parkAdvance b 1 d.val)

/-- `resume` (R352). -/
def opResume (g : Guard) (d a : Reg) (s : State) : Result :=
  issue0 g s fun b =>
    withContext s b a fun s va =>
      withFence s b .sys false fun s b =>
        let c : HomeCmd := { who := b.who, target := va, d := d, found := none }
        .next ({ s with resumes := s.resumes ++ [c] }.parkAdvance b 1 d.val)

/-! ## `slotw`, `plbi`, `tlbi` and `pmig` (R353, R354, R356) -/

def opSlotw (g : Guard) (a : Reg) (t : Tail) (s : State) : Result :=
  issue g t s fun b =>
    let tab := (b.held.line.reg a).toNat + 2 ^ 64 * (t.value s b true).toNat
    withControl s b fun s =>
      let c := s.core b.core
      if slotTabOk tab c.ctxl1Limit then
        .next ((s.setCore b.core { c with slotTabNext := some (BitVec.ofNat 128 tab) }).complete b b.held.line)
      else .next (s.fault b .bounds .none 0)

/-- A range word keeps its table (R354). -/
def rangeWordOk (w : Nat) : Bool :=
  bits w 63 56 == 0 && bits w 15 6 == 0 && decide (16 ≤ bits w 5 0) && decide (bits w 5 0 ≤ 56) &&
    bits w 55 0 / 64 * 64 % 2 ^ bits w 5 0 == 0

/-- The range of a range word: its base and the logarithm of its size. -/
def rangeBase (w : Nat) : Nat := bits w 55 16 * 2 ^ 16
def rangeLog2 (w : Nat) : Nat := bits w 5 0

/-- An invalidation goes out, and its issuer waits for the acknowledgements of `left` (R40, R46, R354). -/
def sendInv (s : State) (b : Barrel) (domain : Option Nat) (w : Nat) (left : List Nat) : Result :=
  withFence s b .sys false fun s b =>
    let q : InvReq := { who := b.who, domain := domain, base := rangeBase w, log2 := rangeLog2 w, left := left }
    let s := if left.isEmpty then s.reply b.who 1 (.done [] none 0) else { s with invs := s.invs ++ [q] }
    .next (s.parkAdvance b 1 8)

/-- `plbi` (R40, R354). A domain number of 65,536 stands for every domain. A core that holds no entry
and no refusal has nothing to remove. -/
def opPlbi (g : Guard) (a : Reg) (t : Tail) (s : State) : Result :=
  issue g t s fun b =>
    let dw := (b.held.line.reg a).toNat
    let w := (t.value s b true).toNat
    withControl s b fun s =>
      if !rangeWordOk w || bits dw 63 17 != 0 then .next (s.fault b .bounds .none 0)
      else
        sendInv s b (some (bits dw 16 0)) w
          (s.cores.filterMap fun (c, x) => if x.plb.isEmpty && x.denied.isEmpty then none else some c)

/-- `tlbi` (R46, R354). -/
def opTlbi (g : Guard) (t : Tail) (s : State) : Result :=
  issue g t s fun b =>
    let w := (t.value s b true).toNat
    withControl s b fun s =>
      if !rangeWordOk w then .next (s.fault b .bounds .none 0) else sendInv s b none w [0, 1, 2, 3]

/-- `pmig` (R356). -/
def opPmig (g : Guard) (d a : Reg) (t : Tail) (pf : PReg) (s : State) : Result :=
  issue g t s fun b =>
    let va := (b.held.line.reg a).toNat
    let frame := (t.value s b true).toNat
    withControl s b fun s =>
      if 2 ^ 56 ≤ va then .next (s.fault b .protection .none va)
      else if 2 ^ 48 ≤ frame then .next (s.fault b .bounds .none 0)
      else
        withFence s b .sys false fun s b =>
          let r : JobReq := { who := b.who, cluster := clusterOfCore b.core, kind := .migrate va frame, d := d, pf := pf }
          .next ({ s with jobReqs := s.jobReqs ++ [r] }.parkAdvance b 1 d.val)

/-! ## `ovl` and `ovlq` (R355) -/

def opOvl (g : Guard) (a : Reg) (nw : Bool) (s : State) : Result :=
  issue0 g s fun b =>
    let id := (b.held.line.reg a).toNat
    if 2 ^ 16 ≤ id then .next (s.fault b .bounds .none 0)
    else if (execSlot (s.core b.core) b.held.line.domain id).isSome then .next (s.complete b b.held.line)
    else if nw then .next ((s.requestOverlay b id false).complete b b.held.line)
    else .next (s.overlayMiss b id)

def SlotState.code : SlotState → Nat | .empty => 0 | .loading => 1 | .executable => 2

/-- The slot entry of a granule (R91). -/
def slotWord (c : CoreState) (granule : Nat) : Nat :=
  match Table.get? c.slots granule with
  | some x => x.domain * 2 ^ 32 + x.overlay * 2 ^ 16 + x.count * 2 ^ 5 + x.first * 2 ^ 3 + x.state.code
  | none => 0

def opOvlq (g : Guard) (d : Reg) (t : Tail) (s : State) : Result :=
  issue g t s fun b =>
    let n := (t.value s b true).toNat
    if 3 < n then .next (s.fault b .bounds .none 0)
    else .next (s.complete b (b.held.line.setReg d (BitVec.ofNat 64 (slotWord (s.core b.core) n))))

/-! One definition for every constructor. -/

def execRsr (g : Guard) (d : Reg) (n : SReg) (s : State) : Result :=
  opRsr g d n s
def execWsr (g : Guard) (b : Reg) (n : SReg) (s : State) : Result :=
  opWsr g (.reg b) n s
def execWsrRL (g : Guard) (n : SReg) (lit : BitVec 32) (s : State) : Result :=
  opWsr g (.lit lit) n s
def execTrap (g : Guard) (b : Reg) (s : State) : Result :=
  opTrap g (.reg b) s
def execTrapRL (g : Guard) (lit : BitVec 32) (s : State) : Result :=
  opTrap g (.lit lit) s
def execWake (g : Guard) (a : Reg) (s : State) : Result :=
  opWake g a s
def execKill (g : Guard) (d a : Reg) (s : State) : Result :=
  opKill g d a s
def execResume (g : Guard) (d a : Reg) (s : State) : Result :=
  opResume g d a s
def execSlotw (g : Guard) (a b : Reg) (s : State) : Result :=
  opSlotw g a (.reg b) s
def execSlotwRL (g : Guard) (a : Reg) (lit : BitVec 32) (s : State) : Result :=
  opSlotw g a (.lit lit) s
def execPlbi (g : Guard) (a b : Reg) (s : State) : Result :=
  opPlbi g a (.reg b) s
def execPlbiRL (g : Guard) (a : Reg) (lit : BitVec 32) (s : State) : Result :=
  opPlbi g a (.lit lit) s
def execTlbi (g : Guard) (b : Reg) (s : State) : Result :=
  opTlbi g (.reg b) s
def execTlbiRL (g : Guard) (lit : BitVec 32) (s : State) : Result :=
  opTlbi g (.lit lit) s
def execPmig (g : Guard) (d a b : Reg) (pf : PReg) (s : State) : Result :=
  opPmig g d a (.reg b) pf s
def execPmigRL (g : Guard) (d a : Reg) (pf : PReg) (lit : BitVec 32) (s : State) : Result :=
  opPmig g d a (.lit lit) pf s
def execOvl (g : Guard) (a : Reg) (n : Bool) (s : State) : Result :=
  opOvl g a n s
def execOvlq (g : Guard) (d b : Reg) (s : State) : Result :=
  opOvlq g d (.reg b) s
def execOvlqRL (g : Guard) (d : Reg) (lit : BitVec 32) (s : State) : Result :=
  opOvlq g d (.lit lit) s

end Sys2Proof.Machine
end

