-- ==== Sys2Proof/Machine/Vector.lean ====
section
/-!
DEFINITION. Machine/Vector.lean: the short-vector operations (R199 to R201).
-/
namespace Sys2Proof.Machine

/-- The number of lanes (R199). -/
def laneCount (l : Lane) : Nat := 64 / laneBits l

/-- The lanes of a register (R199). -/
def lanesOf (l : Lane) (x : Word64) : List Nat := lanes (laneBits l) (laneCount l) x.toNat

/-- An exact lane result reduced to L bits (R200). -/
def laneWord (w : Nat) (r : Int) : Nat := (r % (2 ^ w : Nat)).toNat

/-- The shape of R200: lane by lane, clamped with `.sat`, else reduced modulo 2^L. -/
def laneWise (r : Nat → Int → Int → Int) (g : Guard) (d a : Reg) (t : Tail) (sat z : Bool) (l : Lane) (s : State) :
    Result :=
  issue g t s fun b =>
    let w := laneBits l
    let xs := lanesOf l (b.held.line.reg a)
    let ys := lanesOf l (t.both s b)
    let rs := (xs.zip ys).map fun (x, y) =>
      let v := r w (readLane w z x) (readLane w z y)
      laneWord w (if sat then clamp w z v else v)
    .next (s.complete b (b.held.line.setReg d (BitVec.ofNat 64 (joinLanes w rs))))

def opVadd := laneWise fun _ x y => x + y
def opVsub := laneWise fun _ x y => x - y
def opVmul := laneWise fun _ x y => x * y
def opVmin (g : Guard) (d a : Reg) (t : Tail) (z : Bool) (l : Lane) (s : State) : Result :=
  laneWise (fun _ x y => min x y) g d a t false z l s
def opVmax (g : Guard) (d a : Reg) (t : Tail) (z : Bool) (l : Lane) (s : State) : Result :=
  laneWise (fun _ x y => max x y) g d a t false z l s
def opVavg (g : Guard) (d a : Reg) (t : Tail) (z : Bool) (l : Lane) (s : State) : Result :=
  laneWise (fun _ x y => (x + y + 1) / 2) g d a t false z l s
def opVabsd (g : Guard) (d a : Reg) (t : Tail) (z : Bool) (l : Lane) (s : State) : Result :=
  laneWise (fun _ x y => ((x - y).natAbs : Int)) g d a t false z l s

/-- A condition of `vcmp` between exact lane values (R199). -/
def vcondHolds (n : VCond) (x y : Int) : Bool :=
  match n with
  | .eq => decide (x = y)
  | .ne => decide (x ≠ y)
  | .lt => decide (x < y)
  | .ge => decide (y ≤ x)
  | .le => decide (x ≤ y)
  | .gt => decide (y < x)

def opVcmp (g : Guard) (d a : Reg) (t : Tail) (n : VCond) (z : Bool) (l : Lane) (s : State) : Result :=
  laneWise (fun w x y => if vcondHolds n x y then 2 ^ w - 1 else 0) g d a t false z l s

/-- d := (tail + Σ x_i × y_i) mod 2^64; a 32-bit tail is widened per Z (R199, R201). -/
def opVdot (g : Guard) (d a b : Reg) (t : Tail) (z : Bool) (l : Lane) (s : State) : Result :=
  issue g t s fun br =>
    let w := laneBits l
    let xs := lanesOf l (br.held.line.reg a)
    let ys := lanesOf l (br.held.line.reg b)
    let sum := ((xs.zip ys).map fun (x, y) => readLane w z x * readLane w z y).foldl (· + ·) 0
    .next (s.complete br (br.held.line.setReg d (word ((t.value s br z).toNat + sum))))

def opVsum (g : Guard) (d a : Reg) (z : Bool) (l : Lane) (s : State) : Result :=
  writeReg0 g d s fun ln => word (((lanesOf l (ln.reg a)).map (readLane (laneBits l) z)).foldl (· + ·) 0)

def opVsplat (g : Guard) (d a : Reg) (l : Lane) (s : State) : Result :=
  writeReg0 g d s fun ln =>
    BitVec.ofNat 64 (joinLanes (laneBits l) (List.replicate (laneCount l) ((ln.reg a).toNat % 2 ^ laneBits l)))

/-- Lane i of d is 0 if bit 3 of nibble i is 1, else lane (nibble[2:0] mod n) of a; the tail is zero-extended
(R199, R201). -/
def opVshf (g : Guard) (d a : Reg) (t : Tail) (l : Lane) (s : State) : Result :=
  writeReg g t true d s fun ln v =>
    let n := laneCount l
    let w := laneBits l
    let x := (ln.reg a).toNat
    BitVec.ofNat 64 (joinLanes w ((List.range n).map fun i =>
      let nib := v.toNat / 2 ^ (4 * i) % 16
      if nib / 8 = 1 then 0 else x / 2 ^ (w * (nib % 8 % n)) % 2 ^ w))

/-- Each lane of a, then each lane of the tail, narrowed to L/2 bits (R201). -/
def opVpack (g : Guard) (d a : Reg) (t : Tail) (sat z : Bool) (l : Lane) (s : State) : Result :=
  issue g t s fun b =>
    let w := laneBits l
    let h := w / 2
    let xs := lanesOf l (b.held.line.reg a) ++ lanesOf l (t.both s b)
    let rs := xs.map fun x => laneWord h (if sat then clamp h z (readLane w z x) else readLane w z x)
    .next (s.complete b (b.held.line.setReg d (BitVec.ofNat 64 (joinLanes h rs))))

/-- d := (c AND a) OR (NOT c AND b); the tail is c (R201). -/
def opVsel (g : Guard) (d a b : Reg) (t : Tail) (s : State) : Result :=
  issue g t s fun br =>
    let l := br.held.line
    let c := t.both s br
    .next (s.complete br (l.setReg d ((c &&& l.reg a) ||| (~~~c &&& l.reg b))))

/-! One definition for every constructor. -/

def execVadd (g : Guard) (d a b : Reg) (s z : Bool) (l : Lane) (st : State) : Result :=
  opVadd g d a (.reg b) s z l st
def execVaddRL (g : Guard) (d a : Reg) (s z : Bool) (l : Lane) (lit : BitVec 32) (st : State) : Result :=
  opVadd g d a (.lit lit) s z l st
def execVaddRK (g : Guard) (d a : Reg) (l : Lane) (k : BitVec 8) (s : State) : Result :=
  opVadd g d a (.const k) false false l s
def execVsub (g : Guard) (d a b : Reg) (s z : Bool) (l : Lane) (st : State) : Result :=
  opVsub g d a (.reg b) s z l st
def execVsubRL (g : Guard) (d a : Reg) (s z : Bool) (l : Lane) (lit : BitVec 32) (st : State) : Result :=
  opVsub g d a (.lit lit) s z l st
def execVsubRK (g : Guard) (d a : Reg) (l : Lane) (k : BitVec 8) (s : State) : Result :=
  opVsub g d a (.const k) false false l s
def execVmul (g : Guard) (d a b : Reg) (s z : Bool) (l : Lane) (st : State) : Result :=
  opVmul g d a (.reg b) s z l st
def execVmulRL (g : Guard) (d a : Reg) (s z : Bool) (l : Lane) (lit : BitVec 32) (st : State) : Result :=
  opVmul g d a (.lit lit) s z l st
def execVmulRK (g : Guard) (d a : Reg) (l : Lane) (k : BitVec 8) (s : State) : Result :=
  opVmul g d a (.const k) false false l s
def execVmin (g : Guard) (d a b : Reg) (z : Bool) (l : Lane) (s : State) : Result :=
  opVmin g d a (.reg b) z l s
def execVminRL (g : Guard) (d a : Reg) (z : Bool) (l : Lane) (lit : BitVec 32) (s : State) : Result :=
  opVmin g d a (.lit lit) z l s
def execVminRK (g : Guard) (d a : Reg) (l : Lane) (k : BitVec 8) (s : State) : Result :=
  opVmin g d a (.const k) false l s
def execVmax (g : Guard) (d a b : Reg) (z : Bool) (l : Lane) (s : State) : Result :=
  opVmax g d a (.reg b) z l s
def execVmaxRL (g : Guard) (d a : Reg) (z : Bool) (l : Lane) (lit : BitVec 32) (s : State) : Result :=
  opVmax g d a (.lit lit) z l s
def execVmaxRK (g : Guard) (d a : Reg) (l : Lane) (k : BitVec 8) (s : State) : Result :=
  opVmax g d a (.const k) false l s
def execVavg (g : Guard) (d a b : Reg) (z : Bool) (l : Lane) (s : State) : Result :=
  opVavg g d a (.reg b) z l s
def execVavgRL (g : Guard) (d a : Reg) (z : Bool) (l : Lane) (lit : BitVec 32) (s : State) : Result :=
  opVavg g d a (.lit lit) z l s
def execVavgRK (g : Guard) (d a : Reg) (l : Lane) (k : BitVec 8) (s : State) : Result :=
  opVavg g d a (.const k) false l s
def execVabsd (g : Guard) (d a b : Reg) (z : Bool) (l : Lane) (s : State) : Result :=
  opVabsd g d a (.reg b) z l s
def execVabsdRL (g : Guard) (d a : Reg) (z : Bool) (l : Lane) (lit : BitVec 32) (s : State) : Result :=
  opVabsd g d a (.lit lit) z l s
def execVabsdRK (g : Guard) (d a : Reg) (l : Lane) (k : BitVec 8) (s : State) : Result :=
  opVabsd g d a (.const k) false l s
def execVdot (g : Guard) (d a b c : Reg) (z : Bool) (l : Lane) (s : State) : Result :=
  opVdot g d a b (.reg c) z l s
def execVdotRL (g : Guard) (d a b : Reg) (z : Bool) (l : Lane) (lit : BitVec 32) (s : State) : Result :=
  opVdot g d a b (.lit lit) z l s
def execVdotRK (g : Guard) (d a b : Reg) (l : Lane) (k : BitVec 8) (s : State) : Result :=
  opVdot g d a b (.const k) false l s
def execVsum (g : Guard) (d a : Reg) (z : Bool) (l : Lane) (s : State) : Result :=
  opVsum g d a z l s
def execVsplat (g : Guard) (d a : Reg) (l : Lane) (s : State) : Result :=
  opVsplat g d a l s
def execVshf (g : Guard) (d a b : Reg) (l : Lane) (s : State) : Result :=
  opVshf g d a (.reg b) l s
def execVshfRL (g : Guard) (d a : Reg) (l : Lane) (lit : BitVec 32) (s : State) : Result :=
  opVshf g d a (.lit lit) l s
def execVpack (g : Guard) (d a b : Reg) (s z : Bool) (l : Lane) (st : State) : Result :=
  opVpack g d a (.reg b) s z l st
def execVpackRL (g : Guard) (d a : Reg) (s z : Bool) (l : Lane) (lit : BitVec 32) (st : State) : Result :=
  opVpack g d a (.lit lit) s z l st
def execVcmp (g : Guard) (d a b : Reg) (n : VCond) (z : Bool) (l : Lane) (s : State) : Result :=
  opVcmp g d a (.reg b) n z l s
def execVcmpRL (g : Guard) (d a : Reg) (n : VCond) (z : Bool) (l : Lane) (lit : BitVec 32) (s : State) : Result :=
  opVcmp g d a (.lit lit) n z l s
def execVcmpRK (g : Guard) (d a : Reg) (l : Lane) (k : BitVec 8) (s : State) : Result :=
  opVcmp g d a (.const k) .eq false l s
def execVsel (g : Guard) (d a b c : Reg) (s : State) : Result :=
  opVsel g d a b (.reg c) s
def execVselRL (g : Guard) (d a b : Reg) (lit : BitVec 32) (s : State) : Result :=
  opVsel g d a b (.lit lit) s
def execVselRK (g : Guard) (d a b : Reg) (k : BitVec 8) (s : State) : Result :=
  opVsel g d a b (.const k) s

end Sys2Proof.Machine
end

