-- ==== Sys2Proof/Machine/Dispatch.lean ====
section
/-! DEFINITION. Machine/Dispatch.lean: one arm for every constructor of Instr, each a direct call of its meaning. -/

namespace Sys2Proof.Machine

def exec (i : Instr) (s : State) : Host.Outcome State Fault Refusal :=
  match i with
  | .registerWrite w => Sys2Proof.Machine.execRegisterWrite w s
  | .launchQueueTailWrite w => Sys2Proof.Machine.execLaunchQueueTailWrite w s
  | .launchRecordDiscard q => Sys2Proof.Machine.execLaunchRecordDiscard q s
  | .chunkRequest die => Sys2Proof.Machine.execChunkRequest die s
  | .chunkGrant n => Sys2Proof.Machine.execChunkGrant n s
  | .readyEntryAging die n => Sys2Proof.Machine.execReadyEntryAging die n s
  | .dispatchOffer die => Sys2Proof.Machine.execDispatchOffer die s
  | .contextClaim n => Sys2Proof.Machine.execContextClaim n s
  | .claimLost n => Sys2Proof.Machine.execClaimLost n s
  | .contextFill n => Sys2Proof.Machine.execContextFill n s
  | .contextEviction core entry => Sys2Proof.Machine.execContextEviction core entry s
  | .contextWritebackPerformed core entry => Sys2Proof.Machine.execContextWritebackPerformed core entry s
  | .contextWritebackRetry ctx => Sys2Proof.Machine.execContextWritebackRetry ctx s
  | .claimPageFaultReoffer die n => Sys2Proof.Machine.execClaimPageFaultReoffer die n s
  | .stealRequest die => Sys2Proof.Machine.execStealRequest die s
  | .stealServe n => Sys2Proof.Machine.execStealServe n s
  | .dequeSiblingSteal core => Sys2Proof.Machine.execDequeSiblingSteal core s
  | .gangReserve die => Sys2Proof.Machine.execGangReserve die s
  | .issueCycle core => Sys2Proof.Machine.execIssueCycle core s
  | .contextMessageApply n => Sys2Proof.Machine.execContextMessageApply n s
  | .joinMessage n => Sys2Proof.Machine.execJoinMessage n s
  | .wakeMessage n => Sys2Proof.Machine.execWakeMessage n s
  | .nackMessage n => Sys2Proof.Machine.execNackMessage n s
  | .killAtHome n => Sys2Proof.Machine.execKillAtHome n s
  | .resumeAtHome n => Sys2Proof.Machine.execResumeAtHome n s
  | .sleepWake ctx => Sys2Proof.Machine.execSleepWake ctx s
  | .pageFaultTimedWake ctx => Sys2Proof.Machine.execPageFaultTimedWake ctx s
  | .faultRecordAppend n => Sys2Proof.Machine.execFaultRecordAppend n s
  | .handlerWakeRetry n => Sys2Proof.Machine.execHandlerWakeRetry n s
  | .errorLogAppend n => Sys2Proof.Machine.execErrorLogAppend n s
  | .elogLostClear w => Sys2Proof.Machine.execElogLostClear w s
  | .plbRefill n => Sys2Proof.Machine.execPlbRefill n s
  | .plbiCoreInvalidate n core => Sys2Proof.Machine.execPlbiCoreInvalidate n core s
  | .translationLookup n => Sys2Proof.Machine.execTranslationLookup n s
  | .pfqMessageAccept die n => Sys2Proof.Machine.execPfqMessageAccept die n s
  | .pfqHeadWrite w => Sys2Proof.Machine.execPfqHeadWrite w s
  | .tlbiBrickInvalidate n die => Sys2Proof.Machine.execTlbiBrickInvalidate n die s
  | .migrationRound n => Sys2Proof.Machine.execMigrationRound n s
  | .migrationFreeze n => Sys2Proof.Machine.execMigrationFreeze n s
  | .migrationFreezeAbandon n => Sys2Proof.Machine.execMigrationFreezeAbandon n s
  | .partRectWrite w => Sys2Proof.Machine.execPartRectWrite w s
  | .clmTspBankAccess n => Sys2Proof.Machine.execClmTspBankAccess n s
  | .feWaitTimeout cluster idx => Sys2Proof.Machine.execFeWaitTimeout cluster idx s
  | .feNoentRetry ctx => Sys2Proof.Machine.execFeNoentRetry ctx s
  | .barWaitTimeout cluster idx => Sys2Proof.Machine.execBarWaitTimeout cluster idx s
  | .storeBufferAccept core => Sys2Proof.Machine.execStoreBufferAccept core s
  | .fenceProbe n => Sys2Proof.Machine.execFenceProbe n s
  | .probeEcho n => Sys2Proof.Machine.execProbeEcho n s
  | .readRequest n => Sys2Proof.Machine.execReadRequest n s
  | .subscribeRequest n => Sys2Proof.Machine.execSubscribeRequest n s
  | .precisionChange n => Sys2Proof.Machine.execPrecisionChange n s
  | .storeRequest n => Sys2Proof.Machine.execStoreRequest n s
  | .homeAtomic n => Sys2Proof.Machine.execHomeAtomic n s
  | .writeBack n => Sys2Proof.Machine.execWriteBack n s
  | .dropNotice n => Sys2Proof.Machine.execDropNotice n s
  | .snoopShare n => Sys2Proof.Machine.execSnoopShare n s
  | .snoopInvalidate n => Sys2Proof.Machine.execSnoopInvalidate n s
  | .update n => Sys2Proof.Machine.execUpdate n s
  | .homeEntryLeaseExpiry n => Sys2Proof.Machine.execHomeEntryLeaseExpiry n s
  | .heldWriteLeaseExpiry n => Sys2Proof.Machine.execHeldWriteLeaseExpiry n s
  | .combineEntryClose n => Sys2Proof.Machine.execCombineEntryClose n s
  | .hostCxlMemRead pa => Sys2Proof.Machine.execHostCxlMemRead pa s
  | .hostCxlMemWrite pa bytes => Sys2Proof.Machine.execHostCxlMemWrite pa bytes s
  | .hostSnoop pa excl => Sys2Proof.Machine.execHostSnoop pa excl s
  | .pcieCompletion n r => Sys2Proof.Machine.execPcieCompletion n r s
  | .pcieCompletionTimeout n => Sys2Proof.Machine.execPcieCompletionTimeout n s
  | .talakGet port off len => Sys2Proof.Machine.execTalakGet port off len s
  | .talakGetLease port off => Sys2Proof.Machine.execTalakGetLease port off s
  | .talakRenew port off ver => Sys2Proof.Machine.execTalakRenew port off ver s
  | .talakPut port off bytes => Sys2Proof.Machine.execTalakPut port off bytes s
  | .talakAtomic port off op w x e => Sys2Proof.Machine.execTalakAtomic port off op w x e s
  | .talakAck n => Sys2Proof.Machine.execTalakAck n s
  | .talakNack n code => Sys2Proof.Machine.execTalakNack n code s
  | .overlayLoadComplete cluster n => Sys2Proof.Machine.execOverlayLoadComplete cluster n s
  | .overlayLoadFail cluster n => Sys2Proof.Machine.execOverlayLoadFail cluster n s
  | .jobSubmission n => Sys2Proof.Machine.execJobSubmission n s
  | .jobStart cluster => Sys2Proof.Machine.execJobStart cluster s
  | .copyLineWrite cluster slot => Sys2Proof.Machine.execCopyLineWrite cluster slot s
  | .tileRefreshStart cluster => Sys2Proof.Machine.execTileRefreshStart cluster s
  | .tileRefreshComplete cluster n => Sys2Proof.Machine.execTileRefreshComplete cluster n s
  | .tileRefreshFail cluster n => Sys2Proof.Machine.execTileRefreshFail cluster n s
  | .tileZeroingComplete cluster n => Sys2Proof.Machine.execTileZeroingComplete cluster n s
  | .tileOpArrival n => Sys2Proof.Machine.execTileOpArrival n s
  | .tileOpExecute cluster => Sys2Proof.Machine.execTileOpExecute cluster s
  | .tdescDiscardNotice n => Sys2Proof.Machine.execTdescDiscardNotice n s
  | .geyserAdmission n => Sys2Proof.Machine.execGeyserAdmission n s
  | .geyserHoldExpire cluster stack => Sys2Proof.Machine.execGeyserHoldExpire cluster stack s
  | .geyserRetryReissue n => Sys2Proof.Machine.execGeyserRetryReissue n s
  | .engineSelect cluster => Sys2Proof.Machine.execEngineSelect cluster s
  | .stackFire cluster => Sys2Proof.Machine.execStackFire cluster s
  | .engineNormOp cluster => Sys2Proof.Machine.execEngineNormOp cluster s
  | .ctCommit w => Sys2Proof.Machine.execCtCommit w s
  | .circuitTuningComplete => Sys2Proof.Machine.execCircuitTuningComplete s
  | .circuitTuneTimeout e => Sys2Proof.Machine.execCircuitTuneTimeout e s
  | .brickQuiesce w => Sys2Proof.Machine.execBrickQuiesce w s
  | .brickQuiesceComplete => Sys2Proof.Machine.execBrickQuiesceComplete s
  | .brickLinkTrained => Sys2Proof.Machine.execBrickLinkTrained s
  | .attGo w => Sys2Proof.Machine.execAttGo w s
  | .attestationComplete => Sys2Proof.Machine.execAttestationComplete s
  | .coldBoot => Sys2Proof.Machine.execColdBoot s
  | .recoveryImageWrite image => Sys2Proof.Machine.execRecoveryImageWrite image s
  | .ucieRetrainFail die m => Sys2Proof.Machine.execUcieRetrainFail die m s
  | .eccError site => Sys2Proof.Machine.execEccError site s
  | .thermalThrottle what die on => Sys2Proof.Machine.execThermalThrottle what die on s
  | .talakReply n data => Sys2Proof.Machine.execTalakReply n data s
  | .talakFlitCrcRetry n => Sys2Proof.Machine.execTalakFlitCrcRetry n s
  | .ucieLinkRetraining die m => Sys2Proof.Machine.execUcieLinkRetraining die m s
  | .backInvalidateResponse n data => Sys2Proof.Machine.execBackInvalidateResponse n data s
  | .cxlCacheGrant n data excl => Sys2Proof.Machine.execCxlCacheGrant n data excl s
  | .add g d a b m z w => Sys2Proof.Machine.execAdd g d a b m z w s
  | .addRL g d a m z w lit => Sys2Proof.Machine.execAddRL g d a m z w lit s
  | .addRK g d a w k => Sys2Proof.Machine.execAddRK g d a w k s
  | .addRI g d a imm => Sys2Proof.Machine.execAddRI g d a imm s
  | .sub g d a b m z w => Sys2Proof.Machine.execSub g d a b m z w s
  | .subRL g d a m z w lit => Sys2Proof.Machine.execSubRL g d a m z w lit s
  | .subRK g d a w k => Sys2Proof.Machine.execSubRK g d a w k s
  | .subRI g d a imm => Sys2Proof.Machine.execSubRI g d a imm s
  | .mul g d a b z w => Sys2Proof.Machine.execMul g d a b z w s
  | .mulRL g d a z w lit => Sys2Proof.Machine.execMulRL g d a z w lit s
  | .mulRK g d a w k => Sys2Proof.Machine.execMulRK g d a w k s
  | .mulRI g d a imm => Sys2Proof.Machine.execMulRI g d a imm s
  | .mulh g d a b z w => Sys2Proof.Machine.execMulh g d a b z w s
  | .mulhRL g d a z w lit => Sys2Proof.Machine.execMulhRL g d a z w lit s
  | .mulhRK g d a w k => Sys2Proof.Machine.execMulhRK g d a w k s
  | .mulhRI g d a imm => Sys2Proof.Machine.execMulhRI g d a imm s
  | .mulhu g d a b z w => Sys2Proof.Machine.execMulhu g d a b z w s
  | .mulhuRL g d a z w lit => Sys2Proof.Machine.execMulhuRL g d a z w lit s
  | .mulhuRK g d a w k => Sys2Proof.Machine.execMulhuRK g d a w k s
  | .mulhuRI g d a imm => Sys2Proof.Machine.execMulhuRI g d a imm s
  | .div g d a b z w => Sys2Proof.Machine.execDiv g d a b z w s
  | .divRL g d a z w lit => Sys2Proof.Machine.execDivRL g d a z w lit s
  | .divRK g d a w k => Sys2Proof.Machine.execDivRK g d a w k s
  | .divRI g d a imm => Sys2Proof.Machine.execDivRI g d a imm s
  | .divu g d a b z w => Sys2Proof.Machine.execDivu g d a b z w s
  | .divuRL g d a z w lit => Sys2Proof.Machine.execDivuRL g d a z w lit s
  | .divuRK g d a w k => Sys2Proof.Machine.execDivuRK g d a w k s
  | .divuRI g d a imm => Sys2Proof.Machine.execDivuRI g d a imm s
  | .rem g d a b z w => Sys2Proof.Machine.execRem g d a b z w s
  | .remRL g d a z w lit => Sys2Proof.Machine.execRemRL g d a z w lit s
  | .remRK g d a w k => Sys2Proof.Machine.execRemRK g d a w k s
  | .remRI g d a imm => Sys2Proof.Machine.execRemRI g d a imm s
  | .remu g d a b z w => Sys2Proof.Machine.execRemu g d a b z w s
  | .remuRL g d a z w lit => Sys2Proof.Machine.execRemuRL g d a z w lit s
  | .remuRK g d a w k => Sys2Proof.Machine.execRemuRK g d a w k s
  | .remuRI g d a imm => Sys2Proof.Machine.execRemuRI g d a imm s
  | .and g d a b z w => Sys2Proof.Machine.execAnd g d a b z w s
  | .andRL g d a z w lit => Sys2Proof.Machine.execAndRL g d a z w lit s
  | .andRK g d a w k => Sys2Proof.Machine.execAndRK g d a w k s
  | .andRI g d a imm => Sys2Proof.Machine.execAndRI g d a imm s
  | .or g d a b z w => Sys2Proof.Machine.execOr g d a b z w s
  | .orRL g d a z w lit => Sys2Proof.Machine.execOrRL g d a z w lit s
  | .orRK g d a w k => Sys2Proof.Machine.execOrRK g d a w k s
  | .orRI g d a imm => Sys2Proof.Machine.execOrRI g d a imm s
  | .xor g d a b z w => Sys2Proof.Machine.execXor g d a b z w s
  | .xorRL g d a z w lit => Sys2Proof.Machine.execXorRL g d a z w lit s
  | .xorRK g d a w k => Sys2Proof.Machine.execXorRK g d a w k s
  | .xorRI g d a imm => Sys2Proof.Machine.execXorRI g d a imm s
  | .andn g d a b z w => Sys2Proof.Machine.execAndn g d a b z w s
  | .andnRL g d a z w lit => Sys2Proof.Machine.execAndnRL g d a z w lit s
  | .andnRK g d a w k => Sys2Proof.Machine.execAndnRK g d a w k s
  | .andnRI g d a imm => Sys2Proof.Machine.execAndnRI g d a imm s
  | .orn g d a b z w => Sys2Proof.Machine.execOrn g d a b z w s
  | .ornRL g d a z w lit => Sys2Proof.Machine.execOrnRL g d a z w lit s
  | .ornRK g d a w k => Sys2Proof.Machine.execOrnRK g d a w k s
  | .ornRI g d a imm => Sys2Proof.Machine.execOrnRI g d a imm s
  | .shl g d a b z w => Sys2Proof.Machine.execShl g d a b z w s
  | .shlRL g d a z w lit => Sys2Proof.Machine.execShlRL g d a z w lit s
  | .shlRK g d a w k => Sys2Proof.Machine.execShlRK g d a w k s
  | .shlRI g d a imm => Sys2Proof.Machine.execShlRI g d a imm s
  | .shr g d a b z w => Sys2Proof.Machine.execShr g d a b z w s
  | .shrRL g d a z w lit => Sys2Proof.Machine.execShrRL g d a z w lit s
  | .shrRK g d a w k => Sys2Proof.Machine.execShrRK g d a w k s
  | .shrRI g d a imm => Sys2Proof.Machine.execShrRI g d a imm s
  | .sar g d a b z w => Sys2Proof.Machine.execSar g d a b z w s
  | .sarRL g d a z w lit => Sys2Proof.Machine.execSarRL g d a z w lit s
  | .sarRK g d a w k => Sys2Proof.Machine.execSarRK g d a w k s
  | .sarRI g d a imm => Sys2Proof.Machine.execSarRI g d a imm s
  | .rol g d a b z w => Sys2Proof.Machine.execRol g d a b z w s
  | .rolRL g d a z w lit => Sys2Proof.Machine.execRolRL g d a z w lit s
  | .rolRK g d a w k => Sys2Proof.Machine.execRolRK g d a w k s
  | .rolRI g d a imm => Sys2Proof.Machine.execRolRI g d a imm s
  | .ror g d a b z w => Sys2Proof.Machine.execRor g d a b z w s
  | .rorRL g d a z w lit => Sys2Proof.Machine.execRorRL g d a z w lit s
  | .rorRK g d a w k => Sys2Proof.Machine.execRorRK g d a w k s
  | .rorRI g d a imm => Sys2Proof.Machine.execRorRI g d a imm s
  | .min g d a b z w => Sys2Proof.Machine.execMin g d a b z w s
  | .minRL g d a z w lit => Sys2Proof.Machine.execMinRL g d a z w lit s
  | .minRK g d a w k => Sys2Proof.Machine.execMinRK g d a w k s
  | .minRI g d a imm => Sys2Proof.Machine.execMinRI g d a imm s
  | .max g d a b z w => Sys2Proof.Machine.execMax g d a b z w s
  | .maxRL g d a z w lit => Sys2Proof.Machine.execMaxRL g d a z w lit s
  | .maxRK g d a w k => Sys2Proof.Machine.execMaxRK g d a w k s
  | .maxRI g d a imm => Sys2Proof.Machine.execMaxRI g d a imm s
  | .minu g d a b z w => Sys2Proof.Machine.execMinu g d a b z w s
  | .minuRL g d a z w lit => Sys2Proof.Machine.execMinuRL g d a z w lit s
  | .minuRK g d a w k => Sys2Proof.Machine.execMinuRK g d a w k s
  | .minuRI g d a imm => Sys2Proof.Machine.execMinuRI g d a imm s
  | .maxu g d a b z w => Sys2Proof.Machine.execMaxu g d a b z w s
  | .maxuRL g d a z w lit => Sys2Proof.Machine.execMaxuRL g d a z w lit s
  | .maxuRK g d a w k => Sys2Proof.Machine.execMaxuRK g d a w k s
  | .maxuRI g d a imm => Sys2Proof.Machine.execMaxuRI g d a imm s
  | .abs g d a sx z w => Sys2Proof.Machine.execAbs g d a sx z w s
  | .clz g d a w => Sys2Proof.Machine.execClz g d a w s
  | .ctz g d a w => Sys2Proof.Machine.execCtz g d a w s
  | .popc g d a w => Sys2Proof.Machine.execPopc g d a w s
  | .bswap g d a z w => Sys2Proof.Machine.execBswap g d a z w s
  | .brev g d a z w => Sys2Proof.Machine.execBrev g d a z w s
  | .sext g d a w => Sys2Proof.Machine.execSext g d a w s
  | .zext g d a w => Sys2Proof.Machine.execZext g d a w s
  | .ext g d a b => Sys2Proof.Machine.execExt g d a b s
  | .extRL g d a lit => Sys2Proof.Machine.execExtRL g d a lit s
  | .extRK g d a k => Sys2Proof.Machine.execExtRK g d a k s
  | .extRI g d a imm => Sys2Proof.Machine.execExtRI g d a imm s
  | .ins g d a b => Sys2Proof.Machine.execIns g d a b s
  | .insRL g d a lit => Sys2Proof.Machine.execInsRL g d a lit s
  | .insRK g d a k => Sys2Proof.Machine.execInsRK g d a k s
  | .insRI g d a imm => Sys2Proof.Machine.execInsRI g d a imm s
  | .cmp g p a b z w n => Sys2Proof.Machine.execCmp g p a b z w n s
  | .cmpRL g p a z w n lit => Sys2Proof.Machine.execCmpRL g p a z w n lit s
  | .cmpRK g p a n k => Sys2Proof.Machine.execCmpRK g p a n k s
  | .cmpRI g p a imm => Sys2Proof.Machine.execCmpRI g p a imm s
  | .tst g p a b z n => Sys2Proof.Machine.execTst g p a b z n s
  | .tstRL g p a z n lit => Sys2Proof.Machine.execTstRL g p a z n lit s
  | .tstRK g p a z n k => Sys2Proof.Machine.execTstRK g p a z n k s
  | .tstRI g p a imm => Sys2Proof.Machine.execTstRI g p a imm s
  | .sel g d a b q n => Sys2Proof.Machine.execSel g d a b q n s
  | .selRL g d a q n lit => Sys2Proof.Machine.execSelRL g d a q n lit s
  | .mov g d b z => Sys2Proof.Machine.execMov g d b z s
  | .movRL g d z lit => Sys2Proof.Machine.execMovRL g d z lit s
  | .movRK g d z k => Sys2Proof.Machine.execMovRK g d z k s
  | .movRI g d imm => Sys2Proof.Machine.execMovRI g d imm s
  | .movi g d imm => Sys2Proof.Machine.execMovi g d imm s
  | .movh g d imm => Sys2Proof.Machine.execMovh g d imm s
  | .pset g p pa pb o => Sys2Proof.Machine.execPset g p pa pb o s
  | .rdp g d => Sys2Proof.Machine.execRdp g d s
  | .wrp g a b => Sys2Proof.Machine.execWrp g a b s
  | .wrpRL g a lit => Sys2Proof.Machine.execWrpRL g a lit s
  | .vadd g d a b sx z l => Sys2Proof.Machine.execVadd g d a b sx z l s
  | .vaddRL g d a sx z l lit => Sys2Proof.Machine.execVaddRL g d a sx z l lit s
  | .vaddRK g d a l k => Sys2Proof.Machine.execVaddRK g d a l k s
  | .vsub g d a b sx z l => Sys2Proof.Machine.execVsub g d a b sx z l s
  | .vsubRL g d a sx z l lit => Sys2Proof.Machine.execVsubRL g d a sx z l lit s
  | .vsubRK g d a l k => Sys2Proof.Machine.execVsubRK g d a l k s
  | .vmul g d a b sx z l => Sys2Proof.Machine.execVmul g d a b sx z l s
  | .vmulRL g d a sx z l lit => Sys2Proof.Machine.execVmulRL g d a sx z l lit s
  | .vmulRK g d a l k => Sys2Proof.Machine.execVmulRK g d a l k s
  | .vmin g d a b z l => Sys2Proof.Machine.execVmin g d a b z l s
  | .vminRL g d a z l lit => Sys2Proof.Machine.execVminRL g d a z l lit s
  | .vminRK g d a l k => Sys2Proof.Machine.execVminRK g d a l k s
  | .vmax g d a b z l => Sys2Proof.Machine.execVmax g d a b z l s
  | .vmaxRL g d a z l lit => Sys2Proof.Machine.execVmaxRL g d a z l lit s
  | .vmaxRK g d a l k => Sys2Proof.Machine.execVmaxRK g d a l k s
  | .vavg g d a b z l => Sys2Proof.Machine.execVavg g d a b z l s
  | .vavgRL g d a z l lit => Sys2Proof.Machine.execVavgRL g d a z l lit s
  | .vavgRK g d a l k => Sys2Proof.Machine.execVavgRK g d a l k s
  | .vabsd g d a b z l => Sys2Proof.Machine.execVabsd g d a b z l s
  | .vabsdRL g d a z l lit => Sys2Proof.Machine.execVabsdRL g d a z l lit s
  | .vabsdRK g d a l k => Sys2Proof.Machine.execVabsdRK g d a l k s
  | .vdot g d a b c z l => Sys2Proof.Machine.execVdot g d a b c z l s
  | .vdotRL g d a b z l lit => Sys2Proof.Machine.execVdotRL g d a b z l lit s
  | .vdotRK g d a b l k => Sys2Proof.Machine.execVdotRK g d a b l k s
  | .vsum g d a z l => Sys2Proof.Machine.execVsum g d a z l s
  | .vsplat g d a l => Sys2Proof.Machine.execVsplat g d a l s
  | .vshf g d a b l => Sys2Proof.Machine.execVshf g d a b l s
  | .vshfRL g d a l lit => Sys2Proof.Machine.execVshfRL g d a l lit s
  | .vpack g d a b sx z l => Sys2Proof.Machine.execVpack g d a b sx z l s
  | .vpackRL g d a sx z l lit => Sys2Proof.Machine.execVpackRL g d a sx z l lit s
  | .vcmp g d a b n z l => Sys2Proof.Machine.execVcmp g d a b n z l s
  | .vcmpRL g d a n z l lit => Sys2Proof.Machine.execVcmpRL g d a n z l lit s
  | .vcmpRK g d a l k => Sys2Proof.Machine.execVcmpRK g d a l k s
  | .vsel g d a b c => Sys2Proof.Machine.execVsel g d a b c s
  | .vselRL g d a b lit => Sys2Proof.Machine.execVselRL g d a b lit s
  | .vselRK g d a b k => Sys2Proof.Machine.execVselRK g d a b k s
  | .rand g d a b z => Sys2Proof.Machine.execRand g d a b z s
  | .randRL g d a z lit => Sys2Proof.Machine.execRandRL g d a z lit s
  | .randRK g d a z k => Sys2Proof.Machine.execRandRK g d a z k s
  | .randRI g d a imm => Sys2Proof.Machine.execRandRI g d a imm s
  | .randf g d a b z => Sys2Proof.Machine.execRandf g d a b z s
  | .randfRL g d a z lit => Sys2Proof.Machine.execRandfRL g d a z lit s
  | .randfRK g d a z k => Sys2Proof.Machine.execRandfRK g d a z k s
  | .randfRI g d a imm => Sys2Proof.Machine.execRandfRI g d a imm s
  | .fadd g d a b r f => Sys2Proof.Machine.execFadd g d a b r f s
  | .faddRL g d a r f lit => Sys2Proof.Machine.execFaddRL g d a r f lit s
  | .faddRK g d a f k => Sys2Proof.Machine.execFaddRK g d a f k s
  | .fsub g d a b r f => Sys2Proof.Machine.execFsub g d a b r f s
  | .fsubRL g d a r f lit => Sys2Proof.Machine.execFsubRL g d a r f lit s
  | .fsubRK g d a f k => Sys2Proof.Machine.execFsubRK g d a f k s
  | .fmul g d a b r f => Sys2Proof.Machine.execFmul g d a b r f s
  | .fmulRL g d a r f lit => Sys2Proof.Machine.execFmulRL g d a r f lit s
  | .fmulRK g d a f k => Sys2Proof.Machine.execFmulRK g d a f k s
  | .fdiv g d a b r f => Sys2Proof.Machine.execFdiv g d a b r f s
  | .fdivRL g d a r f lit => Sys2Proof.Machine.execFdivRL g d a r f lit s
  | .fdivRK g d a f k => Sys2Proof.Machine.execFdivRK g d a f k s
  | .fma g d a b c r f => Sys2Proof.Machine.execFma g d a b c r f s
  | .fmaRL g d a b r f lit => Sys2Proof.Machine.execFmaRL g d a b r f lit s
  | .fmaRK g d a b f k => Sys2Proof.Machine.execFmaRK g d a b f k s
  | .fsqrt g d a r f => Sys2Proof.Machine.execFsqrt g d a r f s
  | .fmin g d a b f => Sys2Proof.Machine.execFmin g d a b f s
  | .fminRL g d a f lit => Sys2Proof.Machine.execFminRL g d a f lit s
  | .fminRK g d a f k => Sys2Proof.Machine.execFminRK g d a f k s
  | .fmax g d a b f => Sys2Proof.Machine.execFmax g d a b f s
  | .fmaxRL g d a f lit => Sys2Proof.Machine.execFmaxRL g d a f lit s
  | .fmaxRK g d a f k => Sys2Proof.Machine.execFmaxRK g d a f k s
  | .fabs g d a f => Sys2Proof.Machine.execFabs g d a f s
  | .fneg g d a f => Sys2Proof.Machine.execFneg g d a f s
  | .fcmp g p a b n f => Sys2Proof.Machine.execFcmp g p a b n f s
  | .fcmpRL g p a n f lit => Sys2Proof.Machine.execFcmpRL g p a n f lit s
  | .fcmpRK g p a f k => Sys2Proof.Machine.execFcmpRK g p a f k s
  | .fclass g d a f => Sys2Proof.Machine.execFclass g d a f s
  | .fcvt g d a b c => Sys2Proof.Machine.execFcvt g d a b c s
  | .fcvtRL g d a b lit => Sys2Proof.Machine.execFcvtRL g d a b lit s
  | .fcvtRK g d a b k => Sys2Proof.Machine.execFcvtRK g d a b k s
  | .fround g d a r f => Sys2Proof.Machine.execFround g d a r f s
  | .vfma g d a b c r f => Sys2Proof.Machine.execVfma g d a b c r f s
  | .vfmaRL g d a b r f lit => Sys2Proof.Machine.execVfmaRL g d a b r f lit s
  | .vfmaRK g d a b f k => Sys2Proof.Machine.execVfmaRK g d a b f k s
  | .xcvt g d a => Sys2Proof.Machine.execXcvt g d a s
  | .tdesc g d a b pf => Sys2Proof.Machine.execTdesc g d a b pf s
  | .tdescRL g d a pf lit => Sys2Proof.Machine.execTdescRL g d a pf lit s
  | .tdescRK g d a pf k => Sys2Proof.Machine.execTdescRK g d a pf k s
  | .tdescRI g d a imm => Sys2Proof.Machine.execTdescRI g d a imm s
  | .tfree g a => Sys2Proof.Machine.execTfree g a s
  | .tinfo g d a b => Sys2Proof.Machine.execTinfo g d a b s
  | .tinfoRI g d a imm => Sys2Proof.Machine.execTinfoRI g d a imm s
  | .tadd g d a b c r o => Sys2Proof.Machine.execTadd g d a b c r o s
  | .tsub g d a b c r o => Sys2Proof.Machine.execTsub g d a b c r o s
  | .tmul g d a b c r o => Sys2Proof.Machine.execTmul g d a b c r o s
  | .tmax g d a b c r o => Sys2Proof.Machine.execTmax g d a b c r o s
  | .tmin g d a b c r o => Sys2Proof.Machine.execTmin g d a b c r o s
  | .tfma g d a b c r o => Sys2Proof.Machine.execTfma g d a b c r o s
  | .tscale g d a b c r o => Sys2Proof.Machine.execTscale g d a b c r o s
  | .tscaleRL g d a b r o lit => Sys2Proof.Machine.execTscaleRL g d a b r o lit s
  | .tscaleRK g d a b r o k => Sys2Proof.Machine.execTscaleRK g d a b r o k s
  | .tcvt g d a b r o => Sys2Proof.Machine.execTcvt g d a b r o s
  | .tredmax g d a x y r => Sys2Proof.Machine.execTredmax g d a x y r s
  | .tredsum g d a x r => Sys2Proof.Machine.execTredsum g d a x r s
  | .ttrans g d a r o => Sys2Proof.Machine.execTtrans g d a r o s
  | .tfill g d b n r o => Sys2Proof.Machine.execTfill g d b n r o s
  | .tfillRL g d n r o lit => Sys2Proof.Machine.execTfillRL g d n r o lit s
  | .tfillRK g d r o k => Sys2Proof.Machine.execTfillRK g d r o k s
  | .tget g d a b => Sys2Proof.Machine.execTget g d a b s
  | .tgetRL g d a lit => Sys2Proof.Machine.execTgetRL g d a lit s
  | .tgetRK g d a k => Sys2Proof.Machine.execTgetRK g d a k s
  | .tgetRI g d a imm => Sys2Proof.Machine.execTgetRI g d a imm s
  | .tset g d a b => Sys2Proof.Machine.execTset g d a b s
  | .tsetRL g d a lit => Sys2Proof.Machine.execTsetRL g d a lit s
  | .tsetRK g d a k => Sys2Proof.Machine.execTsetRK g d a k s
  | .tsetRI g d a imm => Sys2Proof.Machine.execTsetRI g d a imm s
  | .mxm g d a b c t n => Sys2Proof.Machine.execMxm g d a b c t n s
  | .mxmRL g d a b t n lit => Sys2Proof.Machine.execMxmRL g d a b t n lit s
  | .mxmRK g d a b t n k => Sys2Proof.Machine.execMxmRK g d a b t n k s
  | .mxmz g d a b c t n => Sys2Proof.Machine.execMxmz g d a b c t n s
  | .mxmzRL g d a b t n lit => Sys2Proof.Machine.execMxmzRL g d a b t n lit s
  | .mxmzRK g d a b t n k => Sys2Proof.Machine.execMxmzRK g d a b t n k s
  | .mxflush g a l => Sys2Proof.Machine.execMxflush g a l s
  | .mxnorm g d a b => Sys2Proof.Machine.execMxnorm g d a b s
  | .mxnormRL g d a lit => Sys2Proof.Machine.execMxnormRL g d a lit s
  | .mxexp g d a l => Sys2Proof.Machine.execMxexp g d a l s
  | .ld g d a b o y z w => Sys2Proof.Machine.execLd g d a b o y z w s
  | .ldRL g d a o y z w lit => Sys2Proof.Machine.execLdRL g d a o y z w lit s
  | .ldRK g d a w k => Sys2Proof.Machine.execLdRK g d a w k s
  | .ldRI g d a imm => Sys2Proof.Machine.execLdRI g d a imm s
  | .st g d a b o y w => Sys2Proof.Machine.execSt g d a b o y w s
  | .stRL g d a o y w lit => Sys2Proof.Machine.execStRL g d a o y w lit s
  | .stRK g d a w k => Sys2Proof.Machine.execStRK g d a w k s
  | .stRI g d a imm => Sys2Proof.Machine.execStRI g d a imm s
  | .ld2 g d a b o y => Sys2Proof.Machine.execLd2 g d a b o y s
  | .ld2RL g d a o y lit => Sys2Proof.Machine.execLd2RL g d a o y lit s
  | .ld2RK g d a k => Sys2Proof.Machine.execLd2RK g d a k s
  | .ld2RI g d a imm => Sys2Proof.Machine.execLd2RI g d a imm s
  | .st2 g d a b o y => Sys2Proof.Machine.execSt2 g d a b o y s
  | .st2RL g d a o y lit => Sys2Proof.Machine.execSt2RL g d a o y lit s
  | .st2RK g d a k => Sys2Proof.Machine.execSt2RK g d a k s
  | .st2RI g d a imm => Sys2Proof.Machine.execSt2RI g d a imm s
  | .ldq g d a b o u f => Sys2Proof.Machine.execLdq g d a b o u f s
  | .ldqRL g d a o u f lit => Sys2Proof.Machine.execLdqRL g d a o u f lit s
  | .ldb g d a b c y z w => Sys2Proof.Machine.execLdb g d a b c y z w s
  | .ldbRL g d a b y z w lit => Sys2Proof.Machine.execLdbRL g d a b y z w lit s
  | .ldbRK g d a b w k => Sys2Proof.Machine.execLdbRK g d a b w k s
  | .ldfe g d a b z y => Sys2Proof.Machine.execLdfe g d a b z y s
  | .ldfeRL g d a z y lit => Sys2Proof.Machine.execLdfeRL g d a z y lit s
  | .ldfeRK g d a y k => Sys2Proof.Machine.execLdfeRK g d a y k s
  | .ldfeRI g d a imm => Sys2Proof.Machine.execLdfeRI g d a imm s
  | .stfe g d a b y => Sys2Proof.Machine.execStfe g d a b y s
  | .stfeRL g d a y lit => Sys2Proof.Machine.execStfeRL g d a y lit s
  | .stfeRK g d a y k => Sys2Proof.Machine.execStfeRK g d a y k s
  | .stfeRI g d a imm => Sys2Proof.Machine.execStfeRI g d a imm s
  | .feset g a b u y => Sys2Proof.Machine.execFeset g a b u y s
  | .fesetRL g a u y lit => Sys2Proof.Machine.execFesetRL g a u y lit s
  | .fesetRK g a y k => Sys2Proof.Machine.execFesetRK g a y k s
  | .fesetRI g a imm => Sys2Proof.Machine.execFesetRI g a imm s
  | .pref g a b x => Sys2Proof.Machine.execPref g a b x s
  | .prefRL g a x lit => Sys2Proof.Machine.execPrefRL g a x lit s
  | .prefRK g a x k => Sys2Proof.Machine.execPrefRK g a x k s
  | .prefRI g a imm => Sys2Proof.Machine.execPrefRI g a imm s
  | .cwb g a b => Sys2Proof.Machine.execCwb g a b s
  | .cwbRL g a lit => Sys2Proof.Machine.execCwbRL g a lit s
  | .cwbRK g a k => Sys2Proof.Machine.execCwbRK g a k s
  | .cwbRI g a imm => Sys2Proof.Machine.execCwbRI g a imm s
  | .cinv g a b => Sys2Proof.Machine.execCinv g a b s
  | .cinvRL g a lit => Sys2Proof.Machine.execCinvRL g a lit s
  | .cinvRK g a k => Sys2Proof.Machine.execCinvRK g a k s
  | .cinvRI g a imm => Sys2Proof.Machine.execCinvRI g a imm s
  | .aadd g d a b o w => Sys2Proof.Machine.execAadd g d a b o w s
  | .aaddRL g d a o w lit => Sys2Proof.Machine.execAaddRL g d a o w lit s
  | .aand g d a b o w => Sys2Proof.Machine.execAand g d a b o w s
  | .aandRL g d a o w lit => Sys2Proof.Machine.execAandRL g d a o w lit s
  | .aor g d a b o w => Sys2Proof.Machine.execAor g d a b o w s
  | .aorRL g d a o w lit => Sys2Proof.Machine.execAorRL g d a o w lit s
  | .axor g d a b o w => Sys2Proof.Machine.execAxor g d a b o w s
  | .axorRL g d a o w lit => Sys2Proof.Machine.execAxorRL g d a o w lit s
  | .amin g d a b o w => Sys2Proof.Machine.execAmin g d a b o w s
  | .aminRL g d a o w lit => Sys2Proof.Machine.execAminRL g d a o w lit s
  | .amax g d a b o w => Sys2Proof.Machine.execAmax g d a b o w s
  | .amaxRL g d a o w lit => Sys2Proof.Machine.execAmaxRL g d a o w lit s
  | .aminu g d a b o w => Sys2Proof.Machine.execAminu g d a b o w s
  | .aminuRL g d a o w lit => Sys2Proof.Machine.execAminuRL g d a o w lit s
  | .amaxu g d a b o w => Sys2Proof.Machine.execAmaxu g d a b o w s
  | .amaxuRL g d a o w lit => Sys2Proof.Machine.execAmaxuRL g d a o w lit s
  | .aswp g d a b o w => Sys2Proof.Machine.execAswp g d a b o w s
  | .aswpRL g d a o w lit => Sys2Proof.Machine.execAswpRL g d a o w lit s
  | .acas g d a b c o w => Sys2Proof.Machine.execAcas g d a b c o w s
  | .acasRL g d a b o w lit => Sys2Proof.Machine.execAcasRL g d a b o w lit s
  | .afadd g d a b o f => Sys2Proof.Machine.execAfadd g d a b o f s
  | .afaddRL g d a o f lit => Sys2Proof.Machine.execAfaddRL g d a o f lit s
  | .axadd g d a b o f => Sys2Proof.Machine.execAxadd g d a b o f s
  | .axaddRL g d a o f lit => Sys2Proof.Machine.execAxaddRL g d a o f lit s
  | .fence g sx => Sys2Proof.Machine.execFence g sx s
  | .bara g d a b => Sys2Proof.Machine.execBara g d a b s
  | .baraRL g d a lit => Sys2Proof.Machine.execBaraRL g d a lit s
  | .barc g d a b => Sys2Proof.Machine.execBarc g d a b s
  | .barcRL g d a lit => Sys2Proof.Machine.execBarcRL g d a lit s
  | .swait g d a b => Sys2Proof.Machine.execSwait g d a b s
  | .swaitRL g d a lit => Sys2Proof.Machine.execSwaitRL g d a lit s
  | .swaitRK g d a k => Sys2Proof.Machine.execSwaitRK g d a k s
  | .swaitRI g d a imm => Sys2Proof.Machine.execSwaitRI g d a imm s
  | .sarm g d a b c y f pf => Sys2Proof.Machine.execSarm g d a b c y f pf s
  | .sarmRL g d a b y f pf lit => Sys2Proof.Machine.execSarmRL g d a b y f pf lit s
  | .cpy g d a b c pf => Sys2Proof.Machine.execCpy g d a b c pf s
  | .cpyRL g d a b pf lit => Sys2Proof.Machine.execCpyRL g d a b pf lit s
  | .cpy2 g d a b c pf => Sys2Proof.Machine.execCpy2 g d a b c pf s
  | .cpy2RL g d a b pf lit => Sys2Proof.Machine.execCpy2RL g d a b pf lit s
  | .cpyg g d a b c pf => Sys2Proof.Machine.execCpyg g d a b c pf s
  | .tload g d a b c sx pf => Sys2Proof.Machine.execTload g d a b c sx pf s
  | .tloadRL g d a b sx pf lit => Sys2Proof.Machine.execTloadRL g d a b sx pf lit s
  | .tstore g d a b c pf => Sys2Proof.Machine.execTstore g d a b c pf s
  | .tstoreRL g d a b pf lit => Sys2Proof.Machine.execTstoreRL g d a b pf lit s
  | .jpoll g d a pf => Sys2Proof.Machine.execJpoll g d a pf s
  | .jwait g d a => Sys2Proof.Machine.execJwait g d a s
  | .jcancel g d a => Sys2Proof.Machine.execJcancel g d a s
  | .b g disp => Sys2Proof.Machine.execB g disp s
  | .call g disp => Sys2Proof.Machine.execCall g disp s
  | .dbnz g r disp => Sys2Proof.Machine.execDbnz g r disp s
  | .jmp g b => Sys2Proof.Machine.execJmp g b s
  | .jmpRL g lit => Sys2Proof.Machine.execJmpRL g lit s
  | .callr g b => Sys2Proof.Machine.execCallr g b s
  | .callrRL g lit => Sys2Proof.Machine.execCallrRL g lit s
  | .ret g k => Sys2Proof.Machine.execRet g k s
  | .spawn g d a b c sx pf => Sys2Proof.Machine.execSpawn g d a b c sx pf s
  | .spawnRL g d a b sx pf lit => Sys2Proof.Machine.execSpawnRL g d a b sx pf lit s
  | .launch g d a b pf => Sys2Proof.Machine.execLaunch g d a b pf s
  | .launchRL g d a pf lit => Sys2Proof.Machine.execLaunchRL g d a pf lit s
  | .qpush g d a b pf => Sys2Proof.Machine.execQpush g d a b pf s
  | .qpushRL g d a pf lit => Sys2Proof.Machine.execQpushRL g d a pf lit s
  | .qpop g d a pf => Sys2Proof.Machine.execQpop g d a pf s
  | .done g => Sys2Proof.Machine.execDone g s
  | .waitc g => Sys2Proof.Machine.execWaitc g s
  | .yield g => Sys2Proof.Machine.execYield g s
  | .halt g a r => Sys2Proof.Machine.execHalt g a r s
  | .sleep g b => Sys2Proof.Machine.execSleep g b s
  | .sleepRL g lit => Sys2Proof.Machine.execSleepRL g lit s
  | .prio g d b => Sys2Proof.Machine.execPrio g d b s
  | .prioRL g d lit => Sys2Proof.Machine.execPrioRL g d lit s
  | .rsr g d n => Sys2Proof.Machine.execRsr g d n s
  | .wsr g b n => Sys2Proof.Machine.execWsr g b n s
  | .wsrRL g n lit => Sys2Proof.Machine.execWsrRL g n lit s
  | .trap g b => Sys2Proof.Machine.execTrap g b s
  | .trapRL g lit => Sys2Proof.Machine.execTrapRL g lit s
  | .wake g a => Sys2Proof.Machine.execWake g a s
  | .kill g d a => Sys2Proof.Machine.execKill g d a s
  | .resume g d a => Sys2Proof.Machine.execResume g d a s
  | .slotw g a b => Sys2Proof.Machine.execSlotw g a b s
  | .slotwRL g a lit => Sys2Proof.Machine.execSlotwRL g a lit s
  | .plbi g a b => Sys2Proof.Machine.execPlbi g a b s
  | .plbiRL g a lit => Sys2Proof.Machine.execPlbiRL g a lit s
  | .tlbi g b => Sys2Proof.Machine.execTlbi g b s
  | .tlbiRL g lit => Sys2Proof.Machine.execTlbiRL g lit s
  | .pmig g d a b pf => Sys2Proof.Machine.execPmig g d a b pf s
  | .pmigRL g d a pf lit => Sys2Proof.Machine.execPmigRL g d a pf lit s
  | .ovl g a n => Sys2Proof.Machine.execOvl g a n s
  | .ovlq g d b => Sys2Proof.Machine.execOvlq g d b s
  | .ovlqRL g d lit => Sys2Proof.Machine.execOvlqRL g d lit s
  | .fmai d a imm => Sys2Proof.Machine.execFmai d a imm s

end Sys2Proof.Machine
end

