-- ==== Sys2Proof/Machine/Issue.lean ====
section
/-!
DEFINITION. Machine/Issue.lean: the latched context takes the barrel: its overlay is looked up, and a miss parks it (R91).
-/
namespace Sys2Proof.Machine

/-- A barrel for a context whose overlay holds no slot. -/
def emptyBarrel (core entry : Nat) (h : Held) : Barrel :=
  { core := core, entry := entry, held := h, image := clmBase core, length := 0, constWords := 0, word := 0, next := 0 }

/-- The context that a latch names, with its issue recorded (R121). -/
def State.latched (s : State) (core entry : Nat) : Option Held :=
  match Table.get? (s.core core).entries entry with
  | some e => e.issuable.map fun h => { h with issuedAt := s.cycle }
  | none => none

/-- The core's last fetch from a slot (R94). -/
def State.touchSlot (s : State) (core : Nat) (x : Slot) : State :=
  let c := s.core core
  s.setCore core { c with slots := Table.set c.slots x.first { x with lastFetch := s.cycle } }

/-- An overlay miss at a fetch. -/
def State.fetchMiss (s : State) (core entry : Nat) (h : Held) : State :=
  let b := emptyBarrel core entry h
  ({ s with barrel := some b }.overlayMiss b h.line.pcOverlay).retire

/-- A bounds fault of a fetch: AUX 0 and FAULT_VA 0 (R144, R333). -/
def State.fetchBoundsFault (s : State) (b : Barrel) : State :=
  ({ s with barrel := some b }.takeFault b b.held.line .bounds .none 0 0).retire

/-- A fetch of poisoned data: AUX 0 and FAULT_VA its address (R333, R341). -/
def State.fetchPoisoned (s : State) (b : Barrel) (a : Nat) : State :=
  ({ s with barrel := some b }.takeFault b b.held.line .poisonedData .none 0 a).retire

/-- An illegal encoding at a fetch (R153). -/
def State.fetchIllegal (s : State) (b : Barrel) : State := ({ s with barrel := some b }.illegal b).retire

end Sys2Proof.Machine
end

