-- ==== Sys2Proof/Machine/Step.lean ====
section
/-!
DEFINITION. Machine/Step.lean: one step of the device: the latched context issues its instruction; otherwise the next
step of the agenda is taken; otherwise a cycle passes.
-/
namespace Sys2Proof.Machine

noncomputable section

/-- The instruction leaves the barrel. -/
def finish (r : Host.Outcome State Fault Refusal) : Host.Outcome State Fault Refusal :=
  match r with
  | .next s => .next s.retire
  | .fault f => .fault f
  | .refused f => .refused f

/-- A context issues the instruction at its PC (R142 to R144, R153). -/
def issueFrom (s : State) (core entry : Nat) (h : Held) : Host.Outcome State Fault Refusal :=
  match execSlot (s.core core) h.line.domain h.line.pcOverlay with
  | none => .next (s.fetchMiss core entry h)
  | some x =>
    let s := s.touchSlot core x
    match fetchWord s (slotBase core x) x.length h.line.pcOffset h.overran with
    | .bounds => .next (s.fetchBoundsFault (barrelOf core entry h x 0 0))
    | .badEncoding w => .next (s.fetchIllegal (barrelOf core entry h x w 0))
    | .poisoned a => .next (s.fetchPoisoned (barrelOf core entry h x 0 0) a)
    | .instr i w n => finish (exec i { s with barrel := some (barrelOf core entry h x w n) })

def step (s : State) : Host.Outcome State Fault Refusal :=
  match s.latch with
  | some (core, entry) =>
    let s := { s with latch := none }
    match s.latched core entry with
    | some h => issueFrom s core entry h
    | none => .next s
  | none =>
    match s.agenda with
    | i :: rest => exec i { s with agenda := rest }
    | [] => .next s.tick

/-- The line that issues the instruction of `withFetchWord`: RESIDENT at offset 4 of overlay 0, in domain 0, with every
other field as after zeroing. -/
def fetchLine : Line :=
  { regs := ⟨0, 0, 0, 0, 0, 0, 0, 0⟩, pc := 4, pred := 0, waitTag := 0, status := 2, control := 0, link := 0, parent := 0,
    joinCount := 0, deferredPc := 0, user := 0, tag := 0, gen := 0, rsvd := 0 }

/-- The state in which the very next step runs an instruction: a context sits in entry 0 of core 0 and is latched, its
overlay 0 is EXECUTABLE in granule 0, and the image holds a line header, the word at offset 4 and a zero literal after
it where the word takes one. A table word of 64 bits carries its literal in its upper half. -/
def State.withFetchWord (s : State) (nbits w : Nat) : State :=
  let word := w % 2 ^ 32
  let lit := if nbits ≤ 32 then 0 else w / 2 ^ 32 % 2 ^ 32
  let header := if takesLiteral word then 1 + 2 ^ 2 else 1
  let base := clmBase 0
  let c := s.core 0
  let x : Slot := { domain := 0, overlay := 0, count := 1, first := 0, state := .executable, length := 64, constWords := 0,
                    lastFetch := 0 }
  let h : Held := { va := 0, line := fetchLine, parkedAt := 0, issuedAt := 0, draining := false, ending := .toReady,
                    records := [], fenced := none, overran := false, skip := false, gang := false, ports := [],
                    popped := none, kept := none, observed := [] }
  let c := { c with entries := Table.set c.entries 0 (.held h), slots := Table.set c.slots 0 x }
  { s.setCore 0 c with
    mem := memPuts s.mem base (toBytes 4 header ++ toBytes 4 word ++ toBytes 4 lit)
    latch := some (0, 0), barrel := none }

end

end Sys2Proof.Machine
end

