-- ==== Sys2Proof/Safety.lean ====
section
/-!
DEFINITION. Safety.lean: the terms that claims use: what every state keeps, when an instruction runs, what the operand
forms of one instruction have in common, and which registers an instruction names as its results.
-/
namespace Sys2Proof.Machine

/-- The memory list keeps its canonical form: keys rise strictly and no cell holds what an unlisted key reads as. -/
def State.MemoryOk (s : State) : Prop := Memory.wf s.mem = true

/-! ## When an instruction has its effect -/

/-- A context has issued the instruction, and its guard holds (R147). -/
def Runs (s : State) (b : Barrel) (g : Guard) : Prop := s.barrel = some b ∧ guardHolds b.held.line g = true

/-- A constant index lies inside the constant bank, and its word is not poisoned (R148, R341). -/
def InBank (s : State) (b : Barrel) (k : BitVec 8) : Prop := k.toNat < b.constWords ∧ s.isPoisoned (constAddr b k) = false

/-- A 32-bit tail widened under R148: zero-extended by `.z`, else sign-extended. -/
def widen (z : Bool) (v : BitVec 32) : Word64 := if z then v.setWidth 64 else v.signExtend 64

/-- The instruction completes with v in register d. -/
def State.withReg (s : State) (b : Barrel) (d : Reg) (v : Word64) : Host.Outcome State Fault Refusal :=
  .next (s.complete b (b.held.line.setReg d v))

/-- The four forms of an integer instruction with a width and `.z` (R186): each takes f of its tail, its `.z` and its
width; the RK form has no `.z`, the RI form is the 64-bit form. -/
def IntegerForms (s : State) (b : Barrel) (f : Word64 → Bool → Width → Host.Outcome State Fault Refusal)
    (rr : Reg → Bool → Width → Instr) (rl : Bool → Width → BitVec 32 → Instr) (rk : Width → BitVec 8 → Instr)
    (ri : BitVec 13 → Instr) : Prop :=
  (∀ r z w, exec (rr r z w) s = f (b.held.line.reg r) z w) ∧
  (∀ z w v, exec (rl z w v) s = f (widen z v) z w) ∧
  (∀ w k, InBank s b k → exec (rk w k) s = f (widen false (constWord s b k)) false w) ∧
  (∀ v, exec (ri v) s = f (v.signExtend 64) false .w64)

/-- The four forms of an instruction whose tail is widened by `.z` and which has no width. -/
def TailForms (s : State) (b : Barrel) (f : Word64 → Host.Outcome State Fault Refusal) (z : Bool) (rr : Reg → Instr)
    (rl : BitVec 32 → Instr) (rk : BitVec 8 → Instr) (ri : BitVec 13 → Instr) : Prop :=
  (∀ r, exec (rr r) s = f (b.held.line.reg r)) ∧ (∀ v, exec (rl v) s = f (widen z v)) ∧
  (∀ k, InBank s b k → exec (rk k) s = f (widen z (constWord s b k))) ∧ (∀ v, exec (ri v) s = f (v.signExtend 64))

/-- The RR and RL forms of an instruction that has no others. -/
def ShortForms (s : State) (b : Barrel) (f : Word64 → Host.Outcome State Fault Refusal) (z : Bool) (rr : Reg → Instr)
    (rl : BitVec 32 → Instr) : Prop :=
  (∀ r, exec (rr r) s = f (b.held.line.reg r)) ∧ ∀ v, exec (rl v) s = f (widen z v)

/-- The RR, RL and RK forms of a short-vector instruction (R199): a 32-bit tail stands in both halves, and the RK form has
its lane size alone. -/
def LaneForms (s : State) (b : Barrel) (f : Word64 → Bool → Lane → Host.Outcome State Fault Refusal)
    (rr : Reg → Bool → Lane → Instr) (rl : Bool → Lane → BitVec 32 → Instr) (rk : Lane → BitVec 8 → Instr) : Prop :=
  (∀ r z n, exec (rr r z n) s = f (b.held.line.reg r) z n) ∧ (∀ z n v, exec (rl z n v) s = f (v ++ v) z n) ∧
  (∀ n k, InBank s b k → exec (rk n k) s = f (constWord s b k ++ constWord s b k) false n)
end Sys2Proof.Machine

/-! ## Classes of instructions -/

namespace Sys2Proof

/-- The instructions of the integer chapter other than its branches (R184). -/
def Instr.integer : Instr → Bool
  | .add .. | .addRL .. | .addRK .. | .addRI .. | .sub .. | .subRL .. | .subRK .. | .subRI .. | .mul ..
  | .mulRL .. | .mulRK .. | .mulRI .. | .mulh .. | .mulhRL .. | .mulhRK .. | .mulhRI .. | .mulhu ..
  | .mulhuRL .. | .mulhuRK .. | .mulhuRI .. | .div .. | .divRL .. | .divRK .. | .divRI .. | .divu ..
  | .divuRL .. | .divuRK .. | .divuRI .. | .rem .. | .remRL .. | .remRK .. | .remRI .. | .remu .. | .remuRL ..
  | .remuRK .. | .remuRI .. | .and .. | .andRL .. | .andRK .. | .andRI .. | .or .. | .orRL .. | .orRK ..
  | .orRI .. | .xor .. | .xorRL .. | .xorRK .. | .xorRI .. | .andn .. | .andnRL .. | .andnRK .. | .andnRI ..
  | .orn .. | .ornRL .. | .ornRK .. | .ornRI .. | .shl .. | .shlRL .. | .shlRK .. | .shlRI .. | .shr ..
  | .shrRL .. | .shrRK .. | .shrRI .. | .sar .. | .sarRL .. | .sarRK .. | .sarRI .. | .rol .. | .rolRL ..
  | .rolRK .. | .rolRI .. | .ror .. | .rorRL .. | .rorRK .. | .rorRI .. | .min .. | .minRL .. | .minRK ..
  | .minRI .. | .max .. | .maxRL .. | .maxRK .. | .maxRI .. | .minu .. | .minuRL .. | .minuRK .. | .minuRI ..
  | .maxu .. | .maxuRL .. | .maxuRK .. | .maxuRI .. | .abs .. | .clz .. | .ctz .. | .popc .. | .bswap ..
  | .brev .. | .sext .. | .zext .. | .ext .. | .extRL .. | .extRK .. | .extRI .. | .ins .. | .insRL ..
  | .insRK .. | .insRI .. | .cmp .. | .cmpRL .. | .cmpRK .. | .cmpRI .. | .tst .. | .tstRL .. | .tstRK ..
  | .tstRI .. | .sel .. | .selRL .. | .mov .. | .movRL .. | .movRK .. | .movRI .. | .movi .. | .movh ..
  | .pset .. | .rdp .. | .wrp .. | .wrpRL .. | .vadd .. | .vaddRL .. | .vaddRK .. | .vsub .. | .vsubRL ..
  | .vsubRK .. | .vmul .. | .vmulRL .. | .vmulRK .. | .vmin .. | .vminRL .. | .vminRK .. | .vmax ..
  | .vmaxRL .. | .vmaxRK .. | .vavg .. | .vavgRL .. | .vavgRK .. | .vabsd .. | .vabsdRL .. | .vabsdRK ..
  | .vdot .. | .vdotRL .. | .vdotRK .. | .vsum .. | .vsplat .. | .vshf .. | .vshfRL .. | .vpack ..
  | .vpackRL .. | .vcmp .. | .vcmpRL .. | .vcmpRK .. | .vsel .. | .vselRL .. | .vselRK .. | .rand ..
  | .randRL .. | .randRK .. | .randRI .. | .randf .. | .randfRL .. | .randfRK .. | .randfRI .. => true
  | _ => false

/-- The scalar and lane floating-point instructions (R209 to R220). -/
def Instr.float : Instr → Bool
  | .fadd .. | .faddRL .. | .faddRK .. | .fsub .. | .fsubRL .. | .fsubRK .. | .fmul .. | .fmulRL ..
  | .fmulRK .. | .fdiv .. | .fdivRL .. | .fdivRK .. | .fma .. | .fmaRL .. | .fmaRK .. | .fsqrt .. | .fmin ..
  | .fminRL .. | .fminRK .. | .fmax .. | .fmaxRL .. | .fmaxRK .. | .fabs .. | .fneg .. | .fcmp .. | .fcmpRL ..
  | .fcmpRK .. | .fclass .. | .fcvt .. | .fcvtRL .. | .fcvtRK .. | .fround .. | .vfma .. | .vfmaRL ..
  | .vfmaRK .. | .xcvt .. | .fmai .. => true
  | _ => false

/-- The instructions that only read and write registers and predicates. -/
def Instr.registerOnly (i : Instr) : Bool := i.integer || i.float

/-- The instructions that write the predicate word as a whole (R198). -/
def Instr.writesPred : Instr → Bool
  | .wrp .. | .wrpRL .. => true
  | _ => false

/-- The additions and subtractions that write CARRY (R188). -/
def Instr.carries : Instr → Bool
  | .add _ _ _ _ m _ _ | .sub _ _ _ _ m _ _ => m == .co || m == .cio
  | .addRL _ _ _ m _ _ _ | .subRL _ _ _ m _ _ _ => m == .co || m == .cio
  | _ => false

/-- The register that a register-only instruction writes. -/
def Instr.destReg : Instr → Option Reg
  | .add _ d _ _ _ _ _ => some d
  | .addRL _ d _ _ _ _ _ => some d
  | .addRK _ d _ _ _ => some d
  | .addRI _ d _ _ => some d
  | .sub _ d _ _ _ _ _ => some d
  | .subRL _ d _ _ _ _ _ => some d
  | .subRK _ d _ _ _ => some d
  | .subRI _ d _ _ => some d
  | .mul _ d _ _ _ _ => some d
  | .mulRL _ d _ _ _ _ => some d
  | .mulRK _ d _ _ _ => some d
  | .mulRI _ d _ _ => some d
  | .mulh _ d _ _ _ _ => some d
  | .mulhRL _ d _ _ _ _ => some d
  | .mulhRK _ d _ _ _ => some d
  | .mulhRI _ d _ _ => some d
  | .mulhu _ d _ _ _ _ => some d
  | .mulhuRL _ d _ _ _ _ => some d
  | .mulhuRK _ d _ _ _ => some d
  | .mulhuRI _ d _ _ => some d
  | .div _ d _ _ _ _ => some d
  | .divRL _ d _ _ _ _ => some d
  | .divRK _ d _ _ _ => some d
  | .divRI _ d _ _ => some d
  | .divu _ d _ _ _ _ => some d
  | .divuRL _ d _ _ _ _ => some d
  | .divuRK _ d _ _ _ => some d
  | .divuRI _ d _ _ => some d
  | .rem _ d _ _ _ _ => some d
  | .remRL _ d _ _ _ _ => some d
  | .remRK _ d _ _ _ => some d
  | .remRI _ d _ _ => some d
  | .remu _ d _ _ _ _ => some d
  | .remuRL _ d _ _ _ _ => some d
  | .remuRK _ d _ _ _ => some d
  | .remuRI _ d _ _ => some d
  | .and _ d _ _ _ _ => some d
  | .andRL _ d _ _ _ _ => some d
  | .andRK _ d _ _ _ => some d
  | .andRI _ d _ _ => some d
  | .or _ d _ _ _ _ => some d
  | .orRL _ d _ _ _ _ => some d
  | .orRK _ d _ _ _ => some d
  | .orRI _ d _ _ => some d
  | .xor _ d _ _ _ _ => some d
  | .xorRL _ d _ _ _ _ => some d
  | .xorRK _ d _ _ _ => some d
  | .xorRI _ d _ _ => some d
  | .andn _ d _ _ _ _ => some d
  | .andnRL _ d _ _ _ _ => some d
  | .andnRK _ d _ _ _ => some d
  | .andnRI _ d _ _ => some d
  | .orn _ d _ _ _ _ => some d
  | .ornRL _ d _ _ _ _ => some d
  | .ornRK _ d _ _ _ => some d
  | .ornRI _ d _ _ => some d
  | .shl _ d _ _ _ _ => some d
  | .shlRL _ d _ _ _ _ => some d
  | .shlRK _ d _ _ _ => some d
  | .shlRI _ d _ _ => some d
  | .shr _ d _ _ _ _ => some d
  | .shrRL _ d _ _ _ _ => some d
  | .shrRK _ d _ _ _ => some d
  | .shrRI _ d _ _ => some d
  | .sar _ d _ _ _ _ => some d
  | .sarRL _ d _ _ _ _ => some d
  | .sarRK _ d _ _ _ => some d
  | .sarRI _ d _ _ => some d
  | .rol _ d _ _ _ _ => some d
  | .rolRL _ d _ _ _ _ => some d
  | .rolRK _ d _ _ _ => some d
  | .rolRI _ d _ _ => some d
  | .ror _ d _ _ _ _ => some d
  | .rorRL _ d _ _ _ _ => some d
  | .rorRK _ d _ _ _ => some d
  | .rorRI _ d _ _ => some d
  | .min _ d _ _ _ _ => some d
  | .minRL _ d _ _ _ _ => some d
  | .minRK _ d _ _ _ => some d
  | .minRI _ d _ _ => some d
  | .max _ d _ _ _ _ => some d
  | .maxRL _ d _ _ _ _ => some d
  | .maxRK _ d _ _ _ => some d
  | .maxRI _ d _ _ => some d
  | .minu _ d _ _ _ _ => some d
  | .minuRL _ d _ _ _ _ => some d
  | .minuRK _ d _ _ _ => some d
  | .minuRI _ d _ _ => some d
  | .maxu _ d _ _ _ _ => some d
  | .maxuRL _ d _ _ _ _ => some d
  | .maxuRK _ d _ _ _ => some d
  | .maxuRI _ d _ _ => some d
  | .abs _ d _ _ _ _ => some d
  | .clz _ d _ _ => some d
  | .ctz _ d _ _ => some d
  | .popc _ d _ _ => some d
  | .bswap _ d _ _ _ => some d
  | .brev _ d _ _ _ => some d
  | .sext _ d _ _ => some d
  | .zext _ d _ _ => some d
  | .ext _ d _ _ => some d
  | .extRL _ d _ _ => some d
  | .extRK _ d _ _ => some d
  | .extRI _ d _ _ => some d
  | .ins _ d _ _ => some d
  | .insRL _ d _ _ => some d
  | .insRK _ d _ _ => some d
  | .insRI _ d _ _ => some d
  | .sel _ d _ _ _ _ => some d
  | .selRL _ d _ _ _ _ => some d
  | .mov _ d _ _ => some d
  | .movRL _ d _ _ => some d
  | .movRK _ d _ _ => some d
  | .movRI _ d _ => some d
  | .movi _ d _ => some d
  | .movh _ d _ => some d
  | .rdp _ d => some d
  | .vadd _ d _ _ _ _ _ => some d
  | .vaddRL _ d _ _ _ _ _ => some d
  | .vaddRK _ d _ _ _ => some d
  | .vsub _ d _ _ _ _ _ => some d
  | .vsubRL _ d _ _ _ _ _ => some d
  | .vsubRK _ d _ _ _ => some d
  | .vmul _ d _ _ _ _ _ => some d
  | .vmulRL _ d _ _ _ _ _ => some d
  | .vmulRK _ d _ _ _ => some d
  | .vmin _ d _ _ _ _ => some d
  | .vminRL _ d _ _ _ _ => some d
  | .vminRK _ d _ _ _ => some d
  | .vmax _ d _ _ _ _ => some d
  | .vmaxRL _ d _ _ _ _ => some d
  | .vmaxRK _ d _ _ _ => some d
  | .vavg _ d _ _ _ _ => some d
  | .vavgRL _ d _ _ _ _ => some d
  | .vavgRK _ d _ _ _ => some d
  | .vabsd _ d _ _ _ _ => some d
  | .vabsdRL _ d _ _ _ _ => some d
  | .vabsdRK _ d _ _ _ => some d
  | .vdot _ d _ _ _ _ _ => some d
  | .vdotRL _ d _ _ _ _ _ => some d
  | .vdotRK _ d _ _ _ _ => some d
  | .vsum _ d _ _ _ => some d
  | .vsplat _ d _ _ => some d
  | .vshf _ d _ _ _ => some d
  | .vshfRL _ d _ _ _ => some d
  | .vpack _ d _ _ _ _ _ => some d
  | .vpackRL _ d _ _ _ _ _ => some d
  | .vcmp _ d _ _ _ _ _ => some d
  | .vcmpRL _ d _ _ _ _ _ => some d
  | .vcmpRK _ d _ _ _ => some d
  | .vsel _ d _ _ _ => some d
  | .vselRL _ d _ _ _ => some d
  | .vselRK _ d _ _ _ => some d
  | .rand _ d _ _ _ => some d
  | .randRL _ d _ _ _ => some d
  | .randRK _ d _ _ _ => some d
  | .randRI _ d _ _ => some d
  | .randf _ d _ _ _ => some d
  | .randfRL _ d _ _ _ => some d
  | .randfRK _ d _ _ _ => some d
  | .randfRI _ d _ _ => some d
  | .fadd _ d _ _ _ _ => some d
  | .faddRL _ d _ _ _ _ => some d
  | .faddRK _ d _ _ _ => some d
  | .fsub _ d _ _ _ _ => some d
  | .fsubRL _ d _ _ _ _ => some d
  | .fsubRK _ d _ _ _ => some d
  | .fmul _ d _ _ _ _ => some d
  | .fmulRL _ d _ _ _ _ => some d
  | .fmulRK _ d _ _ _ => some d
  | .fdiv _ d _ _ _ _ => some d
  | .fdivRL _ d _ _ _ _ => some d
  | .fdivRK _ d _ _ _ => some d
  | .fma _ d _ _ _ _ _ => some d
  | .fmaRL _ d _ _ _ _ _ => some d
  | .fmaRK _ d _ _ _ _ => some d
  | .fsqrt _ d _ _ _ => some d
  | .fmin _ d _ _ _ => some d
  | .fminRL _ d _ _ _ => some d
  | .fminRK _ d _ _ _ => some d
  | .fmax _ d _ _ _ => some d
  | .fmaxRL _ d _ _ _ => some d
  | .fmaxRK _ d _ _ _ => some d
  | .fabs _ d _ _ => some d
  | .fneg _ d _ _ => some d
  | .fclass _ d _ _ => some d
  | .fcvt _ d _ _ _ => some d
  | .fcvtRL _ d _ _ _ => some d
  | .fcvtRK _ d _ _ _ => some d
  | .fround _ d _ _ _ => some d
  | .vfma _ d _ _ _ _ _ => some d
  | .vfmaRL _ d _ _ _ _ _ => some d
  | .vfmaRK _ d _ _ _ _ => some d
  | .xcvt _ d _ => some d
  | .fmai d _ _ => some d
  | _ => none

/-- The predicate that a register-only instruction writes. -/
def Instr.destPred : Instr → Option PReg
  | .cmp _ p _ _ _ _ _ => some p
  | .cmpRL _ p _ _ _ _ _ => some p
  | .cmpRK _ p _ _ _ => some p
  | .cmpRI _ p _ _ => some p
  | .tst _ p _ _ _ _ => some p
  | .tstRL _ p _ _ _ _ => some p
  | .tstRK _ p _ _ _ _ => some p
  | .tstRI _ p _ _ => some p
  | .pset _ p _ _ _ => some p
  | .fcmp _ p _ _ _ _ => some p
  | .fcmpRL _ p _ _ _ _ => some p
  | .fcmpRK _ p _ _ _ => some p
  | _ => none

/-- The guard field of an instruction; `fmai` and the steps of the device have none (R146, R147). -/
def Instr.guard : Instr → Option Guard
  | .add g _ _ _ _ _ _ => some g
  | .addRL g _ _ _ _ _ _ => some g
  | .addRK g _ _ _ _ => some g
  | .addRI g _ _ _ => some g
  | .sub g _ _ _ _ _ _ => some g
  | .subRL g _ _ _ _ _ _ => some g
  | .subRK g _ _ _ _ => some g
  | .subRI g _ _ _ => some g
  | .mul g _ _ _ _ _ => some g
  | .mulRL g _ _ _ _ _ => some g
  | .mulRK g _ _ _ _ => some g
  | .mulRI g _ _ _ => some g
  | .mulh g _ _ _ _ _ => some g
  | .mulhRL g _ _ _ _ _ => some g
  | .mulhRK g _ _ _ _ => some g
  | .mulhRI g _ _ _ => some g
  | .mulhu g _ _ _ _ _ => some g
  | .mulhuRL g _ _ _ _ _ => some g
  | .mulhuRK g _ _ _ _ => some g
  | .mulhuRI g _ _ _ => some g
  | .div g _ _ _ _ _ => some g
  | .divRL g _ _ _ _ _ => some g
  | .divRK g _ _ _ _ => some g
  | .divRI g _ _ _ => some g
  | .divu g _ _ _ _ _ => some g
  | .divuRL g _ _ _ _ _ => some g
  | .divuRK g _ _ _ _ => some g
  | .divuRI g _ _ _ => some g
  | .rem g _ _ _ _ _ => some g
  | .remRL g _ _ _ _ _ => some g
  | .remRK g _ _ _ _ => some g
  | .remRI g _ _ _ => some g
  | .remu g _ _ _ _ _ => some g
  | .remuRL g _ _ _ _ _ => some g
  | .remuRK g _ _ _ _ => some g
  | .remuRI g _ _ _ => some g
  | .and g _ _ _ _ _ => some g
  | .andRL g _ _ _ _ _ => some g
  | .andRK g _ _ _ _ => some g
  | .andRI g _ _ _ => some g
  | .or g _ _ _ _ _ => some g
  | .orRL g _ _ _ _ _ => some g
  | .orRK g _ _ _ _ => some g
  | .orRI g _ _ _ => some g
  | .xor g _ _ _ _ _ => some g
  | .xorRL g _ _ _ _ _ => some g
  | .xorRK g _ _ _ _ => some g
  | .xorRI g _ _ _ => some g
  | .andn g _ _ _ _ _ => some g
  | .andnRL g _ _ _ _ _ => some g
  | .andnRK g _ _ _ _ => some g
  | .andnRI g _ _ _ => some g
  | .orn g _ _ _ _ _ => some g
  | .ornRL g _ _ _ _ _ => some g
  | .ornRK g _ _ _ _ => some g
  | .ornRI g _ _ _ => some g
  | .shl g _ _ _ _ _ => some g
  | .shlRL g _ _ _ _ _ => some g
  | .shlRK g _ _ _ _ => some g
  | .shlRI g _ _ _ => some g
  | .shr g _ _ _ _ _ => some g
  | .shrRL g _ _ _ _ _ => some g
  | .shrRK g _ _ _ _ => some g
  | .shrRI g _ _ _ => some g
  | .sar g _ _ _ _ _ => some g
  | .sarRL g _ _ _ _ _ => some g
  | .sarRK g _ _ _ _ => some g
  | .sarRI g _ _ _ => some g
  | .rol g _ _ _ _ _ => some g
  | .rolRL g _ _ _ _ _ => some g
  | .rolRK g _ _ _ _ => some g
  | .rolRI g _ _ _ => some g
  | .ror g _ _ _ _ _ => some g
  | .rorRL g _ _ _ _ _ => some g
  | .rorRK g _ _ _ _ => some g
  | .rorRI g _ _ _ => some g
  | .min g _ _ _ _ _ => some g
  | .minRL g _ _ _ _ _ => some g
  | .minRK g _ _ _ _ => some g
  | .minRI g _ _ _ => some g
  | .max g _ _ _ _ _ => some g
  | .maxRL g _ _ _ _ _ => some g
  | .maxRK g _ _ _ _ => some g
  | .maxRI g _ _ _ => some g
  | .minu g _ _ _ _ _ => some g
  | .minuRL g _ _ _ _ _ => some g
  | .minuRK g _ _ _ _ => some g
  | .minuRI g _ _ _ => some g
  | .maxu g _ _ _ _ _ => some g
  | .maxuRL g _ _ _ _ _ => some g
  | .maxuRK g _ _ _ _ => some g
  | .maxuRI g _ _ _ => some g
  | .abs g _ _ _ _ _ => some g
  | .clz g _ _ _ => some g
  | .ctz g _ _ _ => some g
  | .popc g _ _ _ => some g
  | .bswap g _ _ _ _ => some g
  | .brev g _ _ _ _ => some g
  | .sext g _ _ _ => some g
  | .zext g _ _ _ => some g
  | .ext g _ _ _ => some g
  | .extRL g _ _ _ => some g
  | .extRK g _ _ _ => some g
  | .extRI g _ _ _ => some g
  | .ins g _ _ _ => some g
  | .insRL g _ _ _ => some g
  | .insRK g _ _ _ => some g
  | .insRI g _ _ _ => some g
  | .cmp g _ _ _ _ _ _ => some g
  | .cmpRL g _ _ _ _ _ _ => some g
  | .cmpRK g _ _ _ _ => some g
  | .cmpRI g _ _ _ => some g
  | .tst g _ _ _ _ _ => some g
  | .tstRL g _ _ _ _ _ => some g
  | .tstRK g _ _ _ _ _ => some g
  | .tstRI g _ _ _ => some g
  | .sel g _ _ _ _ _ => some g
  | .selRL g _ _ _ _ _ => some g
  | .mov g _ _ _ => some g
  | .movRL g _ _ _ => some g
  | .movRK g _ _ _ => some g
  | .movRI g _ _ => some g
  | .movi g _ _ => some g
  | .movh g _ _ => some g
  | .pset g _ _ _ _ => some g
  | .rdp g _ => some g
  | .wrp g _ _ => some g
  | .wrpRL g _ _ => some g
  | .vadd g _ _ _ _ _ _ => some g
  | .vaddRL g _ _ _ _ _ _ => some g
  | .vaddRK g _ _ _ _ => some g
  | .vsub g _ _ _ _ _ _ => some g
  | .vsubRL g _ _ _ _ _ _ => some g
  | .vsubRK g _ _ _ _ => some g
  | .vmul g _ _ _ _ _ _ => some g
  | .vmulRL g _ _ _ _ _ _ => some g
  | .vmulRK g _ _ _ _ => some g
  | .vmin g _ _ _ _ _ => some g
  | .vminRL g _ _ _ _ _ => some g
  | .vminRK g _ _ _ _ => some g
  | .vmax g _ _ _ _ _ => some g
  | .vmaxRL g _ _ _ _ _ => some g
  | .vmaxRK g _ _ _ _ => some g
  | .vavg g _ _ _ _ _ => some g
  | .vavgRL g _ _ _ _ _ => some g
  | .vavgRK g _ _ _ _ => some g
  | .vabsd g _ _ _ _ _ => some g
  | .vabsdRL g _ _ _ _ _ => some g
  | .vabsdRK g _ _ _ _ => some g
  | .vdot g _ _ _ _ _ _ => some g
  | .vdotRL g _ _ _ _ _ _ => some g
  | .vdotRK g _ _ _ _ _ => some g
  | .vsum g _ _ _ _ => some g
  | .vsplat g _ _ _ => some g
  | .vshf g _ _ _ _ => some g
  | .vshfRL g _ _ _ _ => some g
  | .vpack g _ _ _ _ _ _ => some g
  | .vpackRL g _ _ _ _ _ _ => some g
  | .vcmp g _ _ _ _ _ _ => some g
  | .vcmpRL g _ _ _ _ _ _ => some g
  | .vcmpRK g _ _ _ _ => some g
  | .vsel g _ _ _ _ => some g
  | .vselRL g _ _ _ _ => some g
  | .vselRK g _ _ _ _ => some g
  | .rand g _ _ _ _ => some g
  | .randRL g _ _ _ _ => some g
  | .randRK g _ _ _ _ => some g
  | .randRI g _ _ _ => some g
  | .randf g _ _ _ _ => some g
  | .randfRL g _ _ _ _ => some g
  | .randfRK g _ _ _ _ => some g
  | .randfRI g _ _ _ => some g
  | .fadd g _ _ _ _ _ => some g
  | .faddRL g _ _ _ _ _ => some g
  | .faddRK g _ _ _ _ => some g
  | .fsub g _ _ _ _ _ => some g
  | .fsubRL g _ _ _ _ _ => some g
  | .fsubRK g _ _ _ _ => some g
  | .fmul g _ _ _ _ _ => some g
  | .fmulRL g _ _ _ _ _ => some g
  | .fmulRK g _ _ _ _ => some g
  | .fdiv g _ _ _ _ _ => some g
  | .fdivRL g _ _ _ _ _ => some g
  | .fdivRK g _ _ _ _ => some g
  | .fma g _ _ _ _ _ _ => some g
  | .fmaRL g _ _ _ _ _ _ => some g
  | .fmaRK g _ _ _ _ _ => some g
  | .fsqrt g _ _ _ _ => some g
  | .fmin g _ _ _ _ => some g
  | .fminRL g _ _ _ _ => some g
  | .fminRK g _ _ _ _ => some g
  | .fmax g _ _ _ _ => some g
  | .fmaxRL g _ _ _ _ => some g
  | .fmaxRK g _ _ _ _ => some g
  | .fabs g _ _ _ => some g
  | .fneg g _ _ _ => some g
  | .fcmp g _ _ _ _ _ => some g
  | .fcmpRL g _ _ _ _ _ => some g
  | .fcmpRK g _ _ _ _ => some g
  | .fclass g _ _ _ => some g
  | .fcvt g _ _ _ _ => some g
  | .fcvtRL g _ _ _ _ => some g
  | .fcvtRK g _ _ _ _ => some g
  | .fround g _ _ _ _ => some g
  | .vfma g _ _ _ _ _ _ => some g
  | .vfmaRL g _ _ _ _ _ _ => some g
  | .vfmaRK g _ _ _ _ _ => some g
  | .xcvt g _ _ => some g
  | .tdesc g _ _ _ _ => some g
  | .tdescRL g _ _ _ _ => some g
  | .tdescRK g _ _ _ _ => some g
  | .tdescRI g _ _ _ => some g
  | .tfree g _ => some g
  | .tinfo g _ _ _ => some g
  | .tinfoRI g _ _ _ => some g
  | .tadd g _ _ _ _ _ _ => some g
  | .tsub g _ _ _ _ _ _ => some g
  | .tmul g _ _ _ _ _ _ => some g
  | .tmax g _ _ _ _ _ _ => some g
  | .tmin g _ _ _ _ _ _ => some g
  | .tfma g _ _ _ _ _ _ => some g
  | .tscale g _ _ _ _ _ _ => some g
  | .tscaleRL g _ _ _ _ _ _ => some g
  | .tscaleRK g _ _ _ _ _ _ => some g
  | .tcvt g _ _ _ _ _ => some g
  | .tredmax g _ _ _ _ _ => some g
  | .tredsum g _ _ _ _ => some g
  | .ttrans g _ _ _ _ => some g
  | .tfill g _ _ _ _ _ => some g
  | .tfillRL g _ _ _ _ _ => some g
  | .tfillRK g _ _ _ _ => some g
  | .tget g _ _ _ => some g
  | .tgetRL g _ _ _ => some g
  | .tgetRK g _ _ _ => some g
  | .tgetRI g _ _ _ => some g
  | .tset g _ _ _ => some g
  | .tsetRL g _ _ _ => some g
  | .tsetRK g _ _ _ => some g
  | .tsetRI g _ _ _ => some g
  | .mxm g _ _ _ _ _ _ => some g
  | .mxmRL g _ _ _ _ _ _ => some g
  | .mxmRK g _ _ _ _ _ _ => some g
  | .mxmz g _ _ _ _ _ _ => some g
  | .mxmzRL g _ _ _ _ _ _ => some g
  | .mxmzRK g _ _ _ _ _ _ => some g
  | .mxflush g _ _ => some g
  | .mxnorm g _ _ _ => some g
  | .mxnormRL g _ _ _ => some g
  | .mxexp g _ _ _ => some g
  | .ld g _ _ _ _ _ _ _ => some g
  | .ldRL g _ _ _ _ _ _ _ => some g
  | .ldRK g _ _ _ _ => some g
  | .ldRI g _ _ _ => some g
  | .st g _ _ _ _ _ _ => some g
  | .stRL g _ _ _ _ _ _ => some g
  | .stRK g _ _ _ _ => some g
  | .stRI g _ _ _ => some g
  | .ld2 g _ _ _ _ _ => some g
  | .ld2RL g _ _ _ _ _ => some g
  | .ld2RK g _ _ _ => some g
  | .ld2RI g _ _ _ => some g
  | .st2 g _ _ _ _ _ => some g
  | .st2RL g _ _ _ _ _ => some g
  | .st2RK g _ _ _ => some g
  | .st2RI g _ _ _ => some g
  | .ldq g _ _ _ _ _ _ => some g
  | .ldqRL g _ _ _ _ _ _ => some g
  | .ldb g _ _ _ _ _ _ _ => some g
  | .ldbRL g _ _ _ _ _ _ _ => some g
  | .ldbRK g _ _ _ _ _ => some g
  | .ldfe g _ _ _ _ _ => some g
  | .ldfeRL g _ _ _ _ _ => some g
  | .ldfeRK g _ _ _ _ => some g
  | .ldfeRI g _ _ _ => some g
  | .stfe g _ _ _ _ => some g
  | .stfeRL g _ _ _ _ => some g
  | .stfeRK g _ _ _ _ => some g
  | .stfeRI g _ _ _ => some g
  | .feset g _ _ _ _ => some g
  | .fesetRL g _ _ _ _ => some g
  | .fesetRK g _ _ _ => some g
  | .fesetRI g _ _ => some g
  | .pref g _ _ _ => some g
  | .prefRL g _ _ _ => some g
  | .prefRK g _ _ _ => some g
  | .prefRI g _ _ => some g
  | .cwb g _ _ => some g
  | .cwbRL g _ _ => some g
  | .cwbRK g _ _ => some g
  | .cwbRI g _ _ => some g
  | .cinv g _ _ => some g
  | .cinvRL g _ _ => some g
  | .cinvRK g _ _ => some g
  | .cinvRI g _ _ => some g
  | .aadd g _ _ _ _ _ => some g
  | .aaddRL g _ _ _ _ _ => some g
  | .aand g _ _ _ _ _ => some g
  | .aandRL g _ _ _ _ _ => some g
  | .aor g _ _ _ _ _ => some g
  | .aorRL g _ _ _ _ _ => some g
  | .axor g _ _ _ _ _ => some g
  | .axorRL g _ _ _ _ _ => some g
  | .amin g _ _ _ _ _ => some g
  | .aminRL g _ _ _ _ _ => some g
  | .amax g _ _ _ _ _ => some g
  | .amaxRL g _ _ _ _ _ => some g
  | .aminu g _ _ _ _ _ => some g
  | .aminuRL g _ _ _ _ _ => some g
  | .amaxu g _ _ _ _ _ => some g
  | .amaxuRL g _ _ _ _ _ => some g
  | .aswp g _ _ _ _ _ => some g
  | .aswpRL g _ _ _ _ _ => some g
  | .acas g _ _ _ _ _ _ => some g
  | .acasRL g _ _ _ _ _ _ => some g
  | .afadd g _ _ _ _ _ => some g
  | .afaddRL g _ _ _ _ _ => some g
  | .axadd g _ _ _ _ _ => some g
  | .axaddRL g _ _ _ _ _ => some g
  | .fence g _ => some g
  | .bara g _ _ _ => some g
  | .baraRL g _ _ _ => some g
  | .barc g _ _ _ => some g
  | .barcRL g _ _ _ => some g
  | .swait g _ _ _ => some g
  | .swaitRL g _ _ _ => some g
  | .swaitRK g _ _ _ => some g
  | .swaitRI g _ _ _ => some g
  | .sarm g _ _ _ _ _ _ _ => some g
  | .sarmRL g _ _ _ _ _ _ _ => some g
  | .cpy g _ _ _ _ _ => some g
  | .cpyRL g _ _ _ _ _ => some g
  | .cpy2 g _ _ _ _ _ => some g
  | .cpy2RL g _ _ _ _ _ => some g
  | .cpyg g _ _ _ _ _ => some g
  | .tload g _ _ _ _ _ _ => some g
  | .tloadRL g _ _ _ _ _ _ => some g
  | .tstore g _ _ _ _ _ => some g
  | .tstoreRL g _ _ _ _ _ => some g
  | .jpoll g _ _ _ => some g
  | .jwait g _ _ => some g
  | .jcancel g _ _ => some g
  | .b g _ => some g
  | .call g _ => some g
  | .dbnz g _ _ => some g
  | .jmp g _ => some g
  | .jmpRL g _ => some g
  | .callr g _ => some g
  | .callrRL g _ => some g
  | .ret g _ => some g
  | .spawn g _ _ _ _ _ _ => some g
  | .spawnRL g _ _ _ _ _ _ => some g
  | .launch g _ _ _ _ => some g
  | .launchRL g _ _ _ _ => some g
  | .qpush g _ _ _ _ => some g
  | .qpushRL g _ _ _ _ => some g
  | .qpop g _ _ _ => some g
  | .done g => some g
  | .waitc g => some g
  | .yield g => some g
  | .halt g _ _ => some g
  | .sleep g _ => some g
  | .sleepRL g _ => some g
  | .prio g _ _ => some g
  | .prioRL g _ _ => some g
  | .rsr g _ _ => some g
  | .wsr g _ _ => some g
  | .wsrRL g _ _ => some g
  | .trap g _ => some g
  | .trapRL g _ => some g
  | .wake g _ => some g
  | .kill g _ _ => some g
  | .resume g _ _ => some g
  | .slotw g _ _ => some g
  | .slotwRL g _ _ => some g
  | .plbi g _ _ => some g
  | .plbiRL g _ _ => some g
  | .tlbi g _ => some g
  | .tlbiRL g _ => some g
  | .pmig g _ _ _ _ => some g
  | .pmigRL g _ _ _ _ => some g
  | .ovl g _ _ => some g
  | .ovlq g _ _ => some g
  | .ovlqRL g _ _ => some g
  | _ => none

/-- The constant index of an RK form (R148). -/
def Instr.constIndex : Instr → Option (BitVec 8)
  | .addRK _ _ _ _ k => some k
  | .subRK _ _ _ _ k => some k
  | .mulRK _ _ _ _ k => some k
  | .mulhRK _ _ _ _ k => some k
  | .mulhuRK _ _ _ _ k => some k
  | .divRK _ _ _ _ k => some k
  | .divuRK _ _ _ _ k => some k
  | .remRK _ _ _ _ k => some k
  | .remuRK _ _ _ _ k => some k
  | .andRK _ _ _ _ k => some k
  | .orRK _ _ _ _ k => some k
  | .xorRK _ _ _ _ k => some k
  | .andnRK _ _ _ _ k => some k
  | .ornRK _ _ _ _ k => some k
  | .shlRK _ _ _ _ k => some k
  | .shrRK _ _ _ _ k => some k
  | .sarRK _ _ _ _ k => some k
  | .rolRK _ _ _ _ k => some k
  | .rorRK _ _ _ _ k => some k
  | .minRK _ _ _ _ k => some k
  | .maxRK _ _ _ _ k => some k
  | .minuRK _ _ _ _ k => some k
  | .maxuRK _ _ _ _ k => some k
  | .extRK _ _ _ k => some k
  | .insRK _ _ _ k => some k
  | .cmpRK _ _ _ _ k => some k
  | .tstRK _ _ _ _ _ k => some k
  | .movRK _ _ _ k => some k
  | .vaddRK _ _ _ _ k => some k
  | .vsubRK _ _ _ _ k => some k
  | .vmulRK _ _ _ _ k => some k
  | .vminRK _ _ _ _ k => some k
  | .vmaxRK _ _ _ _ k => some k
  | .vavgRK _ _ _ _ k => some k
  | .vabsdRK _ _ _ _ k => some k
  | .vdotRK _ _ _ _ _ k => some k
  | .vcmpRK _ _ _ _ k => some k
  | .vselRK _ _ _ _ k => some k
  | .randRK _ _ _ _ k => some k
  | .randfRK _ _ _ _ k => some k
  | .faddRK _ _ _ _ k => some k
  | .fsubRK _ _ _ _ k => some k
  | .fmulRK _ _ _ _ k => some k
  | .fdivRK _ _ _ _ k => some k
  | .fmaRK _ _ _ _ _ k => some k
  | .fminRK _ _ _ _ k => some k
  | .fmaxRK _ _ _ _ k => some k
  | .fcmpRK _ _ _ _ k => some k
  | .fcvtRK _ _ _ _ k => some k
  | .vfmaRK _ _ _ _ _ k => some k
  | .tdescRK _ _ _ _ k => some k
  | .tscaleRK _ _ _ _ _ _ k => some k
  | .tfillRK _ _ _ _ k => some k
  | .tgetRK _ _ _ k => some k
  | .tsetRK _ _ _ k => some k
  | .mxmRK _ _ _ _ _ _ k => some k
  | .mxmzRK _ _ _ _ _ _ k => some k
  | .ldRK _ _ _ _ k => some k
  | .stRK _ _ _ _ k => some k
  | .ld2RK _ _ _ k => some k
  | .st2RK _ _ _ k => some k
  | .ldbRK _ _ _ _ _ k => some k
  | .ldfeRK _ _ _ _ k => some k
  | .stfeRK _ _ _ _ k => some k
  | .fesetRK _ _ _ k => some k
  | .prefRK _ _ _ k => some k
  | .cwbRK _ _ k => some k
  | .cinvRK _ _ k => some k
  | .swaitRK _ _ _ k => some k
  | _ => none

/-- The conversion specification that stands in the word of an `fcvt` or in the constant bank (R217). -/
def Instr.specWord (i : Instr) (s : Machine.State) (b : Machine.Barrel) : Option (BitVec 32) :=
  match i with
  | .fcvtRL _ _ _ _ lit => some lit
  | .fcvtRK _ _ _ _ k => some (Machine.constWord s b k)
  | _ => none

end Sys2Proof

namespace Sys2Proof.Machine
/-! ## Lanes -/

/-- Lane i of a register, as a number (R199). -/
def laneNat (n : Lane) (x : Word64) (i : Nat) : Nat := x.toNat / 2 ^ (laneBits n * i) % 2 ^ laneBits n

/-- Lane i of a register, read as unsigned by `.z` and else as signed (R200). -/
def laneInt (z : Bool) (n : Lane) (x : Word64) (i : Nat) : Int :=
  let v := laneNat n x i
  if z = true ∨ v < 2 ^ (laneBits n - 1) then (v : Int) else (v : Int) - 2 ^ laneBits n

/-! ## Floating-point tails -/

/-- A literal or constant tail in a format (R209): under f64 a binary32 value converted exactly. -/
def floatTail (f : FFmt) (v : BitVec 32) : XVal :=
  if f = .f64 then decodeFloat Fmt.f64.params (roundF Fmt.f64.params (decodeFloat Fmt.f32.params v.toNat) .rne false 0).1
  else decodeFloat f.fmt.params v.toNat

/-! ## Branch targets (R145) -/

/-- Checks 2 to 6 of R145, in their order, on a target offset of an overlay: the state in which the branch stops, or none
when the target stands. -/
def branchStop (s : State) (b : Barrel) (overlay : Nat) (o : Int) : Option State :=
  let fault (code : FaultCode) : State :=
    s.takeFault b b.held.line code .none (BitVec.ofNat 32 (overlay * 2 ^ 16 + (o % 65536).toNat)) 0
  if o % 4 ≠ 0 then some (fault .misaligned)
  else
    match execSlot (s.core b.core) b.held.line.domain overlay with
    | none => some ((s.requestOverlay b overlay true).park b 7 overlay)
    | some x =>
      if o < 0 ∨ (x.length : Int) ≤ o then some (fault .bounds)
      else if o % 64 = 0 then some (fault .branchToHeader)
      else if bit (lineHeader s (slotBase b.core x) o.toNat) (o.toNat % 64 / 4) then some (fault .branchToLiteral)
      else none

/-- The PC of an offset of an overlay. -/
def pcAt (overlay : Nat) (o : Int) : BitVec 32 := BitVec.ofNat 32 (overlay * 2 ^ 16 + (o % 65536).toNat)

/-- A branch out of a state has an outcome: `go` where its target stands, and its stop where it does not. -/
def BranchFrom (s : State) (b : Barrel) (overlay : Nat) (o : Int) (out go : Host.Outcome State Fault Refusal) : Prop :=
  (branchStop s b overlay o = none → out = go) ∧ ∀ t, branchStop s b overlay o = some t → out = .next t

/-- A branch goes on as `go` where its target stands, and stops where it does not. -/
def TakesBranch (s : State) (b : Barrel) (overlay : Nat) (o : Int) (i : Instr) (go : Host.Outcome State Fault Refusal) :
    Prop := BranchFrom s b overlay o (exec i s) go

/-- What the three calls do once their targets stand (R205). -/
def Calls (s : State) (b : Barrel) (g : Guard) (go : BitVec 32 → Host.Outcome State Fault Refusal) : Prop :=
  let l := b.held.line
  (∀ disp : BitVec 19,
    let o : Int := (l.pc.toNat % 2 ^ 16 : Nat) + 4 * disp.toInt
    TakesBranch s b (l.pc.toNat / 2 ^ 16) o (.call g disp) (go (pcAt (l.pc.toNat / 2 ^ 16) o))) ∧
  (∀ r, (l.reg r).toNat < 2 ^ 32 →
    TakesBranch s b ((l.reg r).toNat / 2 ^ 16) ((l.reg r).toNat % 2 ^ 16 : Nat) (.callr g r) (go ((l.reg r).setWidth 32))) ∧
  ∀ v, TakesBranch s b (v.toNat / 2 ^ 16) (v.toNat % 2 ^ 16 : Nat) (.callrRL g v) (go v)

/-! ## Access at the core (R257, R36, R261) -/

/-- The domain of the issuing context holds rights on an address, as the PLB of its core has them (R36, R39). -/
def Allowed (s : State) (b : Barrel) (va : Nat) (n : Rights) : Prop :=
  s.checkRights b.core b.held.va b.held.line.domain va n = .ok

/-- An access of n bytes under a SPACE reaches va: in range, aligned, and allowed (R257). -/
def Reaches (s : State) (b : Barrel) (y : Space) (ea n va : Nat) (r : Rights) : Prop :=
  spaceAddr b.core y ea = some va ∧ va % n = 0 ∧ Allowed s b va r

/-- The store buffer holds no entry of the context and no NACK of it is on its way (R260, R340). -/
def Drained (s : State) (b : Barrel) : Prop := s.buffered b.core b.held.va = false

/-- The steps of a fence have nothing to wait for at a scope: the buffer is drained and no slice group and no port is left to probe
(R263; the pending stores it has read are probed too, assumption 125). -/
def Settled (s : State) (b : Barrel) (sc : Scope) : Prop := Drained s b ∧ fenceProbes b sc = []

/-- A release at a scope has nothing to wait for, and no posted store has failed (R130, R262, R263). -/
def Released (s : State) (b : Barrel) (sc : Scope) : Prop := Settled s b sc ∧ b.held.line.deferredPc = 0

/-- The probes of a fence are done: it has none, or those that the thread has parked for have echoed (R263). -/
def Probed (b : Barrel) (sc : Scope) : Prop :=
  fenceProbes b sc = [] ∨ ∃ f, b.held.fenced = some f ∧ scopeRank sc ≤ scopeRank f

/-- The context after step 4 of a fence: TOUCHED and the pending stores that it has read are cleared at device and system scope, and the
ports at system scope (R263; the pending stores as assumption 125 says). -/
def Barrel.cleared (b : Barrel) (sc : Scope) : Barrel :=
  { b with held := { b.held with
      line := if sc = .dev ∨ sc = .sys then b.held.line.setTouched 0 else b.held.line,
      ports := if sc = .sys then [] else b.held.ports,
      observed := if sc = .dev ∨ sc = .sys then [] else b.held.observed } }

/-- The store buffer of the core has a free entry (R260). -/
def HasRoom (s : State) (b : Barrel) : Prop := (s.core b.core).storeBuf.length < 32

/-- The store buffer of a core with one entry more. -/
def State.buffer (s : State) (b : Barrel) (e : SbEntry) : State :=
  s.setCore b.core { s.core b.core with storeBuf := (s.core b.core).storeBuf ++ [e] }

/-- The register and literal forms of an instruction whose tail is sign-extended, with what each is claimed to do. -/
def SignedForms (b : Barrel) (P : Word64 → Instr → Prop) (rr : Reg → Instr) (rl : BitVec 32 → Instr) : Prop :=
  (∀ r, P (b.held.line.reg r) (rr r)) ∧ ∀ v, P (v.signExtend 64) (rl v)

/-- The register and literal forms of an instruction whose tail is zero-extended. -/
def UnsignedForms (b : Barrel) (P : Word64 → Instr → Prop) (rr : Reg → Instr) (rl : BitVec 32 → Instr) : Prop :=
  (∀ r, P (b.held.line.reg r) (rr r)) ∧ ∀ v, P (v.setWidth 64) (rl v)

/-- The constant form of an instruction whose tail is sign-extended. -/
def ConstForm (s : State) (b : Barrel) (P : Word64 → Instr → Prop) (rk : BitVec 8 → Instr) : Prop :=
  ∀ k, InBank s b k → P ((constWord s b k).signExtend 64) (rk k)

/-- The immediate form. -/
def ImmForm (P : Word64 → Instr → Prop) (ri : BitVec 13 → Instr) : Prop := ∀ v, P (v.signExtend 64) (ri v)

/-- A word that the core reaches inside the barrel: its own CLM, or a data word of its own cluster's TSP (R89, R98). -/
def Near (b : Barrel) (va : Nat) : Prop :=
  (∃ off, targetOf va = .clm b.core off) ∨ ∃ off, targetOf va = .tsp (clusterOfCore b.core) off ∧ off < descTable

/-- An address that takes data of every kind: the paged space, a CLM, or the data part of a TSP (R259). -/
def Plain (va : Nat) : Prop :=
  targetOf va = .paged ∨ (∃ c off, targetOf va = .clm c off) ∨ ∃ c off, targetOf va = .tsp c off ∧ off < descTable

/-- The state in which a near word is accessed in this cycle: a bank of a TSP is granted, or another port has it (R99). -/
def State.granted (s : State) (b : Barrel) (va n : Nat) : Option State :=
  match targetOf va with
  | .tsp cl off => s.grantBank cl off n (portAt cl b.who) s.bankQ
  | .clm _ _ | .paged | .reg _ _ | .hole => some s

/-- The store buffer holds no byte of an access of the context (R261). -/
def Unbuffered (s : State) (b : Barrel) (va n : Nat) : Prop :=
  forwardFrom b.held.va va n (s.core b.core).storeBuf = .none

/-- A load of n bytes sees v at once in the state t: from the store buffer, or from a near word whose bank is granted and which
is not poisoned (R99, R261, R341). -/
def Sees (s : State) (b : Barrel) (y : Space) (ea n va v : Nat) (t : State) : Prop :=
  Reaches s b y ea n va rightsR ∧
    ((Unbuffered s b va n ∧ Near b va ∧ s.granted b va n = some t ∧ s.anyPoison va n = false ∧ v = memNat s.mem va n) ∨
      (Plain va ∧ t = s ∧ ∃ bs, forwardFrom b.held.va va n (s.core b.core).storeBuf = .bytes bs ∧ v = ofBytes bs))

/-- A word that the core reaches only through a request: another core's CLM, another cluster's TSP, a register block, or a word
of its own cluster's TSP whose bank another port has in this cycle (R98, R99). -/
def Far (s : State) (b : Barrel) (va n : Nat) : Prop :=
  (∃ c off, targetOf va = .clm c off ∧ c ≠ b.core) ∨
    (∃ cl off, targetOf va = .tsp cl off ∧ off < descTable ∧ (cl ≠ clusterOfCore b.core ∨ s.granted b va n = none)) ∨
    ∃ die off, targetOf va = .reg die off ∧ n < 16

/-- The state with one more access on its way to a bank or a register block, which is not posted. -/
def State.sendsBank (s : State) (b : Barrel) (va n : Nat) (op : AccessOp) (reply : ReplyTo) (acq : Bool) : State :=
  { s with bankQ := s.bankQ ++
      [{ who := b.who, addr := va, size := n, op := op, reply := reply, posted := false, acq := acq }] }

/-- The state with one more access on its way to its translation and its home, which is not posted. -/
def State.sendsHome (s : State) (b : Barrel) (va n : Nat) (op : AccessOp) (reply : ReplyTo) (acq : Bool) : State :=
  { s with reqs := s.reqs ++
      [{ who := b.who, va := va, size := n, op := op, reply := reply, phase := .xlat, posted := false, acq := acq,
         heldUntil := 0, via := none }] }

/-- A load with an ordering scope of a device or of the system acquires when its reply arrives (R262). -/
def acquires (o : Option Scope) : Bool := o == some .dev || o == some .sys

/-- The head of the store buffer is an entry of the context at va that a page or a migration freeze holds, with its CLASS
(R49, R52). -/
def HeadHeld (s : State) (b : Barrel) (cls va : Nat) : Prop :=
  (s.core b.core).sbPhase = .page cls ∧ ∃ e es, (s.core b.core).storeBuf = e :: es ∧ e.who.ctx = b.held.va ∧ e.va = va

/-- A thread waits until its store buffer changes: for the page of its head if that is held, else with KIND MEM until an entry
has left (R49, R52, R260). -/
def AwaitsBuffer (s : State) (b : Barrel) (out : Host.Outcome State Fault Refusal) : Prop :=
  (∀ cls va, HeadHeld s b cls va →
    out = .next ((if cls = 5 then s.pageTimer b.who else s).park b 8 (cls * 2 ^ 24 + va / 2 ^ 16 % 2 ^ 24))) ∧
  ((∀ cls va, ¬HeadHeld s b cls va) →
    let c := s.core b.core
    out = .next ((s.setCore b.core { c with sbWaiters := c.sbWaiters ++ [b.who] }).park b 1 8))

/-- What a load with an ordering scope adds: its acquire (R262, R294). -/
def State.acquired (s : State) (b : Barrel) (o : Option Scope) : State :=
  match o with
  | some sc => s.acquire b.core sc
  | none => s

/-- A word of the core's own CLM, outside its code partition (R89, R93). -/
def OwnWord (s : State) (b : Barrel) (va : Nat) : Prop :=
  ∃ off, targetOf va = .clm b.core off ∧ s.inCode b.core off = false

/-- The state after a thread has found its condition not met at a word: it waits with a KIND, enlisted in the wait table of the
word's cluster at the lowest free entry, or, with the table full, noted for a retry with NOENT set (R96, R119). -/
def State.waitsAt (s : State) (b : Barrel) (va : Nat) (c : WaitCond) (limit kind : Nat) : State :=
  let cl := clusterAt va
  let k := s.cluster cl
  let e : WaitEntry := { who := b.who, addr := va, cond := c, since := s.cycle, limit := limit }
  match freeIndex k.waits 256 0 with
  | some i => (s.setCluster cl { k with waits := Table.set k.waits i e }).park b kind (cl * 2 ^ 17 + i)
  | none => ({ s with noents := s.noents ++ [(b.who, kind, s.cycle)] } : State).park b kind (cl * 2 ^ 17 + 2 ^ 8)

/-- t is s after a store of the n low bytes of v at va, and every other byte reads as before (R5); a store in a TSP that meets
rows latched by the matrix engine also has their latch loaded anew for the next stack (R238), and nothing else changes. -/
def Stores (s : State) (va n v : Nat) (t : State) : Prop :=
  (∀ k, k < n → memByte t.mem (va + k) = BitVec.ofNat 8 (v / 2 ^ (8 * k))) ∧
  (∀ a, a < va ∨ va + n ≤ a → memByte t.mem a = memByte s.mem a) ∧ { t with mem := s.mem } = s.spoil va n

/-- A data word of the TSP of the issuing core's cluster (R98). -/
def OwnTsp (b : Barrel) (va off : Nat) : Prop := targetOf va = .tsp (clusterOfCore b.core) off ∧ off < descTable

/-- The 16 bytes of a barrier word by its fields (R275). -/
def barrierWord (count arrived op gen value : Nat) : Nat :=
  count + 2 ^ 16 * arrived + 2 ^ 32 * op + 2 ^ 36 * gen + 2 ^ 64 * value

/-- A job identifier that the issuing context may use: its queue lies in the partition, and a job that still holds the slot
is of the context's domain (R108). -/
def MayName (s : State) (b : Barrel) (j : Nat) : Prop :=
  j < 2 ^ 27 ∧ s.inPartition b.held.line.partition (jobCluster j) = true ∧
    ∀ x, s.jobOf j = some x → x.who.domain.toNat = b.held.line.domain

/-- Handles that lie in one cluster (R222). -/
def HandlesIn (l : Line) (cl : Nat) (hs : List (Nat × Reg)) : Prop :=
  hs ≠ [] ∧ ∀ h ∈ hs, (l.reg h.2).toNat < 2 ^ 32 ∧ handleCluster (l.reg h.2).toNat = cl

/-- The control right (R345): W rights on the register window of the brick. -/
def Controls (s : State) (b : Barrel) : Prop := Allowed s b (0x00FC000000000000 + b.core / 4096 * 2 ^ 32) rightsW

/-- A context VA that `wake`, `kill` and `resume` accept (R350). -/
def NamesContext (s : State) (b : Barrel) (va : Nat) : Prop :=
  va % 128 = 0 ∧ s.inPool va = true ∧ Allowed s b va rightsW

/-- The line as it stands while the thread waits for a reply (R119, R120). -/
def State.waits (s : State) (b : Barrel) (kind value : Nat) : State :=
  s.complete b ((b.held.line.setWait kind value).setState .wait)

/-! ## The steps of the device -/

/-- A context line stands in entry e of the context L1 of core c, and no message for it has to wait (R132). -/
def HeldAt (s : State) (va c e : Nat) (h : Held) : Prop := s.place va = .entry c e h ∧ s.mustHold va = false

/-- A message matches the wait of a line (R133). -/
def Answers (m : Msg) (l : Line) : Prop := l.gen = m.gen ∧ l.inState .wait = true ∧ l.waitKind = m.kind

/-- The line after its wait has ended in a context L1 (R133). -/
def awake (l : Line) : Line := (l.setWait 0 0).setState .resident

/-- A unit on a brick that takes requests: its brick is LIVE or the requester's own, and its cluster lies in the requester's
partition (R57, R368). -/
def Reachable (s : State) (w : Who) (cl : Nat) : Prop :=
  (s.dieLive (dieOfCluster cl) = true ∨ dieOfCluster cl = dieOfCore w.core) ∧ s.inPartition w.part.toNat cl = true

/-- The state in which the bank of request n performs it: a bank of a TSP is granted to its port, or another port has it (R99). -/
def State.bankTurn (s : State) (n : Nat) (r : BankReq) : Option State :=
  let t := { s with bankQ := listErase s.bankQ n }
  match targetOf r.addr with
  | .tsp _ off => t.grantBank (clusterAt r.addr) off r.size (portAt (clusterAt r.addr) r.who) (s.bankQ.take n)
  | .clm _ _ | .paged | .reg _ _ | .hole => some t

/-- A request stands at its home, on the device and outside the context pool, and its turn has come with nothing to be done
before it (R66, R114). -/
def AtHome (s : State) (n : Nat) (r : Req) (pa : Nat) (wr : Bool) (master : Nat) : Prop :=
  s.reqs[n]? = some r ∧ r.phase = .home pa wr master ∧ s.turn n r pa = .go s ∧ s.inPool r.va = false ∧ s.onDevice pa = true

/-- No brick and no host holds a sector in E or M, and no snoop of it is on its way (R67). -/
def Unowned (s : State) (pa : Nat) (me : Option Nat) : Prop :=
  s.otherBricks pa me (·.owns) = [] ∧ (s.dirSector pa).host ≠ .m ∧ s.hasSnoop pa = false

end Sys2Proof.Machine
end

