-- ==== Sys2Proof/Certificates/Slice0/Obligations.lean ====
section
/-!
DEFINITION. Certificates/Slice0/Obligations.lean: the statements for the provers. A statement under `Claims` is a part of the
obligation that names it.
-/
open Sys2Proof Sys2Proof.Machine

/-! ## Integer instructions (R184 to R198) -/

/-- R187, R188: the exact result of an addition or a subtraction by its carry mode, and the CARRY it writes, if any. -/
def Claims.AddSubResult : Prop :=
  ∀ (s : State) (b : Barrel) (g : Guard) (d a : Reg), Runs s b g →
    let l := b.held.line
    let x := l.reg a
    let put (m : CarryMode) (z : Bool) (w : Width) (r : Int) (c : Bool) : Host.Outcome State Fault Refusal :=
      let l' := l.setReg d (extend (widthBits w) z r)
      .next (s.complete b (if m = .co ∨ m = .cio then l'.setCarry c else l'))
    let cin (m : CarryMode) : Int := if m = .cio ∧ l.carry = true then 1 else 0
    let read (z : Bool) (w : Width) (v : Word64) : Int := if z then (uv (widthBits w) v : Int) else sv (widthBits w) v
    let lo (z : Bool) (w : Width) : Int := if z then 0 else -(2 ^ (widthBits w - 1))
    let hi (z : Bool) (w : Width) : Int := if z then 2 ^ widthBits w - 1 else 2 ^ (widthBits w - 1) - 1
    let add (m : CarryMode) (y : Word64) (z : Bool) (w : Width) :=
      if m = .sat then put m z w (min (max (read z w x + read z w y) (lo z w)) (hi z w)) false
      else
        let r := (uv (widthBits w) x : Int) + uv (widthBits w) y + cin m
        put m z w r (decide ((2 : Int) ^ widthBits w ≤ r))
    let sub (m : CarryMode) (y : Word64) (z : Bool) (w : Width) :=
      if m = .sat then put m z w (min (max (read z w x - read z w y) (lo z w)) (hi z w)) false
      else
        let r := (uv (widthBits w) x : Int) - uv (widthBits w) y - cin m
        put m z w r (decide (r < 0))
    (∀ m, (∀ r z w, exec (.add g d a r m z w) s = add m (l.reg r) z w) ∧
      (∀ z w v, exec (.addRL g d a m z w v) s = add m (widen z v) z w) ∧
      (∀ r z w, exec (.sub g d a r m z w) s = sub m (l.reg r) z w) ∧
      (∀ z w v, exec (.subRL g d a m z w v) s = sub m (widen z v) z w)) ∧
    (∀ w k, InBank s b k → exec (.addRK g d a w k) s = add .none (widen false (constWord s b k)) false w ∧
      exec (.subRK g d a w k) s = sub .none (widen false (constWord s b k)) false w) ∧
    (∀ v, exec (.addRI g d a v) s = add .none (v.signExtend 64) false .w64 ∧
      exec (.subRI g d a v) s = sub .none (v.signExtend 64) false .w64)

/-- R187, R189: products, high products, quotients that truncate toward zero and remainders with the sign of the dividend;
a divisor of 0 gives all ones and the dividend. -/
def Claims.MulDivResult : Prop :=
  ∀ (s : State) (b : Barrel) (g : Guard) (d a : Reg), Runs s b g →
    let x := b.held.line.reg a
    let put (r : Nat → Word64 → Int) (y : Word64) (z : Bool) (w : Width) :=
      s.withReg b d (extend (widthBits w) z (r (widthBits w) y))
    IntegerForms s b (put fun w y => uv w x * uv w y) (.mul g d a) (.mulRL g d a) (.mulRK g d a) (.mulRI g d a) ∧
    IntegerForms s b (put fun w y => (sv w x * sv w y).fdiv (2 ^ w)) (.mulh g d a) (.mulhRL g d a) (.mulhRK g d a)
      (.mulhRI g d a) ∧
    IntegerForms s b (put fun w y => ((uv w x : Int) * uv w y).fdiv (2 ^ w)) (.mulhu g d a) (.mulhuRL g d a)
      (.mulhuRK g d a) (.mulhuRI g d a) ∧
    IntegerForms s b (put fun w y => if sv w y = 0 then -1 else (sv w x).tdiv (sv w y)) (.div g d a) (.divRL g d a)
      (.divRK g d a) (.divRI g d a) ∧
    IntegerForms s b (put fun w y => if uv w y = 0 then 2 ^ w - 1 else (uv w x : Int).tdiv (uv w y)) (.divu g d a)
      (.divuRL g d a) (.divuRK g d a) (.divuRI g d a) ∧
    IntegerForms s b (put fun w y => if sv w y = 0 then (uv w x : Int) else (sv w x).tmod (sv w y)) (.rem g d a)
      (.remRL g d a) (.remRK g d a) (.remRI g d a) ∧
    IntegerForms s b (put fun w y => if uv w y = 0 then (uv w x : Int) else (uv w x : Int).tmod (uv w y)) (.remu g d a)
      (.remuRL g d a) (.remuRK g d a) (.remuRI g d a)

/-- Sums, differences, products, quotients and remainders, with their carries and saturation. -/
def Obligations.IntegerArithmetic : Prop := Claims.AddSubResult ∧ Claims.MulDivResult

/-- R187: the logical operations, bit by bit on the low W bits of the sources. -/
def Claims.LogicResult : Prop :=
  ∀ (s : State) (b : Barrel) (g : Guard) (d a : Reg), Runs s b g →
    let x := b.held.line.reg a
    let put (r : Word64 → Word64) (y : Word64) (z : Bool) (w : Width) :=
      s.withReg b d (extend (widthBits w) z (r y).toNat)
    IntegerForms s b (put fun y => x &&& y) (.and g d a) (.andRL g d a) (.andRK g d a) (.andRI g d a) ∧
    IntegerForms s b (put fun y => x ||| y) (.or g d a) (.orRL g d a) (.orRK g d a) (.orRI g d a) ∧
    IntegerForms s b (put fun y => x ^^^ y) (.xor g d a) (.xorRL g d a) (.xorRK g d a) (.xorRI g d a) ∧
    IntegerForms s b (put fun y => x &&& ~~~y) (.andn g d a) (.andnRL g d a) (.andnRK g d a) (.andnRI g d a) ∧
    IntegerForms s b (put fun y => x ||| ~~~y) (.orn g d a) (.ornRL g d a) (.ornRK g d a) (.ornRI g d a)

/-- R187: shifts and rotations by the whole tail modulo W; a rotation moves bit i of the low W bits to bit
(i + n) mod W (left) or (i − n) mod W (right). -/
def Claims.ShiftResult : Prop :=
  ∀ (s : State) (b : Barrel) (g : Guard) (d a : Reg), Runs s b g →
    let x := b.held.line.reg a
    let put (r : Nat → Nat → Int) (y : Word64) (z : Bool) (w : Width) :=
      s.withReg b d (extend (widthBits w) z (r (widthBits w) (y.toNat % widthBits w)))
    let rotated (sh : Nat → Nat → Nat → Nat) (i : Reg → Bool → Width → Instr) : Prop :=
      ∀ r z w, ∃ v : Nat,
        (∀ k < widthBits w, v.testBit (sh (widthBits w) k ((b.held.line.reg r).toNat % widthBits w)) = x.toNat.testBit k) ∧
        exec (i r z w) s = s.withReg b d (extend (widthBits w) z v)
    IntegerForms s b (put fun w n => (uv w x : Int) * 2 ^ n) (.shl g d a) (.shlRL g d a) (.shlRK g d a) (.shlRI g d a) ∧
    IntegerForms s b (put fun w n => (uv w x : Int).fdiv (2 ^ n)) (.shr g d a) (.shrRL g d a) (.shrRK g d a)
      (.shrRI g d a) ∧
    IntegerForms s b (put fun w n => (sv w x).fdiv (2 ^ n)) (.sar g d a) (.sarRL g d a) (.sarRK g d a) (.sarRI g d a) ∧
    IntegerForms s b (put fun w n => ((uv w x * 2 ^ n % 2 ^ w + uv w x / 2 ^ (w - n) : Nat) : Int)) (.rol g d a)
      (.rolRL g d a) (.rolRK g d a) (.rolRI g d a) ∧
    IntegerForms s b (put fun w n => ((uv w x / 2 ^ n + uv w x * 2 ^ (w - n) % 2 ^ w : Nat) : Int)) (.ror g d a)
      (.rorRL g d a) (.rorRK g d a) (.rorRI g d a) ∧
    rotated (fun w k n => (k + n) % w) (.rol g d a) ∧ rotated (fun w k n => (k + w - n) % w) (.ror g d a)

/-- The bitwise operations, the shifts and the rotations. -/
def Obligations.BitwiseResult : Prop := Claims.LogicResult ∧ Claims.ShiftResult

/-- R187: the smaller and the larger source, signed or unsigned. -/
def Claims.MinMaxResult : Prop :=
  ∀ (s : State) (b : Barrel) (g : Guard) (d a : Reg), Runs s b g →
    let x := b.held.line.reg a
    let put (r : Nat → Word64 → Int) (y : Word64) (z : Bool) (w : Width) :=
      s.withReg b d (extend (widthBits w) z (r (widthBits w) y))
    IntegerForms s b (put fun w y => if sv w x ≤ sv w y then sv w x else sv w y) (.min g d a) (.minRL g d a)
      (.minRK g d a) (.minRI g d a) ∧
    IntegerForms s b (put fun w y => if sv w x ≤ sv w y then sv w y else sv w x) (.max g d a) (.maxRL g d a)
      (.maxRK g d a) (.maxRI g d a) ∧
    IntegerForms s b (put fun w y => if uv w x ≤ uv w y then (uv w x : Int) else uv w y) (.minu g d a) (.minuRL g d a)
      (.minuRK g d a) (.minuRI g d a) ∧
    IntegerForms s b (put fun w y => if uv w x ≤ uv w y then (uv w y : Int) else uv w x) (.maxu g d a) (.maxuRL g d a)
      (.maxuRK g d a) (.maxuRI g d a)

/-- R187 at 64 bits: the register that each instruction writes is the bit-vector operation of its sources. -/
def Obligations.SixtyFourBitArithmetic : Prop :=
  ∀ (s : State) (b : Barrel) (g : Guard) (d a r : Reg) (z : Bool), Runs s b g →
    let x := b.held.line.reg a
    let y := b.held.line.reg r
    let n := y.toNat % 64
    exec (.add g d a r .none z .w64) s = s.withReg b d (x + y) ∧
    exec (.sub g d a r .none z .w64) s = s.withReg b d (x - y) ∧
    exec (.mul g d a r z .w64) s = s.withReg b d (x * y) ∧
    exec (.divu g d a r z .w64) s = s.withReg b d (if y = 0 then BitVec.allOnes 64 else x / y) ∧
    exec (.remu g d a r z .w64) s = s.withReg b d (x % y) ∧
    exec (.div g d a r z .w64) s = s.withReg b d (if y = 0 then BitVec.allOnes 64 else x.sdiv y) ∧
    exec (.rem g d a r z .w64) s = s.withReg b d (x.srem y) ∧
    exec (.and g d a r z .w64) s = s.withReg b d (x &&& y) ∧
    exec (.or g d a r z .w64) s = s.withReg b d (x ||| y) ∧
    exec (.xor g d a r z .w64) s = s.withReg b d (x ^^^ y) ∧
    exec (.andn g d a r z .w64) s = s.withReg b d (x &&& ~~~y) ∧
    exec (.orn g d a r z .w64) s = s.withReg b d (x ||| ~~~y) ∧
    exec (.shl g d a r z .w64) s = s.withReg b d (x <<< n) ∧
    exec (.shr g d a r z .w64) s = s.withReg b d (x >>> n) ∧
    exec (.sar g d a r z .w64) s = s.withReg b d (x.sshiftRight n) ∧
    exec (.min g d a r z .w64) s = s.withReg b d (if x.sle y then x else y) ∧
    exec (.max g d a r z .w64) s = s.withReg b d (if x.sle y then y else x) ∧
    exec (.minu g d a r z .w64) s = s.withReg b d (if x ≤ y then x else y) ∧
    exec (.maxu g d a r z .w64) s = s.withReg b d (if x ≤ y then y else x)

/-- R190: magnitudes, bit counts, reversals and extensions. A count c of leading zeros says that the low W bits lie below
2^(W − c) and, unless they are zero, not below half of that; a count c of trailing zeros says that 2^c divides them and,
unless they are zero, 2^(c + 1) does not. -/
def Claims.SingleSourceResult : Prop :=
  ∀ (s : State) (b : Barrel) (g : Guard) (d a : Reg), Runs s b g →
    let x := b.held.line.reg a
    let v (w : Width) : Nat := uv (widthBits w) x
    let mag (w : Width) : Int := if 0 ≤ sv (widthBits w) x then sv (widthBits w) x else -sv (widthBits w) x
    (∀ z w, exec (.abs g d a false z w) s = s.withReg b d (extend (widthBits w) z (mag w))) ∧
    (∀ z w, exec (.abs g d a true z w) s =
      s.withReg b d (extend (widthBits w) z (if mag w = 2 ^ (widthBits w - 1) then 2 ^ (widthBits w - 1) - 1 else mag w))) ∧
    (∀ w, ∃ c ≤ widthBits w, v w < 2 ^ (widthBits w - c) ∧ (v w ≠ 0 → 2 ^ (widthBits w - c) ≤ 2 * v w) ∧
      (v w = 0 → c = widthBits w) ∧ exec (.clz g d a w) s = s.withReg b d (BitVec.ofNat 64 c)) ∧
    (∀ w, ∃ c ≤ widthBits w, v w % 2 ^ c = 0 ∧ (v w ≠ 0 → v w % 2 ^ (c + 1) ≠ 0) ∧ (v w = 0 → c = widthBits w) ∧
      exec (.ctz g d a w) s = s.withReg b d (BitVec.ofNat 64 c)) ∧
    (∀ w, exec (.popc g d a w) s =
      s.withReg b d (BitVec.ofNat 64 ((List.range (widthBits w)).countP fun i => (v w).testBit i))) ∧
    (∀ z w, ∃ r : Nat, (∀ i < widthBits w / 8, r / 256 ^ i % 256 = v w / 256 ^ (widthBits w / 8 - 1 - i) % 256) ∧
      exec (.bswap g d a z w) s = s.withReg b d (extend (widthBits w) z r)) ∧
    (∀ z w, ∃ r : Nat, (∀ i < widthBits w, r.testBit i = (v w).testBit (widthBits w - 1 - i)) ∧
      exec (.brev g d a z w) s = s.withReg b d (extend (widthBits w) z r)) ∧
    (∀ w, exec (.sext g d a w) s = s.withReg b d (BitVec.ofInt 64 (sv (widthBits w) x))) ∧
    (∀ w, exec (.zext g d a w) s = s.withReg b d (BitVec.ofNat 64 (v w)))

/-- R191: `ext` extracts a field that stops at bit 63; `ins` replaces that field of d with the low bits of a and keeps the
other bits of d. -/
def Claims.FieldResult : Prop :=
  ∀ (s : State) (b : Barrel) (g : Guard) (d a : Reg), Runs s b g →
    let x := (b.held.line.reg a).toNat
    let pos (y : Word64) : Nat := y.toNat % 64
    let n (y : Word64) : Nat := min (y.toNat / 64 % 64 + 1) (64 - pos y)
    let ext (y : Word64) : Host.Outcome State Fault Refusal :=
      let f := x / 2 ^ pos y % 2 ^ n y
      s.withReg b d (if y.toNat.testBit 12 then BitVec.ofNat 64 f
        else BitVec.ofInt 64 (if f < 2 ^ (n y - 1) then (f : Int) else (f : Int) - 2 ^ n y))
    TailForms s b ext false (.ext g d a) (.extRL g d a) (.extRK g d a) (.extRI g d a) ∧
    ∃ ins : Word64 → Word64,
      (∀ y i, i < 64 → (ins y).getLsbD i =
        if pos y ≤ i ∧ i < pos y + n y then x.testBit (i - pos y) else (b.held.line.reg d).getLsbD i) ∧
      TailForms s b (fun y => s.withReg b d (ins y)) false (.ins g d a) (.insRL g d a) (.insRK g d a) (.insRI g d a)

/-- The smaller and the larger source, the operations of one source, and bit fields. -/
def Obligations.CountsAndFields : Prop := Claims.MinMaxResult ∧ Claims.SingleSourceResult ∧ Claims.FieldResult

/-- R192, R193: `cmp` and `tst` write one predicate. -/
def Claims.CompareResult : Prop :=
  ∀ (s : State) (b : Barrel) (g : Guard) (p : PReg) (a : Reg), Runs s b g →
    let x := b.held.line.reg a
    let put (v : Bool) : Host.Outcome State Fault Refusal := .next (s.complete b (b.held.line.setPredicate p v))
    let holds (n : Cond) (w : Nat) (y : Word64) : Bool := match n with
      | .eq => decide (uv w x = uv w y) | .ne => decide (uv w x ≠ uv w y)
      | .lt => decide (sv w x < sv w y) | .ge => decide (sv w x ≥ sv w y)
      | .le => decide (sv w x ≤ sv w y) | .gt => decide (sv w x > sv w y)
      | .ltu => decide (uv w x < uv w y) | .geu => decide (uv w x ≥ uv w y)
      | .leu => decide (uv w x ≤ uv w y) | .gtu => decide (uv w x > uv w y)
    let test (neg : Bool) (y : Word64) : Bool := if neg then decide (x &&& y = 0) else decide (x &&& y ≠ 0)
    (∀ r z w n, exec (.cmp g p a r z w n) s = put (holds n (widthBits w) (b.held.line.reg r))) ∧
    (∀ z w n v, exec (.cmpRL g p a z w n v) s = put (holds n (widthBits w) (widen z v))) ∧
    (∀ n k, InBank s b k → exec (.cmpRK g p a n k) s = put (holds n 64 (widen false (constWord s b k)))) ∧
    (∀ v, exec (.cmpRI g p a v) s = put (holds .eq 64 (v.signExtend 64))) ∧
    (∀ r z n, exec (.tst g p a r z n) s = put (test n (b.held.line.reg r))) ∧
    (∀ z n v, exec (.tstRL g p a z n v) s = put (test n (widen z v))) ∧
    (∀ z n k, InBank s b k → exec (.tstRK g p a z n k) s = put (test n (widen z (constWord s b k)))) ∧
    (∀ v, exec (.tstRI g p a v) s = put (test false (v.signExtend 64)))

/-- R194 to R196: `sel`, `mov`, `movi` and `movh`. -/
def Claims.MoveResult : Prop :=
  ∀ (s : State) (b : Barrel) (g : Guard) (d a : Reg), Runs s b g →
    let l := b.held.line
    (∀ q n, ShortForms s b (fun y => s.withReg b d (if l.predicate q = !n then l.reg a else y)) false
      (fun r => .sel g d a r q n) (.selRL g d a q n)) ∧
    (∀ z, TailForms s b (fun y => s.withReg b d y) z (fun r => .mov g d r z) (.movRL g d z) (.movRK g d z) (.movRI g d)) ∧
    (∀ v, exec (.movi g d v) s = s.withReg b d (v.signExtend 64)) ∧
    (∀ v, exec (.movh g d v) s = s.withReg b d (l.reg d * 2 ^ 13 + v.setWidth 64))

/-- R116, R197, R198: predicate operations; `rdp` reads the predicate word with bit 0 set; `wrp` writes p1 to p7, the
sticky flags and CARRY under a mask and never bit 0 or bits [31:14]. -/
def Claims.PredicateResult : Prop :=
  ∀ (s : State) (b : Barrel) (g : Guard), Runs s b g →
    let l := b.held.line
    let op (o : PsetOp) (x y : Bool) : Bool := match o with
      | .and => x && y | .or => x || y | .xor => x ^^ y | .andn => x && !y | .orn => x || !y
      | .nand => !(x && y) | .nor => !(x || y) | .xnor => !(x ^^ y)
    (∀ p pa pb o, exec (.pset g p pa pb o) s =
      .next (s.complete b (l.setPredicate p (op o (l.predicate pa) (l.predicate pb))))) ∧
    (∀ d, exec (.rdp g d) s = s.withReg b d ((l.pred ||| 1#32).setWidth 64)) ∧
    (∀ a, ∃ pred : Word64 → BitVec 32,
      (∀ y i, i < 32 → (pred y).getLsbD i =
        if y.getLsbD i = true ∧ 1 ≤ i ∧ i ≤ 13 then (l.reg a).getLsbD i else l.pred.getLsbD i) ∧
      ShortForms s b (fun y => .next (s.complete b { l with pred := pred y })) false (.wrp g a) (.wrpRL g a))

/-- R116: writing a predicate: it then reads the value written, every other predicate reads as before, p0 reads 1, and no
other bit of the line changes. -/
def Claims.PredicateWrite : Prop :=
  ∀ (l : Line) (p : PReg) (v : Bool),
    (p ≠ 0 → (l.setPredicate p v).predicate p = v) ∧ (l.setPredicate 0 v = l) ∧ l.predicate 0 = true ∧
    (∀ q, q ≠ p → (l.setPredicate p v).predicate q = l.predicate q) ∧
    (∀ i, i ≠ p.val → (l.setPredicate p v).pred.getLsbD i = l.pred.getLsbD i) ∧
    { l.setPredicate p v with pred := l.pred } = l

/-- Compares and tests, selections and moves, and the predicate word. -/
def Obligations.ComparesAndMoves : Prop := Claims.CompareResult ∧ Claims.MoveResult ∧ Claims.PredicateResult ∧ Claims.PredicateWrite

/-! ## Short vectors, random numbers and floating point (R199 to R220) -/

/-- R199, R200: the lane-wise operations, lane by lane: signed or unsigned lanes, clamped with `.sat`, else reduced. -/
def Claims.LaneWiseResult : Prop :=
  ∀ (s : State) (b : Barrel) (g : Guard) (d a : Reg), Runs s b g →
    let x := b.held.line.reg a
    let lanewise (r : Bool → Lane → Int → Int → Int) (v : Word64 → Bool → Lane → Word64) : Prop :=
      ∀ y z n i, i < 64 / laneBits n →
        (laneNat n (v y z n) i : Int) = r z n (laneInt z n x i) (laneInt z n y i) % 2 ^ laneBits n
    let put (v : Word64 → Bool → Lane → Word64) (y : Word64) (z : Bool) (n : Lane) := s.withReg b d (v y z n)
    let plain (r : Bool → Lane → Int → Int → Int) (rr : Reg → Bool → Lane → Instr) (rl : Bool → Lane → BitVec 32 → Instr)
        (rk : Lane → BitVec 8 → Instr) : Prop := ∃ v, lanewise r v ∧ LaneForms s b (put v) rr rl rk
    let sat (r : Int → Int → Int) (rr : Reg → Bool → Lane → Instr) (rl : Bool → Lane → BitVec 32 → Instr) : Prop :=
      ∃ v, lanewise (fun z n p q =>
          let lo : Int := if z then 0 else -(2 ^ (laneBits n - 1))
          let hi : Int := if z then 2 ^ laneBits n - 1 else 2 ^ (laneBits n - 1) - 1
          if r p q < lo then lo else if hi < r p q then hi else r p q) v ∧
        (∀ q z n, exec (rr q z n) s = put v (b.held.line.reg q) z n) ∧ ∀ z n w, exec (rl z n w) s = put v (w ++ w) z n
    plain (fun _ _ p q => p + q) (fun r z n => .vadd g d a r false z n) (.vaddRL g d a false) (.vaddRK g d a) ∧
    sat (fun p q => p + q) (fun r z n => .vadd g d a r true z n) (.vaddRL g d a true) ∧
    plain (fun _ _ p q => p - q) (fun r z n => .vsub g d a r false z n) (.vsubRL g d a false) (.vsubRK g d a) ∧
    sat (fun p q => p - q) (fun r z n => .vsub g d a r true z n) (.vsubRL g d a true) ∧
    plain (fun _ _ p q => p * q) (fun r z n => .vmul g d a r false z n) (.vmulRL g d a false) (.vmulRK g d a) ∧
    sat (fun p q => p * q) (fun r z n => .vmul g d a r true z n) (.vmulRL g d a true) ∧
    plain (fun _ _ p q => if p ≤ q then p else q) (.vmin g d a) (.vminRL g d a) (.vminRK g d a) ∧
    plain (fun _ _ p q => if p ≤ q then q else p) (.vmax g d a) (.vmaxRL g d a) (.vmaxRK g d a) ∧
    plain (fun _ _ p q => (p + q + 1).fdiv 2) (.vavg g d a) (.vavgRL g d a) (.vavgRK g d a) ∧
    plain (fun _ _ p q => if p ≤ q then q - p else p - q) (.vabsd g d a) (.vabsdRL g d a) (.vabsdRK g d a) ∧
    ∀ c : VCond,
      let holds (p q : Int) : Bool := match c with
        | .eq => decide (p = q) | .ne => decide (p ≠ q) | .lt => decide (p < q)
        | .ge => decide (p ≥ q) | .le => decide (p ≤ q) | .gt => decide (p > q)
      ∃ v, lanewise (fun _ n p q => if holds p q then 2 ^ laneBits n - 1 else 0) v ∧
        (∀ q z n, exec (.vcmp g d a q c z n) s = put v (b.held.line.reg q) z n) ∧
        (∀ z n w, exec (.vcmpRL g d a c z n w) s = put v (w ++ w) z n) ∧
        (c = .eq → ∀ n k, InBank s b k → exec (.vcmpRK g d a n k) s = put v (constWord s b k ++ constWord s b k) false n)

/-- R199, R201: dot product, lane sum, splat, shuffle, pack and bitwise select. -/
def Claims.LaneMoveResult : Prop :=
  ∀ (s : State) (b : Barrel) (g : Guard) (d a : Reg), Runs s b g →
    let l := b.held.line
    let x := l.reg a
    let sum (n : Lane) (f : Nat → Int) : Int := ((List.range (64 / laneBits n)).map f).sum
    (∀ c : Reg,
      let put (y : Word64) (z : Bool) (n : Lane) :=
        s.withReg b d (y + BitVec.ofInt 64 (sum n fun i => laneInt z n x i * laneInt z n (l.reg c) i))
      (∀ r z n, exec (.vdot g d a c r z n) s = put (l.reg r) z n) ∧
      (∀ z n v, exec (.vdotRL g d a c z n v) s = put (widen z v) z n) ∧
      (∀ n k, InBank s b k → exec (.vdotRK g d a c n k) s = put (widen false (constWord s b k)) false n)) ∧
    (∀ z n, exec (.vsum g d a z n) s = s.withReg b d (BitVec.ofInt 64 (sum n (laneInt z n x)))) ∧
    (∀ n, ∃ v, (∀ i < 64 / laneBits n, laneNat n v i = laneNat n x 0) ∧ exec (.vsplat g d a n) s = s.withReg b d v) ∧
    (∃ v : Word64 → Lane → Word64,
      (∀ y n i, i < 64 / laneBits n → laneNat n (v y n) i =
        if y.getLsbD (4 * i + 3) then 0 else laneNat n x (y.toNat / 2 ^ (4 * i) % 8 % (64 / laneBits n))) ∧
      (∀ r n, exec (.vshf g d a r n) s = s.withReg b d (v (l.reg r) n)) ∧
      (∀ n w, exec (.vshfRL g d a n w) s = s.withReg b d (v (w.setWidth 64) n))) ∧
    (∀ sat : Bool, ∃ v : Word64 → Bool → Lane → Word64,
      (∀ y z n i, i < 2 * (64 / laneBits n) →
        let h := laneBits n / 2
        let p := if i < 64 / laneBits n then laneInt z n x i else laneInt z n y (i - 64 / laneBits n)
        let lo : Int := if z then 0 else -(2 ^ (h - 1))
        let hi : Int := if z then 2 ^ h - 1 else 2 ^ (h - 1) - 1
        (((v y z n).toNat / 2 ^ (h * i) % 2 ^ h : Nat) : Int) = (if sat then min (max p lo) hi else p) % 2 ^ h) ∧
      (∀ r z n, exec (.vpack g d a r sat z n) s = s.withReg b d (v (l.reg r) z n)) ∧
      (∀ z n w, exec (.vpackRL g d a sat z n w) s = s.withReg b d (v (w ++ w) z n))) ∧
    (∀ c : Reg,
      let put (y : Word64) := s.withReg b d ((y &&& x) ||| (~~~y &&& l.reg c))
      (∀ r, exec (.vsel g d a c r) s = put (l.reg r)) ∧ (∀ v, exec (.vselRL g d a c v) s = put (v ++ v)) ∧
      (∀ k, InBank s b k → exec (.vselRK g d a c k) s = put (constWord s b k ++ constWord s b k)))

/-- The short-vector instructions: lane by lane, sums, and moves of lanes. -/
def Obligations.LaneResult : Prop := Claims.LaneWiseResult ∧ Claims.LaneMoveResult

/-- R202: `rand` writes rand_h of the key and the counter; `randf` writes a binary32 code of a value n × 2^−24 with n the
top 24 bits of it, below 1. -/
def Claims.RandomDraw : Prop :=
  ∀ (s : State) (b : Barrel) (g : Guard) (d a : Reg) (z : Bool), Runs s b g →
    let key := (b.held.line.reg a).toNat
    TailForms s b (fun y => s.withReg b d (BitVec.ofNat 64 (randH key y.toNat))) z (fun r => .rand g d a r z)
      (.randRL g d a z) (.randRK g d a z) (.randRI g d a) ∧
    TailForms s b (fun y => s.withReg b d (BitVec.ofNat 64 (randfOf (randH key y.toNat / 2 ^ 40)))) z
      (fun r => .randf g d a r z) (.randfRL g d a z) (.randfRK g d a z) (.randfRI g d a)

/-- R176: the code that `randf` writes for n decodes to n × 2^−24, and rand_h stays below 2^64. -/
def Claims.RandomFloatExact : Prop :=
  (∀ n, n < 2 ^ 24 → randfOf n < 2 ^ 32 ∧
    ((n = 0 ∧ randfOf n = 0) ∨ ∃ (m : Nat) (e : Nat), decodeFloat Fmt.f32.params (randfOf n) = .fin false m 1 (-(e : Int)) ∧
      m * 2 ^ 24 = n * 2 ^ e)) ∧
  ∀ key counter, key < 2 ^ 64 → counter < 2 ^ 64 → randH key counter < 2 ^ 64

/-- `rand` and `randf`, and the exact value of a `randf`. -/
def Obligations.RandomResult : Prop := Claims.RandomDraw ∧ Claims.RandomFloatExact

/-- R177: the table of values of rand_h and randf. -/
def Obligations.RandomVectors : Prop :=
  [1, 2, 3, 4].map (fun n => (randK.take n).foldl randRound 0) =
    [0x9B59FD173F640C37, 0xE1D720C22CC3BAA7, 0x99BDBC7FDA6AC0AA, 0x0D2A2E548DEE6C2C] ∧
  randH 0 0 = 0x0D2A2E548DEE6C2C ∧ randfOf (randH 0 0 / 2 ^ 40) = 0x3D52A2E0 ∧ randH 0 0 / 2 ^ 40 = 862766 ∧
  randH 1 0x20000 = 0x0D2A2E548DEE6C2D ∧ randH 0x8000000000000000 0x10000 = 0x8D2A2E548DEE6C2C ∧
  rotl64 1 17 = 0x20000 ∧ rotl64 0x8000000000000000 17 = 0x10000

/-- R209, R210, R174: `fadd`, `fsub`, `fmul` and `fdiv`: one rounding of the exact result, its flags ORed into the predicate
word, NaN and FV for an invalid operation, FZ for a finite value divided by zero. That a NaN or infinity of an operand sets no FX
is the model's choice (assumption 30). -/
def Claims.FloatArithmeticResult : Prop :=
  ∀ (s : State) (b : Barrel) (g : Guard) (d a : Reg), Runs s b g →
    let l := b.held.line
    let put (x : XVal → XVal → Rm → Option XVal × Bool) (y : FFmt → XVal) (r : Rm) (f : FFmt) :=
      let res := x (floatOf f (l.reg a)) (y f) r
      let out := match res.1 with
        | some v => roundF f.fmt.params v r false 0
        | none => (f.fmt.params.nan, { FpFlags.none with fv := true })
      Host.Outcome.next (s.complete b ((l.setReg d (BitVec.ofNat 64 out.1)).raise { out.2 with fz := res.2 }))
    let forms (x : XVal → XVal → Rm → Option XVal × Bool) (rr : Reg → Rm → FFmt → Instr) (rl : Rm → FFmt → BitVec 32 → Instr)
        (rk : FFmt → BitVec 8 → Instr) : Prop :=
      (∀ q r f, exec (rr q r f) s = put x (fun f => floatOf f (l.reg q)) r f) ∧
      (∀ r f v, exec (rl r f v) s = put x (fun f => floatTail f v) r f) ∧
      (∀ f k, InBank s b k → exec (rk f k) s = put x (fun f => floatTail f (constWord s b k)) .rne f)
    forms (fun x y r => (XVal.add (r == .rdn) x y, false)) (.fadd g d a) (.faddRL g d a) (.faddRK g d a) ∧
    forms (fun x y r => (XVal.add (r == .rdn) x y.neg, false)) (.fsub g d a) (.fsubRL g d a) (.fsubRK g d a) ∧
    forms (fun x y _ => (XVal.mul x y, false)) (.fmul g d a) (.fmulRL g d a) (.fmulRK g d a) ∧
    forms (fun x y _ => XVal.div x y) (.fdiv g d a) (.fdivRL g d a) (.fdivRK g d a)

/-- R174, R210, R211, R219: `fma`, `fmai` and `vfma` round a × b + c once, lane by lane; `fsqrt` rounds the root. That 0 × infinity
sets FV also where the addend is a NaN is the model's choice (assumption 29). -/
def Claims.FloatFusedResult : Prop :=
  ∀ (s : State) (b : Barrel), s.barrel = some b →
    let l := b.held.line
    let fused (p : FParams) (x y z : XVal) (r : Rm) : Nat × FpFlags :=
      match (XVal.mul x y).bind fun v => XVal.add (r == .rdn) v z with
      | some v => roundF p v r false 0
      | none => (p.nan, { FpFlags.none with fv := true })
    let put (d : Reg) (v : Nat) (fl : FpFlags) := Host.Outcome.next (s.complete b ((l.setReg d (BitVec.ofNat 64 v)).raise fl))
    (∀ d a imm, exec (.fmai d a imm) s =
      let o := fused Fmt.f32.params (floatOf .f32 (l.reg d)) (floatOf .f32 (l.reg a)) (floatTail .f32 (imm ++ 0#12)) .rne
      put d o.1 o.2) ∧
    ∀ (g : Guard) (d a c : Reg), guardHolds l g = true →
      (let go (z : XVal) (r : Rm) (f : FFmt) :=
         let o := fused f.fmt.params (floatOf f (l.reg a)) (floatOf f (l.reg c)) z r
         put d o.1 o.2
       (∀ q r f, exec (.fma g d a c q r f) s = go (floatOf f (l.reg q)) r f) ∧
       (∀ r f v, exec (.fmaRL g d a c r f v) s = go (floatTail f v) r f) ∧
       (∀ f k, InBank s b k → exec (.fmaRK g d a c f k) s = go (floatTail f (constWord s b k)) .rne f)) ∧
      (let lane (f : FFmt) (x : Word64) (i : Nat) : XVal :=
         decodeFloat f.fmt.params (x.toNat / 2 ^ (f.fmt.params.size * i) % 2 ^ f.fmt.params.size)
       let go (z : Word64) (r : Rm) (f : FFmt) (i : Instr) : Prop :=
         let o (k : Nat) := fused f.fmt.params (lane f (l.reg a) k) (lane f (l.reg c) k) (lane f z k) r
         let n := 64 / f.fmt.params.size
         ∃ v : Word64, (∀ k < n, v.toNat / 2 ^ (f.fmt.params.size * k) % 2 ^ f.fmt.params.size =
             (o k).1 % 2 ^ f.fmt.params.size) ∧
           exec i s = .next (s.complete b ((l.setReg d v).raise
             (((List.range n).map fun k => (o k).2).foldl FpFlags.or .none)))
       (∀ q r f, go (l.reg q) r f (.vfma g d a c q r f)) ∧
       (∀ r f v, go (v ++ v) r f (.vfmaRL g d a c r f v)) ∧
       (∀ f k, InBank s b k → go (constWord s b k ++ constWord s b k) .rne f (.vfmaRK g d a c f k))) ∧
      (∀ r f, exec (.fsqrt g d a r f) s =
        match XVal.sqrt (floatOf f (l.reg a)) with
        | some v => let o := roundF f.fmt.params v r false 0; put d o.1 o.2
        | none => put d f.fmt.params.nan { FpFlags.none with fv := true })

/-- `fadd` to `fdiv`, the fused forms and the root, each with one rounding. -/
def Obligations.FloatArithmetic : Prop := Claims.FloatArithmeticResult ∧ Claims.FloatFusedResult

/-- R212 to R216: selection, sign, comparison, class and rounding to an integral value; only `fround` sets a flag, and only
FX. -/
def Claims.FloatMiscResult : Prop :=
  ∀ (s : State) (b : Barrel) (g : Guard) (d a : Reg), Runs s b g →
    let l := b.held.line
    let val (f : FFmt) (c : Nat) : XVal := decodeFloat f.fmt.params c
    let low (f : FFmt) (c : Nat) : Nat := c % 2 ^ f.fmt.params.size
    let before (x y : XVal) : Bool := x.lt y || (x.same y && x.isNeg && !y.isNeg)
    let pick (isMin : Bool) (f : FFmt) (x y : Nat) : Nat :=
      if (val f x).isNan && (val f y).isNan then f.fmt.params.nan
      else if (val f x).isNan then low f y
      else if (val f y).isNan then low f x
      else if before (val f x) (val f y) = isMin then low f x else low f y
    let code (f : FFmt) (v : BitVec 32) : Nat :=
      if f = .f64 then (roundF Fmt.f64.params (decodeFloat Fmt.f32.params v.toNat) .rne false 0).1 else v.toNat
    let sel (isMin : Bool) (f : FFmt) (y : Nat) := s.withReg b d (BitVec.ofNat 64 (pick isMin f (l.reg a).toNat y))
    (∀ r f, exec (.fmin g d a r f) s = sel true f (l.reg r).toNat ∧ exec (.fmax g d a r f) s = sel false f (l.reg r).toNat) ∧
    (∀ f v, exec (.fminRL g d a f v) s = sel true f (code f v) ∧ exec (.fmaxRL g d a f v) s = sel false f (code f v)) ∧
    (∀ f k, InBank s b k → exec (.fminRK g d a f k) s = sel true f (code f (constWord s b k)) ∧
      exec (.fmaxRK g d a f k) s = sel false f (code f (constWord s b k))) ∧
    (∀ f, let c := low f (l.reg a).toNat
      let half := 2 ^ (f.fmt.params.size - 1)
      exec (.fabs g d a f) s = s.withReg b d (BitVec.ofNat 64 (if (val f c).isNan then f.fmt.params.nan else c % half)) ∧
      exec (.fneg g d a f) s = s.withReg b d (BitVec.ofNat 64
        (if (val f c).isNan then f.fmt.params.nan else if c < half then c + half else c - half))) ∧
    (∀ p : PReg,
      let holds (n : FCond) (x y : XVal) : Bool := match n with
        | .eq => x.same y | .ne => !x.same y | .lt => x.lt y | .le => x.lt y || x.same y
        | .gt => y.lt x | .ge => y.lt x || x.same y
        | .un => x.isNan || y.isNan | .or => !x.isNan && !y.isNan
      let put (n : FCond) (f : FFmt) (y : XVal) : Host.Outcome State Fault Refusal :=
        .next (s.complete b (l.setPredicate p (holds n (floatOf f (l.reg a)) y)))
      (∀ r n f, exec (.fcmp g p a r n f) s = put n f (floatOf f (l.reg r))) ∧
      (∀ n f v, exec (.fcmpRL g p a n f v) s = put n f (floatTail f v)) ∧
      (∀ f k, InBank s b k → exec (.fcmpRK g p a f k) s = put .eq f (floatTail f (constWord s b k)))) ∧
    (∀ f, ∃ k, k < 9 ∧ exec (.fclass g d a f) s = s.withReg b d (BitVec.ofNat 64 (2 ^ k)) ∧
      match floatOf f (l.reg a) with
      | .nan => k = 8
      | .inf neg => k = if neg then 0 else 7
      | .zero neg => k = if neg then 3 else 4
      | .fin neg n _ _ => k = if n < 2 ^ f.fmt.params.t then (if neg then 2 else 5) else (if neg then 1 else 6)) ∧
    (∀ r f, ∃ (v : Nat) (fl : FpFlags),
      exec (.fround g d a r f) s = .next (s.complete b ((l.setReg d (BitVec.ofNat 64 v)).raise fl)) ∧
      (fl.fv || fl.fz || fl.fo || fl.fu) = false ∧
      match floatOf f (l.reg a) with
      | .nan => v = f.fmt.params.nan ∧ fl.fx = false
      | .inf _ | .zero _ => v = low f (l.reg a).toNat ∧ fl.fx = false
      | .fin neg n den e =>
        let q := inUnits n den e 0
        let m := roundQuot neg q.1 q.2 r 0
        fl.fx = decide (q.1 % q.2 ≠ 0) ∧
          v = if m = 0 then zeroCode f.fmt.params neg else (roundF f.fmt.params (.fin neg m 1 0) .rne false 0).1)

/-- R172, R217, R218: `fcvt` by a specification with its fields in place: the low bytes of a, decoded, rounded once into the
destination format, the draw of `.rsto` taken from the key and the old value of d. -/
def Claims.ConvertResult : Prop :=
  ∀ (s : State) (b : Barrel) (g : Guard) (d a kb : Reg) (src dst : Fmt) (r : Rm) (sat : Bool), Runs s b g →
    src ≠ .acc → dst ≠ .acc →
    let l := b.held.line
    let spec : BitVec 32 :=
      BitVec.ofNat 32 (src.code + dst.code * 2 ^ 8 + r.code * 2 ^ 16 + (if sat then 1 else 0) * 2 ^ 19)
    let draw : Nat := if r = .rsto then randH (l.reg kb).toNat (l.reg d).toNat / 2 ^ 32 % 2 ^ 32 else 0
    let x := decodeFmt src (l.reg a).toNat
    let out : Word64 × FpFlags := match dst.int? with
      | some (w, sgn) =>
        let o := roundToInt w sgn x r draw
        (if sgn then BitVec.ofInt 64 o.1 else BitVec.ofNat 64 (o.1 % 2 ^ w).toNat, o.2)
      | none =>
        let o := roundF dst.params x r sat draw
        (BitVec.ofNat 64 (o.1 % 2 ^ (8 * dst.size)), o.2)
    let done : Host.Outcome State Fault Refusal := .next (s.complete b ((l.setReg d out.1).raise out.2))
    (∀ c, (l.reg c).setWidth 32 = spec → exec (.fcvt g d a kb c) s = done) ∧
    exec (.fcvtRL g d a kb spec) s = done ∧
    (∀ k, InBank s b k → constWord s b k = spec → exec (.fcvtRK g d a kb k) s = done)

/-- R217: a register that holds an invalid specification gives the illegal-encoding fault when `fcvt` executes; one in the
word or in the constant bank gives it whatever the guard. -/
def Claims.ConvertIllegal : Prop :=
  ∀ (s : State) (b : Barrel) (g : Guard) (d a kb : Reg), s.barrel = some b →
    (∀ c, guardHolds b.held.line g = true → fcvtSpecValid ((b.held.line.reg c).setWidth 32) = false →
      exec (.fcvt g d a kb c) s = .next (s.illegal b)) ∧
    (∀ v, fcvtSpecValid v = false → exec (.fcvtRL g d a kb v) s = .next (s.illegal b)) ∧
    (∀ k, fcvtSpecValid (constWord s b k) = false → exec (.fcvtRK g d a kb k) s = .next (s.illegal b))

/-- Selections, signs, compares, classes and integral values of floating-point numbers, and conversions. -/
def Obligations.FloatMiscAndConvert : Prop := Claims.FloatMiscResult ∧ Claims.ConvertResult ∧ Claims.ConvertIllegal

/-- R182, R220: `xcvt` reads the exact accumulator word of a register pair. -/
def Obligations.AccumulatorWordResult : Prop :=
  ∀ (s : State) (b : Barrel) (g : Guard) (d a : Reg), Runs s b g →
    let l := b.held.line
    let w : BitVec 128 := l.reg (pairOf a) ++ l.reg a
    let put (v : Nat) (fl : FpFlags) := Host.Outcome.next (s.complete b ((l.setReg d (BitVec.ofNat 64 v)).raise fl))
    exec (.xcvt g d a) s =
      if w.getLsbD 122 || w.getLsbD 123 then put 0x7FF8000000000000 { FpFlags.none with fv := true }
      else
        let m : Int := (w.setWidth 120).toInt
        let o := roundF Fmt.f64.params (if m = 0 then .zero false else .fin (decide (m < 0)) m.natAbs 1 (-56)) .rne false 0
        put o.1 { o.2 with fv := o.2.fv || w.getLsbD 121, fx := o.2.fx || w.getLsbD 120 }

/-- R210, R212: addition, multiplication and the factors of a fused product commute: the result and the flags are the
same in either order of the operands. -/
def Claims.FloatCommutes : Prop :=
  ∀ (s : State) (g : Guard) (d a c q : Reg) (r : Rm) (f : FFmt),
    exec (.fadd g d a c r f) s = exec (.fadd g d c a r f) s ∧
    exec (.fmul g d a c r f) s = exec (.fmul g d c a r f) s ∧
    exec (.fma g d a c q r f) s = exec (.fma g d c a q r f) s ∧
    exec (.vfma g d a c q r f) s = exec (.vfma g d c a q r f) s

/-- R170, R171: rounding a value of a format into that format gives its own code and no flag, in every mode. -/
def Claims.RoundingKeepsValues : Prop :=
  ∀ (f : FFmt) (c : Nat) (r : Rm) (sat : Bool) (draw : Nat), c < 2 ^ f.fmt.params.size →
    decodeFloat f.fmt.params c ≠ .nan →
    roundF f.fmt.params (decodeFloat f.fmt.params c) r sat draw = (c, FpFlags.none)

/-- Sums and products do not depend on the order of their two sources, and a value that its format holds rounds to itself. -/
def Obligations.FloatLaws : Prop := Claims.FloatCommutes ∧ Claims.RoundingKeepsValues

/-! ## Branches, calls and returns (R144, R145, R203 to R208) -/

/-- R145, R204: `b` and `jmp` go to a target that stands; a register target with bits [63:32] set takes a bounds fault
whose AUX is its low half; each failed check stops the branch in its order. The clauses on a negative target, whose AUX takes
the offset modulo 65,536, and on the literal bits of an invalid header are the model's choices (assumptions 25 and 27). -/
def Obligations.JumpResult : Prop :=
  ∀ (s : State) (b : Barrel) (g : Guard), Runs s b g →
    let l := b.held.line
    (∀ disp : BitVec 19,
      let o : Int := (l.pc.toNat % 2 ^ 16 : Nat) + 4 * disp.toInt
      TakesBranch s b (l.pc.toNat / 2 ^ 16) o (.b g disp) (.next (s.jumpTo b l (pcAt (l.pc.toNat / 2 ^ 16) o)))) ∧
    (∀ r, 2 ^ 32 ≤ (l.reg r).toNat → exec (.jmp g r) s = .next (s.takeFault b l .bounds .none ((l.reg r).setWidth 32) 0)) ∧
    (∀ r, (l.reg r).toNat < 2 ^ 32 →
      TakesBranch s b ((l.reg r).toNat / 2 ^ 16) ((l.reg r).toNat % 2 ^ 16 : Nat) (.jmp g r)
        (.next (s.jumpTo b l ((l.reg r).setWidth 32)))) ∧
    (∀ v, TakesBranch s b (v.toNat / 2 ^ 16) (v.toNat % 2 ^ 16 : Nat) (.jmpRL g v) (.next (s.jumpTo b l v)))

/-- R207: `dbnz` decrements its register; at zero it falls through without a target check, otherwise it branches, and a
branch that stops leaves the register; a register that starts at 0 is first 0 again after 2^64 decrements. Where the target
check of R145 stops the branch, the AUX of a negative target and the literal bits of an invalid header are the model's choices
(assumptions 25 and 27). -/
def Obligations.LoopResult : Prop :=
  ∀ (s : State) (b : Barrel) (g : Guard) (r : Reg) (disp : BitVec 16), Runs s b g →
    let l := b.held.line
    let o : Int := (l.pc.toNat % 2 ^ 16 : Nat) + 4 * disp.toInt
    (l.reg r = 1 → exec (.dbnz g r disp) s = .next (s.complete b (l.setReg r 0))) ∧
    (l.reg r ≠ 1 → TakesBranch s b (l.pc.toNat / 2 ^ 16) o (.dbnz g r disp)
      (.next (s.jumpTo b (l.setReg r (l.reg r - 1)) (pcAt (l.pc.toNat / 2 ^ 16) o)))) ∧
    ∀ n : Nat, (0 : Word64) - BitVec.ofNat 64 n = 0 ↔ n % 2 ^ 64 = 0

/-- R136, R205: a call whose LINK lies in the core's own CLM pushes the return PC and the predicate word at LINK − 8, lowers
LINK by 8 and goes to its target; every byte of memory outside the eight that it stores stays. Bits 31 to 14 of the predicate
word read zero and p0 reads 1 (assumption 9). -/
def Claims.CallResult : Prop :=
  ∀ (s : State) (b : Barrel) (g : Guard), Runs s b g → s.MemoryOk → Drained s b →
    let l := b.held.line
    let sp := (l.link - 8).toNat
    l.link.toNat % 8 = 0 → Reaches s b .g sp 8 sp rightsW → OwnWord s b sp →
    ∃ t : State, Stores s sp 8 (b.nextPc.toNat + 2 ^ 32 * (l.pred ||| 1).toNat) t ∧
      Calls s b g fun pc => .next (t.jumpTo b { l with link := l.link - 8 } pc)

/-- R136, R205, R260: a call whose LINK lies anywhere else, or in the core's own CLM while the store buffer holds an entry of the
context, parks with KIND MEM while its push stands in the store buffer, its PC, LINK and predicates unchanged; the reply will
bring the target PC and the new LINK. A full store buffer is waited for first. -/
def Claims.CallParks : Prop :=
  ∀ (s : State) (b : Barrel) (g : Guard), Runs s b g →
    let l := b.held.line
    let sp := (l.link - 8).toNat
    l.link.toNat % 8 = 0 → Reaches s b .g sp 8 sp rightsW → Plain sp ∨ (∃ die off, targetOf sp = .reg die off) →
      ((∃ off, targetOf sp = .clm b.core off) → ¬Drained s b) →
    (HasRoom s b →
      Calls s b g fun pc =>
        .next ((s.buffer b
          { who := b.who, va := sp, size := 8,
            op := .store (toBytes 4 b.nextPc.toNat ++ toBytes 4 (l.pred ||| 1).toNat),
            reply := .jump pc (l.link - 8), posted := false, acq := false }).park b 1 8)) ∧
    (¬HasRoom s b → ∃ out, AwaitsBuffer s b out ∧ Calls s b g fun _ => out)

/-- R145, R205, R136, R93: a call checks its target first; then a LINK that is no multiple of 8 takes a misalignment fault with
LINK − 8 as its address, and a LINK in the core's own code partition a protection fault; a register target with bits [63:32]
set takes a bounds fault. The AUX of a negative target, the literal bits of an invalid header, the record of a push as a
store's, and that LINK[2:0] is tested before bits [63:56], are the model's choices (assumptions 25, 27, 28 and 131). -/
def Claims.CallFaults : Prop :=
  ∀ (s : State) (b : Barrel) (g : Guard), Runs s b g →
    let l := b.held.line
    let sp := (l.link - 8).toNat
    (l.link.toNat % 8 ≠ 0 → Calls s b g fun _ => .next (s.fault b .misaligned .store sp)) ∧
    (l.link.toNat % 8 = 0 → Reaches s b .g sp 8 sp rightsW → Drained s b →
      ∀ off, targetOf sp = .clm b.core off → s.inCode b.core off = true →
        Calls s b g fun _ => .next (s.fault b .protection .store sp)) ∧
    ∀ r, 2 ^ 32 ≤ (l.reg r).toNat →
      exec (.callr g r) s = .next (s.takeFault b l .bounds .none ((l.reg r).setWidth 32) 0)

/-- A call pushes and goes to its target, parks, or stops at a check. -/
def Obligations.CallSteps : Prop := Claims.CallResult ∧ Claims.CallParks ∧ Claims.CallFaults

/-- R136, R206: `ret` reads its doubleword from the store buffer, from a near word, or from a cache of its brick; where no cache
can hold its target it parks, and reads again, when it is reissued, what stands there then (of a page outside the device, what the
reply brought); in its own line it reads what a recall would leave there. It then checks the return PC, raises LINK by 8 and
restores p1 to p7 and CARRY, or with `.keep` no predicate; the sticky flags stay. A misaligned LINK takes a misalignment fault. How
the read of a target that no cache holds ends is the model's choice (assumption 17), and so are the AUX of a target check and the
literal bits of an invalid header (assumptions 25 and 27). -/
def Obligations.ReturnResult : Prop :=
  ∀ (s : State) (b : Barrel) (g : Guard) (keep : Bool), Runs s b g →
    let l := b.held.line
    let sp := l.link.toNat
    let out := exec (.ret g keep) s
    let back (t : State) (v : Nat) : Prop := ∃ pred : BitVec 32,
      (∀ i, i < 32 → pred.getLsbD i =
        if keep = false ∧ ((1 ≤ i ∧ i ≤ 7) ∨ i = 13) then v.testBit (32 + i) else l.pred.getLsbD i) ∧
      BranchFrom t b (v / 2 ^ 16 % 2 ^ 16) (v % 2 ^ 16 : Nat) out
        (.next (t.jumpTo b { l with link := l.link + 8, pred := pred } (BitVec.ofNat 32 v)))
    (sp % 8 ≠ 0 → out = .next (s.fault b .misaligned .load sp)) ∧
    (Reaches s b .g sp 8 sp rightsR →
      (Plain sp → ∀ bs, forwardFrom b.held.va sp 8 (s.core b.core).storeBuf = .bytes bs → back s (ofBytes bs)) ∧
      (Plain sp → forwardFrom b.held.va sp 8 (s.core b.core).storeBuf = .part → out = .next (s.awaitBuffer b)) ∧
      (Unbuffered s b sp 8 →
        (Near b sp → ∀ t, s.granted b sp 8 = some t →
          (s.anyPoison sp 8 = false → back t (memNat s.mem sp 8)) ∧
          (s.anyPoison sp 8 = true → out = .next (t.takeFault b l .poisonedData .load 0 sp))) ∧
        (Far s b sp 8 →
          (∀ v, b.held.popped = some (sp, v) →
            ((∀ die o, targetOf sp ≠ .reg die o) →
              (s.anyPoison sp 8 = false → back s (memNat s.mem sp 8)) ∧
              (s.anyPoison sp 8 = true → out = .next (s.takeFault b l .poisonedData .load 0 sp))) ∧
            (∀ die o, targetOf sp = .reg die o →
              let x := blockAt die o
              (registerFault die x.1 x.2 8 = none → back s (s.readRegister die x.1 x.2)) ∧
              (registerFault die x.1 x.2 8 = some .misaligned → out = .next (s.fault b .misaligned .load sp)))) ∧
          ((∀ v, b.held.popped ≠ some (sp, v)) → out = .next ((s.sendsBank b sp 8 .load .reissue false).park b 1 8))) ∧
        (targetOf sp = .paged →
          (∀ data t, s.cachedRead (clusterOfCore b.core) sp = some (data, t) →
            (s.linePoison (dieOfCore b.core) sp = false →
              back t (data.toNat / 2 ^ (8 * (sp % 64)) % 2 ^ 64)) ∧
            (s.linePoison (dieOfCore b.core) sp = true → out = .next (s.takeFault b l .poisonedData .load 0 sp))) ∧
          (s.cachedRead (clusterOfCore b.core) sp = none →
            let ctx := sp / 128 * 128
            let own := s.inPool sp = true ∧ ctx = b.held.va
            let recalled (x : Line) : Nat := ofBytes (((s.recalledBytes ctx x).drop (sp % 128)).take 8)
            (own → s.badCtxs.contains ctx = false → back s (recalled l)) ∧
            (¬ own → ∀ v, b.held.popped = some (sp, v) →
              (s.inPool sp = false → back s v) ∧
              (s.inPool sp = true →
                (∀ pa x, s.place ctx = .memory pa x → s.anyPoison (pa + sp % 128) 8 = false → ctx ∉ s.quarantine →
                  back s (memNat s.mem (pa + sp % 128) 8)) ∧
                (∀ c n h, s.place ctx = .entry c n h → s.badCtxs.contains ctx = false → back s (recalled h.line)))) ∧
            (¬ own → (∀ v, b.held.popped ≠ some (sp, v)) →
              out = .next ((s.sendsHome b sp 8 .load .reissue false).park b 1 8))))))

/-! ## Loads, stores and cache control (R257 to R270) -/

/-- R257, R261, R265, R266, R268: `ld`, `ld2` and `ldb` of what the store buffer or a near word gives; a SPACE and a scope
belong to each; the sentinel and the bound of `ldb` come first. That an offset is sign-extended in every form is the model's
choice (assumption 15). -/
def Claims.LoadResult : Prop :=
  ∀ (s : State) (b : Barrel) (g : Guard) (d a : Reg), Runs s b g →
    let l := b.held.line
    let ld (o : Option Scope) (y : Space) (z : Bool) (w : Width) (x : Word64) (i : Instr) : Prop :=
      ∀ va v t, Sees s b y (l.reg a + x).toNat (widthBits w / 8) va v t →
        exec i s = .next ((t.acquired b o).complete b (l.setReg d (extend (widthBits w) z (v : Nat))))
    let ld2 (o : Option Scope) (y : Space) (x : Word64) (i : Instr) : Prop :=
      ∀ va v t, Sees s b y (l.reg a + x).toNat 16 va v t →
        exec i s = .next ((t.acquired b o).complete b
          ((l.setReg d (BitVec.ofNat 64 v)).setReg (pairOf d) (BitVec.ofNat 64 (v / 2 ^ 64))))
    let ldb (q : Reg) (y : Space) (z : Bool) (w : Width) (x : Word64) (i : Instr) : Prop :=
      let n := (l.reg q).toNat % 2 ^ 32
      let ea := (l.reg a + BitVec.ofNat 64 (n * (widthBits w / 8))).toNat
      (n = 0xFFFFFFFF → exec i s = s.withReg b d 0) ∧
      (n ≠ 0xFFFFFFFF → x.toNat % 2 ^ 32 ≤ n → exec i s = .next (s.fault b .bounds .load ea)) ∧
      (n ≠ 0xFFFFFFFF → n < x.toNat % 2 ^ 32 → ∀ va v t, Sees s b y ea (widthBits w / 8) va v t →
        exec i s = t.withReg b d (extend (widthBits w) z (v : Nat)))
    (∀ o y z w, SignedForms b (ld o y z w) (fun r => .ld g d a r o y z w) (.ldRL g d a o y z w)) ∧
    (∀ w, ConstForm s b (ld none .g false w) (.ldRK g d a w)) ∧ ImmForm (ld none .g false .w64) (.ldRI g d a) ∧
    (∀ o y, SignedForms b (ld2 o y) (fun r => .ld2 g d a r o y) (.ld2RL g d a o y)) ∧
    ConstForm s b (ld2 none .g) (.ld2RK g d a) ∧ ImmForm (ld2 none .g) (.ld2RI g d a) ∧
    ∀ q : Reg,
      (∀ y z w, SignedForms b (ldb q y z w) (fun r => .ldb g d a q r y z w) (.ldbRL g d a q y z w)) ∧
      ∀ w, ConstForm s b (ldb q .g false w) (.ldbRK g d a q w)

/-- R99, R132, R261, R341: a load that cannot return its value within the barrel sends its access and parks with KIND MEM and
its destination as VALUE; one whose bytes the store buffer holds in part waits for the buffer; a poisoned near word takes the
poisoned-data fault. That an offset is sign-extended is the model's choice (assumption 15). That a parked thread already has the
PC of the next instruction is the model's choice (assumption 48). -/
def Claims.LoadParks : Prop :=
  ∀ (s : State) (b : Barrel) (g : Guard) (d a r : Reg) (o : Option Scope) (y : Space), Runs s b g →
    let l := b.held.line
    let ea := (l.reg a + l.reg r).toNat
    let parks (n : Nat) (reply : ReplyTo) (i : Instr) : Prop :=
      ∀ va, Reaches s b y ea n va rightsR →
        (Plain va → forwardFrom b.held.va va n (s.core b.core).storeBuf = .part → exec i s = .next (s.awaitBuffer b)) ∧
        (Unbuffered s b va n → Far s b va n →
          exec i s = .next ((s.sendsBank b va n .load reply (acquires o)).parkAdvance b 1 reply.memValue)) ∧
        (Unbuffered s b va n → Near b va → ∀ t, s.granted b va n = some t → s.anyPoison va n = true →
          exec i s = .next (t.takeFault b l .poisonedData .load 0 va))
    (∀ z w, parks (widthBits w / 8) (.reg d (widthBits w / 8) z) (.ld g d a r o y z w)) ∧
    parks 16 (.pair d) (.ld2 g d a r o y)

/-- R257, R267, R75: `ldq` of a near word converts a binary32 code to its format; a plain load of the paged space that a cache of
the brick serves completes, one that its caching slice executes taking its place in the combining front end there (R87), and so does
one that a store of the brick still pending at its home covers (R69, R288), which its later releases then wait for (R293); any other goes to the home and parks with KIND MEM. A
line whose sector is poisoned gives the fault. The sign of a literal offset is the
model's choice (assumption 15), and so are the width of an `ldq` (assumption 16), how a load joins the front end (assumptions 34 and
108), and how a later release waits for a pending store that a load has read (assumption 125). -/
def Claims.SubscribedAndPagedLoads : Prop :=
  ∀ (s : State) (b : Barrel) (g : Guard) (d a : Reg), Runs s b g →
    let l := b.held.line
    (∀ o u f, SignedForms b (fun x i => ∀ va t, Reaches s b .g (l.reg a + x).toNat 4 va rightsRS → Near b va →
        Unbuffered s b va 4 → s.granted b va 4 = some t → s.anyPoison va 4 = false →
        exec i s = .next ((t.acquired b o).complete b (l.setReg d (BitVec.ofNat 64 (toSub 0 f (memNat s.mem va 4))))))
      (fun r => .ldq g d a r o u f) (.ldqRL g d a o u f)) ∧
    ∀ r o z w va,
      let n := widthBits w / 8
      let i := Instr.ld g d a r o .g z w
      let brick := dieOfCore b.core
      Reaches s b .g (l.reg a + l.reg r).toNat n va rightsR → targetOf va = .paged → Unbuffered s b va n →
      (s.cachedRead (clusterOfCore b.core) va = none → s.pendingStore brick va n = none →
        exec i s = .next ((s.sendsHome b va n .load (.reg d n z) (acquires o)).parkAdvance b 1 d.val)) ∧
      (s.cachedRead (clusterOfCore b.core) va = none → ∀ bs, s.pendingStore brick va n = some bs →
        exec i s = .next ((s.acquired b o).complete (b.observes va) (l.setReg d (extend (widthBits w) z (ofBytes bs : Nat))))) ∧
      ∀ data t, s.cachedRead (clusterOfCore b.core) va = some (data, t) →
        (s.linePoison brick va = false →
          let u := if s.inL1 (clusterOfCore b.core) va then t else t.sliceLoad brick va n data
          exec i s = .next ((u.acquired b o).complete b (l.setReg d
            (extend (widthBits w) z (data.toNat / 2 ^ (8 * (va % 64)) % 2 ^ (8 * n) : Nat))))) ∧
        (s.linePoison brick va = true → exec i s = .next (s.takeFault b l .poisonedData .load 0 va))

/-- Loads that are answered inside the barrel, and those that park for a bank, a page or a subscription. -/
def Obligations.Loads : Prop := Claims.LoadResult ∧ Claims.LoadParks ∧ Claims.SubscribedAndPagedLoads

/-- R260, R262, R265, R266, R269: `st`, `st2` and `feset` enter the store buffer with their bytes and complete there; no
memory changes yet. A store with a scope needs what its release waits for; a full buffer is waited for; a store under SPACE l to
the code partition takes a protection fault. That an offset is sign-extended is the model's choice (assumption 15). -/
def Obligations.StoreResult : Prop :=
  ∀ (s : State) (b : Barrel) (g : Guard) (d a : Reg), Runs s b g →
    let l := b.held.line
    let put (op : AccessOp) (n : Nat) (o : Option Scope) (y : Space) (plain : Nat → Prop) (x : Word64) (i : Instr) : Prop :=
      ∀ va, Reaches s b y (l.reg a + x).toNat n va rightsW →
        (plain va → (y = .l → ∀ off, targetOf va = .clm b.core off → s.inCode b.core off = false) →
          (∀ sc, o = some sc → Released s b sc) →
          (HasRoom s b →
            exec i s = .next ((s.buffer b { who := b.who, va := va, size := n, op := op, reply := .nothing, posted := true,
                                            acq := false }).complete b l)) ∧
          (¬HasRoom s b → AwaitsBuffer s b (exec i s))) ∧
        (o = none → y = .l → (∃ off, targetOf va = .clm b.core off ∧ s.inCode b.core off = true) →
          exec i s = .next (s.fault b .protection .store va))
    let wide (va : Nat) : Prop := Plain va ∨ ∃ die off, targetOf va = .reg die off
    let st (o : Option Scope) (y : Space) (w : Width) :=
      put (.store (toBytes (widthBits w / 8) (l.reg d).toNat)) (widthBits w / 8) o y wide
    let st2 (o : Option Scope) (y : Space) :=
      put (.store (toBytes 8 (l.reg d).toNat ++ toBytes 8 (l.reg (pairOf d)).toNat)) 16 o y Plain
    let fe (u : Bool) (y : Space) := put (.feset u) 4 none y Plain
    (∀ o y w, SignedForms b (st o y w) (fun r => .st g d a r o y w) (.stRL g d a o y w)) ∧
    (∀ w, ConstForm s b (st none .g w) (.stRK g d a w)) ∧ ImmForm (st none .g .w64) (.stRI g d a) ∧
    (∀ o y, SignedForms b (st2 o y) (fun r => .st2 g d a r o y) (.st2RL g d a o y)) ∧
    ConstForm s b (st2 none .g) (.st2RK g d a) ∧ ImmForm (st2 none .g) (.st2RI g d a) ∧
    (∀ u y, SignedForms b (fe u y) (fun r => .feset g a r u y) (.fesetRL g a u y)) ∧
    (∀ y, ConstForm s b (fe false y) (.fesetRK g a y)) ∧ ImmForm (fe false .g) (.fesetRI g a)

/-- R95, R96, R269: `ldfe` and `stfe` at a word of the core's own CLM: a FULL word is read and becomes EMPTY, an EMPTY one is
written and becomes FULL, each waking the waiters of the other state; otherwise the thread waits in the table with KIND
3. At any other word of a CLM, a TSP or a register block the operation goes to the word's bank and the thread parks with KIND
MEM; while the context's own stores to the word stand in the store buffer it waits for them. That an offset is sign-extended is
the model's choice (assumption 15). -/
def Claims.FullEmptyResult : Prop :=
  ∀ (s : State) (b : Barrel) (g : Guard) (d a : Reg), Runs s b g → Drained s b →
    let l := b.held.line
    let limit := (s.cluster (clusterOfCore b.core)).feLimit.toNat
    let ldfe (z : Bool) (y : Space) (x : Word64) (i : Instr) : Prop :=
      ∀ va, Reaches s b y (l.reg a + x).toNat 4 va rightsR → OwnWord s b va → s.anyPoison va 4 = false →
        (s.isFull va = true →
          exec i s = .next (((s.setFull va false).wakeWaiters va (fun c => c == .empty) (fun _ => .wake)).complete b
            (l.setReg d (extend 32 z (memNat s.mem va 4))))) ∧
        (s.isFull va = false → exec i s = .next (s.waitsAt b va .full limit 3))
    let stfe (y : Space) (x : Word64) (i : Instr) : Prop :=
      ∀ va, Reaches s b y (l.reg a + x).toNat 4 va rightsW → OwnWord s b va → l.deferredPc = 0 →
        (s.isFull va = false →
          exec i s = .next (((({ s with mem := memPuts s.mem va (toBytes 4 ((l.reg d).setWidth 32).toNat) } : State).setFull va
            true).wakeWaiters va (fun c => c == .full) (fun _ => .wake)).complete b l)) ∧
        (s.isFull va = true → exec i s = .next (s.waitsAt b va .empty limit 3))
    (∀ z y, SignedForms b (ldfe z y) (fun r => .ldfe g d a r z y) (.ldfeRL g d a z y)) ∧
    (∀ y, ConstForm s b (ldfe false y) (.ldfeRK g d a y)) ∧ ImmForm (ldfe false .g) (.ldfeRI g d a) ∧
    (∀ y, SignedForms b (stfe y) (fun r => .stfe g d a r y) (.stfeRL g d a y)) ∧
    (∀ y, ConstForm s b (stfe y) (.stfeRK g d a y)) ∧ ImmForm (stfe .g) (.stfeRI g d a)

/-- R99, R259, R269: `ldfe` and `stfe` anywhere but in the core's own CLM, or there with an undrained buffer: a word to which
the context has a store in the buffer is waited for; otherwise the operation goes to the word's bank, or from the paged space to
the home, which refuses it. That an offset is sign-extended is the model's choice (assumption 15). That a parked thread already
has the PC of the next instruction is the model's choice (assumption 48). -/
def Claims.FullEmptySent : Prop :=
  ∀ (s : State) (b : Barrel) (g : Guard) (d a r : Reg) (y : Space), Runs s b g →
    let l := b.held.line
    let sent (n : Rights) (op : AccessOp) (reply : ReplyTo) (acq : Target → Bool) (needs : Nat → Prop) (i : Instr) : Prop :=
      ∀ va, Reaches s b y (l.reg a + l.reg r).toNat 4 va n → needs va →
        let waits : Bool := (s.core b.core).storeBuf.any fun e => e.meets b.held.va va 4
        let away : Prop := (∃ cl off, targetOf va = .tsp cl off ∧ off < descTable) ∨ (∃ die off, targetOf va = .reg die off) ∨
          (∃ c off, targetOf va = .clm c off ∧ (c ≠ b.core ∨ ¬Drained s b))
        (away → waits = true → exec i s = .next (s.awaitBuffer b)) ∧
        (away → waits = false → exec i s = .next ((s.sendsBank b va 4 op reply (acq (targetOf va))).parkAdvance b 1 reply.memValue)) ∧
        (targetOf va = .paged → exec i s = .next ((s.sendsHome b va 4 op reply false).parkAdvance b 1 reply.memValue))
    (∀ z, sent rightsR .ldfe (.reg d 4 z) (fun t => targetScope b.core t == .dev || targetScope b.core t == .sys)
      (fun _ => True) (.ldfe g d a r z y)) ∧
    sent rightsW (.stfe ((l.reg d).setWidth 32)) .nothing (fun _ => false)
      (fun va => Released s b (targetScope b.core (targetOf va))) (.stfe g d a r y)

/-- R259, R270: `pref` always completes and changes nothing but the requests on their way; `cwb` and `cinv` of a paged line
enter the store buffer and park until the home acknowledges, and have no effect at a CLM or a TSP. That an offset is
sign-extended is the model's choice (assumption 15). -/
def Claims.CacheControlResult : Prop :=
  ∀ (s : State) (b : Barrel) (g : Guard) (a : Reg), Runs s b g →
    let l := b.held.line
    let pref (_ : Word64) (i : Instr) : Prop := ∃ rs, exec i s = .next (({ s with reqs := s.reqs ++ rs } : State).complete b l)
    let cache (op : AccessOp) (n : Rights) (x : Word64) (i : Instr) : Prop :=
      ∀ va, Reaches s b .g (l.reg a + x).toNat 1 va n →
        (targetOf va = .paged → HasRoom s b →
          exec i s = .next ((s.buffer b { who := b.who, va := va / 256 * 256, size := 256, op := op, reply := .nothing,
                                          posted := false, acq := false }).parkAdvance b 1 8)) ∧
        ((∃ c off, targetOf va = .clm c off ∨ targetOf va = .tsp c off ∨ targetOf va = .reg c off) →
          exec i s = .next (s.complete b l))
    (∀ x, SignedForms b pref (fun r => .pref g a r x) (.prefRL g a x) ∧ ConstForm s b pref (.prefRK g a x)) ∧
    ImmForm pref (.prefRI g a) ∧
    SignedForms b (cache .cwb rightsR) (fun r => .cwb g a r) (.cwbRL g a) ∧ ConstForm s b (cache .cwb rightsR) (.cwbRK g a) ∧
    ImmForm (cache .cwb rightsR) (.cwbRI g a) ∧
    SignedForms b (cache .cinv rightsW) (fun r => .cinv g a r) (.cinvRL g a) ∧
    ConstForm s b (cache .cinv rightsW) (.cinvRK g a) ∧ ImmForm (cache .cinv rightsW) (.cinvRI g a)

/-- Full/empty accesses, prefetches, `cwb` and `cinv`. -/
def Obligations.FullEmptyAndCacheControl : Prop :=
  Claims.FullEmptyResult ∧ Claims.FullEmptySent ∧ Claims.CacheControlResult

/-- R257, R259, R36, R39: the checks of an access in their order: range, alignment, rights and target, each with its fault; a
PLB miss parks the thread with KIND PAGE and class 0, and an access whose refill was refused takes the protection fault of its
reissue, which is the model's way to give it (assumption 13). That an offset is sign-extended is the model's choice
(assumption 15). -/
def Obligations.AccessFaults : Prop :=
  ∀ (s : State) (b : Barrel) (g : Guard) (d a r : Reg) (o : Option Scope) (y : Space) (z : Bool) (w : Width), Runs s b g →
    let l := b.held.line
    let ea := (l.reg a + l.reg r).toNat
    let stops (n : Nat) (need : Rights) (acc : AccessKind) (i : Instr) : Prop :=
      (y = .g → 2 ^ 56 ≤ ea → exec i s = .next (s.fault b .protection acc (ea % 2 ^ 56))) ∧
      (y = .l → 0x18000 ≤ ea → exec i s = .next (s.fault b .protection acc ((clmBase b.core + ea) % 2 ^ 56))) ∧
      (y = .t → 0x80000 ≤ ea → exec i s = .next (s.fault b .protection acc ((tspBase (b.core / 8) + ea) % 2 ^ 56))) ∧
      ∀ va, spaceAddr b.core y ea = some va →
        (va % n ≠ 0 → exec i s = .next (s.fault b .misaligned acc va)) ∧
        (va % n = 0 → s.checkRights b.core b.held.va l.domain va need = .violation →
          exec i s = .next (s.fault b .protection acc va)) ∧
        (va % n = 0 → s.checkRights b.core b.held.va l.domain va need = .miss →
          exec i s = .next (({ s with plbFills := s.plbFills ++ [{ core := b.core, who := b.who, va := va }] } : State).park b 8
            (va / 2 ^ 16 % 2 ^ 24))) ∧
        (va % n = 0 → s.checkRights b.core b.held.va l.domain va need = .denied →
          let c := s.core b.core
          let left := c.denied.filter fun d => !(d.ctx == b.held.va && d.va == va)
          exec i s = .next ((s.setCore b.core { c with denied := left }).fault b .protection acc va)) ∧
        (va % n = 0 → Allowed s b va need → targetOf va = .hole → exec i s = .next (s.fault b .protection acc va)) ∧
        (va % n = 0 → Allowed s b va need → ∀ c off, targetOf va = .tsp c off → 0x78000 ≤ off →
          exec i s = .next (s.fault b .protection acc va)) ∧
        (va % n = 0 → Allowed s b va need → n = 16 → ∀ die off, targetOf va = .reg die off →
          exec i s = .next (s.fault b .misaligned acc va))
    stops (widthBits w / 8) rightsR .load (.ld g d a r o y z w) ∧ stops (widthBits w / 8) rightsW .store (.st g d a r o y w) ∧
    stops 16 rightsR .load (.ld2 g d a r o y) ∧ stops 16 rightsW .store (.st2 g d a r o y)

/-! ## Atomics and queues (R271 to R274, R326) -/

/-- R271, R272, R273: an atomic at a word of the core's own CLM stores its new value, gives the old one to its target and
completes in the barrel; `afadd` raises the flags of its rounding. A release needs DEFERRED_PC = 0. That an offset is
sign-extended is the model's choice (assumption 15). -/
def Claims.AtomicResult : Prop :=
  ∀ (s : State) (b : Barrel) (g : Guard) (d a : Reg), Runs s b g → s.MemoryOk → Drained s b →
    let l := b.held.line
    let own (n : Nat) (o : AOrd) (i : Instr) (new : Nat → Nat) (put : Nat → Line) : Prop :=
      ∀ va, Reaches s b .g (l.reg a).toNat n va rightsRWA → OwnWord s b va → s.anyPoison va n = false →
        (o = .rel ∨ o = .ar → l.deferredPc = 0) →
        let m := memNat s.mem va n
        ∃ t, Stores s va n (new m) t ∧ exec i s = .next (t.complete b (put m))
    let size (w : AWidth) : Nat := match w with | .w64 => 8 | .w32 => 4
    let int (fn : Nat → Nat → Nat → Nat) (rr : Reg → AOrd → AWidth → Instr) (rl : AOrd → AWidth → BitVec 32 → Instr) : Prop :=
      ∀ o w, SignedForms b (fun x i => own (size w) o i (fun m => fn (8 * size w) m x.toNat)
        (fun m => l.setReg d (BitVec.ofNat 64 m))) (fun r => rr r o w) (rl o w)
    int (fun _ m x => m + x) (.aadd g d a) (.aaddRL g d a) ∧ int (fun _ m x => m &&& x) (.aand g d a) (.aandRL g d a) ∧
    int (fun _ m x => m ||| x) (.aor g d a) (.aorRL g d a) ∧ int (fun _ m x => m ^^^ x) (.axor g d a) (.axorRL g d a) ∧
    int (fun w m x => if signed w x < signed w m then x else m) (.amin g d a) (.aminRL g d a) ∧
    int (fun w m x => if signed w m < signed w x then x else m) (.amax g d a) (.amaxRL g d a) ∧
    int (fun w m x => min m (x % 2 ^ w)) (.aminu g d a) (.aminuRL g d a) ∧
    int (fun w m x => max m (x % 2 ^ w)) (.amaxu g d a) (.amaxuRL g d a) ∧
    int (fun _ _ x => x) (.aswp g d a) (.aswpRL g d a) ∧
    (∀ (e : Reg) (o : AOrd),
      let cas (n ex : Nat) (x : Nat) (i : Instr) := own n o i (fun m => if m = ex % 2 ^ (8 * n) then x else m)
      let low (m : Nat) : Line := l.setReg d (BitVec.ofNat 64 m)
      let old (m : Nat) : Line := low m |>.setReg (pairOf d) (BitVec.ofNat 64 (m / 2 ^ 64))
      let pair (r : Reg) : Nat := (l.reg r).toNat + 2 ^ 64 * (l.reg (pairOf r)).toNat
      SignedForms b (fun x i => cas 8 (l.reg e).toNat x.toNat i low) (fun r => .acas g d a e r o .w64) (.acasRL g d a e o .w64) ∧
      SignedForms b (fun x i => cas 4 (l.reg e).toNat x.toNat i low) (fun r => .acas g d a e r o .w32) (.acasRL g d a e o .w32) ∧
      ∀ r, cas 16 (pair e) (pair r) (.acas g d a e r o .w128) old) ∧
    ∀ (o : AOrd) (f : AFmt),
      let fmt : FFmt := match f with | .f64 => .f64 | .f32 => .f32
      let n : Nat := match f with | .f64 => 8 | .f32 => 4
      let sum (x : XVal) (m : Nat) : Nat × FpFlags := match XVal.add false (decodeFloat fmt.fmt.params m) x with
        | some v => roundF fmt.fmt.params v .rne false 0
        | none => (fmt.fmt.params.nan, { FpFlags.none with fv := true })
      let fadd (x : XVal) (i : Instr) := own n o i (fun m => (sum x m).1)
        (fun m => (l.setReg d (BitVec.ofNat 64 m)).raise (sum x m).2)
      let xadd (x : XVal) (i : Instr) := own 16 o i (fun m => eawAdd m x)
        (fun m => (l.setReg d (BitVec.ofNat 64 m)).setReg (pairOf d) (BitVec.ofNat 64 (m / 2 ^ 64)))
      (∀ r, fadd (floatOf fmt (l.reg r)) (.afadd g d a r o f) ∧ xadd (floatOf fmt (l.reg r)) (.axadd g d a r o f)) ∧
      ∀ v, fadd (floatTail fmt v) (.afaddRL g d a o f v) ∧ xadd (floatTail fmt v) (.axaddRL g d a o f v)

/-- R271, R326: `qpush` and `qpop` at a TSP, and an atomic of the paged space, enter the store buffer, and the thread parks with
KIND MEM and its target as VALUE; a queue outside a TSP is a protection violation. That a parked thread already has the PC of
the next instruction is the model's choice (assumption 48). That an offset is sign-extended is the model's choice (assumption
15). -/
def Claims.QueueAndRemoteAtomics : Prop :=
  ∀ (s : State) (b : Barrel) (g : Guard) (d a : Reg), Runs s b g →
    let l := b.held.line
    let sends (n : Nat) (fn : AtomicFn) (x : Nat) (reply : ReplyTo) (va : Nat) (acq : Bool) : Host.Outcome State Fault Refusal :=
      .next ((s.buffer b { who := b.who, va := va, size := n, op := .atomic fn x, reply := reply, posted := false,
                           acq := acq }).parkAdvance b 1 d.val)
    let queue (fn : AtomicFn) (pf : PReg) (x : Word64) (i : Instr) : Prop :=
      ∀ va, Reaches s b .g (l.reg a).toNat 16 va rightsRWA →
        (∀ off, OwnTsp b va off → Drained s b → l.deferredPc = 0 → HasRoom s b →
          exec i s = sends 16 fn x.toNat (.queue d pf) va false) ∧
        (∀ c off, targetOf va = .tsp c off → off < descTable → Released s b (targetScope b.core (.tsp c off)) → ¬HasRoom s b →
          AwaitsBuffer s b (exec i s)) ∧
        (∀ c off, targetOf va = .clm c off ∨ targetOf va = .reg c off → exec i s = .next (s.fault b .protection .atomic va))
    (∀ pf, SignedForms b (queue .qpush pf) (fun r => .qpush g d a r pf) (.qpushRL g d a pf) ∧
      queue .qpop pf 0 (.qpop g d a pf)) ∧
    ∀ o, SignedForms b (fun x i => ∀ va, Reaches s b .g (l.reg a).toNat 8 va rightsRWA → targetOf va = .paged →
        (o = .rel ∨ o = .ar → Released s b .sys) → HasRoom s b →
        exec i s = sends 8 .add x.toNat (.reg d 8 true) va (o == .acq || o == .ar))
      (fun r => .aadd g d a r o .w64) (.aaddRL g d a o .w64)

/-- Atomics on the own banks, and those that leave the core. -/
def Obligations.Atomics : Prop := Claims.AtomicResult ∧ Claims.QueueAndRemoteAtomics

/-! ## Fences, barriers and sync words (R263, R275 to R278) -/

/-- R263, R294, R302: a `fence` waits until the buffer holds nothing of its context, then for its probes, of which core and cluster
scope have none; after them it clears TOUCHED at device and system scope, and the ports at system scope, and completes with its
acquire, or takes the deferred-store fault. How long a held head is waited for is the model's choice (assumption 52), and so is how it
waits for the pending stores that the context has read (assumption 125). -/
def Obligations.FenceResult : Prop :=
  ∀ (s : State) (b : Barrel) (g : Guard) (sc : Scope), Runs s b g →
    let i := Instr.fence g sc
    let c := b.cleared sc
    let t : State := { s with barrel := some c }
    (¬Drained s b → AwaitsBuffer s b (exec i s)) ∧
    (Drained s b → ¬Probed b sc →
      exec i s = .next (({ s with fences := s.fences ++
        [{ who := b.who, scope := sc, probes := fenceProbes b sc, echoed := [] }] } : State).park b 1 8)) ∧
    (Drained s b → Probed b sc → b.held.line.deferredPc = 0 →
      exec i s = .next ((t.acquire c.core sc).complete c c.held.line)) ∧
    (Drained s b → Probed b sc → b.held.line.deferredPc ≠ 0 → ∃ r : FaultRec,
      exec i s = .next { s with barrel := some { c with held := { c.held with
        line := (c.held.line.setLastFault 0x0C).setState .faulted, records := c.held.records ++ [r] } } } ∧
      r.code = .deferredStore ∧ r.cls = .deferred ∧ r.access = .store ∧ r.pc = b.held.line.deferredPc ∧ r.aux = b.held.line.pc ∧
      r.ctx = b.held.va) ∧
    (sc = .core ∨ sc = .clu → Probed b sc ∧ c = b)

/-- R275, R276, R99: an arrival at a barrier word of the core's own cluster whose bank is granted. It refuses a poisoned word
and one that breaks the format; one that does not complete the count adds itself and its operand, and `barc` waits with KIND 5,
or, with the wait table full, makes no arrival and waits for its retry; the last one starts the next generation and releases the
waiters of this one with VALUE. That an offset is sign-extended is the model's choice (assumption 15). -/
def Claims.BarrierResult : Prop :=
  ∀ (s : State) (b : Barrel) (g : Guard) (d a : Reg), Runs s b g → s.MemoryOk → Drained s b → b.held.line.deferredPc = 0 →
    let l := b.held.line
    let cl := clusterOfCore b.core
    let arrive (wait : Bool) (x : Word64) (i : Instr) : Prop :=
      ∀ va off u, Reaches s b .g (l.reg a).toNat 16 va rightsRW → OwnTsp b va off → s.granted b va 16 = some u →
        let w := memNat s.mem va 16
        let count := w % 2 ^ 16
        let arrived := w / 2 ^ 16 % 2 ^ 16
        let op := w / 2 ^ 32 % 2 ^ 4
        let gen := w / 2 ^ 36 % 2 ^ 28
        let v := barrierCombine op (w / 2 ^ 64) x.toNat
        (s.anyPoison va 16 = true → exec i s = .next (u.takeFault b l .poisonedData .atomic 0 va)) ∧
        (s.anyPoison va 16 = false → count = 0 ∨ 5 ≤ op ∨ count ≤ arrived → exec i s = .next (u.fault b .bounds .atomic va)) ∧
        (s.anyPoison va 16 = false → 0 < count → op < 5 → arrived + 1 < count →
          (wait = false → ∃ t, Stores u va 16 (barrierWord count (arrived + 1) op gen v) t ∧
            exec i s = .next (t.complete b (l.setReg d (BitVec.ofNat 64 gen)))) ∧
          (wait = true → ∀ n, freeIndex (s.cluster cl).waits 256 0 = some n →
            ∃ t, Stores u va 16 (barrierWord count (arrived + 1) op gen v) t ∧
              let k := t.cluster cl
              let e : WaitEntry := { who := b.who, addr := va, cond := .bar gen d, since := s.cycle, limit := k.barLimit.toNat }
              exec i s = .next ((t.setCluster cl { k with waits := Table.set k.waits n e }).parkAdvance b 5
                (cl * 2 ^ 17 + n))) ∧
          (wait = true → freeIndex (s.cluster cl).waits 256 0 = none →
            exec i s = .next (({ u with noents := u.noents ++ [(b.who, 5, s.cycle)] } : State).park b 5 (cl * 2 ^ 17 + 2 ^ 8)))) ∧
        (s.anyPoison va 16 = false → 0 < count → op < 5 → arrived + 1 = count →
          ∃ t, Stores u va 16 (barrierWord count 0 op ((gen + 1) % 2 ^ 28) (barrierIdentity op)) t ∧
            exec i s = .next ((t.wakeWaiters va
              (fun c => match c with | .bar h _ => h == gen | .full | .empty | .sync _ => false)
              (fun c => match c with | .bar _ r => .done [(r, BitVec.ofNat 64 v)] none 0 | .full | .empty | .sync _ => .wake)).complete b
                (l.setReg d (if wait then BitVec.ofNat 64 v else BitVec.ofNat 64 gen))))
    SignedForms b (arrive false) (fun r => .bara g d a r) (.baraRL g d a) ∧
    SignedForms b (arrive true) (fun r => .barc g d a r) (.barcRL g d a)

/-- R105, R277, R278, R99: with no store of its own to the word in its core's buffer, `swait` at a word whose bank is granted returns a GENERATION that differs from its operand and waits
with KIND 4 for one that does not; `sarm` arms a guard on a range of its word's TSP, or releases the guard of its word. That an
offset is sign-extended is the model's choice (assumption 15). -/
def Claims.SyncWordResult : Prop :=
  ∀ (s : State) (b : Barrel) (g : Guard) (d a : Reg), Runs s b g → s.MemoryOk →
    let l := b.held.line
    let cl := clusterOfCore b.core
    let k := s.cluster cl
    let swait (x : Word64) (i : Instr) : Prop :=
      ∀ va off u, Reaches s b .g (l.reg a).toNat 16 va rightsR → OwnTsp b va off → s.ownAhead b va = false →
          s.granted b va 16 = some u →
        let now := memNat s.mem va 16 / 2 ^ 64 % 2 ^ 32
        (s.anyPoison va 16 = true → exec i s = .next (u.takeFault b l .poisonedData .load 0 va)) ∧
        (s.anyPoison va 16 = false → now ≠ x.toNat % 2 ^ 32 → exec i s = u.withReg b d (BitVec.ofNat 64 now)) ∧
        (s.anyPoison va 16 = false → now = x.toNat % 2 ^ 32 →
          exec i s = .next (u.waitsAt b va (.sync (x.setWidth 32)) k.barLimit.toNat 4))
    let sarm (q : Reg) (y : Space) (rel : Bool) (pf : PReg) (x : Word64) (i : Instr) : Prop :=
      ∀ va off u, Reaches s b y (l.reg a).toNat 16 va rightsW → OwnTsp b va off → s.ownAhead b va = false →
          s.granted b va 16 = some u →
        let word (v : Nat) : Nat := setBits (memNat s.mem va 16) 96 96 v
        let guards (x : Table GuardRange) : State := u.setCluster cl { u.cluster cl with guards := x }
        let ends (n : Nat) (t : State) : State := t.complete b ((l.setReg d (BitVec.ofNat 64 n)).setPredicate pf false)
        let refused : State := u.complete b (l.setPredicate pf true)
        (s.anyPoison va 16 = true → rel = true → exec i s = .next (u.takeFault b l .poisonedData .atomic 0 va)) ∧
        (s.anyPoison va 16 = false → rel = true →
          (∀ n e, k.guards.find? (fun e => e.2.sync == va - tspBase cl) = some (n, e) →
            ∃ t, Stores (guards (Table.erase k.guards n)) va 16 (word 0) t ∧ exec i s = .next (ends n t)) ∧
          (k.guards.find? (fun e => e.2.sync == va - tspBase cl) = none → exec i s = .next refused)) ∧
        (rel = false → ∀ st so, spaceAddr b.core y (l.reg q).toNat = some st → targetOf st = .tsp cl so →
          (rangeOk va st x.toNat = false → exec i s = .next (s.fault b .bounds .none 0)) ∧
          (rangeOk va st x.toNat = true → s.anyPoison va 16 = false →
            let busy := k.guards.any fun e => decide (0 < overlapBytes so x.toNat e.2.start e.2.len)
            (busy = true ∨ freeIndex k.guards 16 0 = none → exec i s = .next refused) ∧
            let range : GuardRange := { start := so, len := x.toNat, sync := va - tspBase cl }
            (busy = false → ∀ n, freeIndex k.guards 16 0 = some n →
              ∃ t, Stores (guards (Table.set k.guards n range)) va 16 (word 1) t ∧ exec i s = .next (ends n t))))
    SignedForms b swait (fun r => .swait g d a r) (.swaitRL g d a) ∧ ConstForm s b swait (.swaitRK g d a) ∧
    ImmForm swait (.swaitRI g d a) ∧
    ∀ q y rel pf, UnsignedForms b (sarm q y rel pf) (fun r => .sarm g d a q r y rel pf) (.sarmRL g d a q y rel pf)

/-- R98, R99, R259, R276, R277, R285, R287: an operation on a barrier or sync word of another cluster's TSP, or of one whose bank
another port has in this cycle, goes to that bank and parks with KIND MEM and its destination as VALUE, after the context's own
stores to the word have left its core's buffer; one in the paged space goes to
its home, which refuses it; a CLM or a register block is a protection violation. That a parked thread already has the PC of the
next instruction is the model's choice (assumption 48). That an offset is sign-extended is the model's choice (assumption 15).
-/
def Claims.SyncSent : Prop :=
  ∀ (s : State) (b : Barrel) (g : Guard) (d a r : Reg), Runs s b g →
    let l := b.held.line
    let x := l.reg r
    let sent (n : Rights) (acc : AccessKind) (rel acq : Bool) (op : AccessOp) (size : Nat) (i : Instr) : Prop :=
      ∀ va, Reaches s b .g (l.reg a).toNat 16 va n →
        let sc := targetScope b.core (targetOf va)
        let waits : Bool := acq && (sc == .dev || sc == .sys)
        let reply := ReplyTo.reg d size true
        (∀ c off, targetOf va = .tsp c off → off < descTable → (rel = true → Released s b sc) →
          (s.ownAhead b va = true → exec i s = .next (s.awaitBuffer b)) ∧
          (s.ownAhead b va = false → c ≠ clusterOfCore b.core ∨ s.granted b va 16 = none →
            exec i s = .next ((s.sendsBank b va 16 op reply waits).parkAdvance b 1 d.val))) ∧
        (targetOf va = .paged → (rel = true → Released s b sc) →
          exec i s = .next ((s.sendsHome b va 16 op reply waits).parkAdvance b 1 d.val)) ∧
        (∀ c off, targetOf va = .clm c off ∨ targetOf va = .reg c off → exec i s = .next (s.fault b .protection acc va))
    sent rightsRW .atomic true false (.barrier false x) 8 (.bara g d a r) ∧
    sent rightsRW .atomic true true (.barrier true x) 8 (.barc g d a r) ∧
    sent rightsR .load false true (.swait (x.setWidth 32)) 4 (.swait g d a r)

/-- Barriers and synchronisation words. -/
def Obligations.BarriersAndSync : Prop := Claims.BarrierResult ∧ Claims.SyncWordResult ∧ Claims.SyncSent

/-! ## Copy jobs (R279 to R282) -/

/-- R279, R280, R281: a copy instruction hands its job to a queue, its own cluster's or the tile's home, and parks with KIND
MEM; its operands are checked first. The ACCESS and FAULT_VA of a refused job are the model's choices (assumption 80). That a
parked thread already has the PC of the next instruction is the model's choice (assumption 48). -/
def Claims.CopySubmission : Prop :=
  ∀ (s : State) (b : Barrel) (g : Guard) (d a c : Reg) (pf : PReg), Runs s b g → Released s b .dev →
    let l := b.held.line
    let cl := clusterOfCore b.core
    let submits (cl : Nat) (kind : JobKind) : Host.Outcome State Fault Refusal :=
      .next (({ s with jobReqs := s.jobReqs ++ [{ who := b.who, cluster := cl, kind := kind, d := d, pf := pf }] } :
        State).parkAdvance b 1 d.val)
    let src := (l.reg a).toNat
    let dst := (l.reg c).toNat
    SignedForms b (fun x i =>
        (x.toNat < 2 ^ 32 → exec i s = submits cl (.copy src dst x.toNat)) ∧
        (2 ^ 32 ≤ x.toNat → exec i s = .next (s.fault b .bounds .none 0)))
      (fun r => .cpy g d a c r pf) (.cpyRL g d a c pf) ∧
    SignedForms b (fun x i =>
        let n := x.toNat % 2 ^ 12 + 1
        let rows := x.toNat / 2 ^ 12 % 2 ^ 12 + 1
        let ps := x.toNat / 2 ^ 44 % 2 ^ 20
        let pd := x.toNat / 2 ^ 24 % 2 ^ 20
        (n ≤ ps ∨ rows = 1 → exec i s = submits cl (.copy2 src dst rows n ps pd)) ∧
        (ps < n → rows ≠ 1 → exec i s = .next (s.fault b .bounds .none 0)))
      (fun r => .cpy2 g d a c r pf) (.cpy2RL g d a c pf) ∧
    (∀ r : Reg,
      let list := (l.reg r).toNat
      let w := (l.reg (pairOf r)).toNat
      let n := w % 2 ^ 32
      let e := w / 2 ^ 32 % 2 ^ 4
      (e ≤ 12 → w < 2 ^ 36 → list % 4 = 0 → exec (.cpyg g d a c r pf) s = submits cl (.gather src dst list n e)) ∧
      (12 < e ∨ 2 ^ 36 ≤ w → exec (.cpyg g d a c r pf) s = .next (s.fault b .bounds .none 0)) ∧
      (e ≤ 12 → w < 2 ^ 36 → list % 4 ≠ 0 → exec (.cpyg g d a c r pf) s = .next (s.fault b .misaligned .copySrc list))) ∧
    (∀ sub, SignedForms b (fun x i =>
        (src < 2 ^ 32 → exec i s = submits (handleCluster src) (if sub then .tloadSub src else .tload src dst x.toInt)) ∧
        (2 ^ 32 ≤ src → exec i s = .next (s.fault b .staleHandle .copyDst src)))
      (fun r => .tload g d a c r sub pf) (.tloadRL g d a c sub pf)) ∧
    SignedForms b (fun x i =>
        (src < 2 ^ 32 → exec i s = submits (handleCluster src) (.tstore src dst x.toInt)) ∧
        (2 ^ 32 ≤ src → exec i s = .next (s.fault b .staleHandle .copySrc src)))
      (fun r => .tstore g d a c r pf) (.tstoreRL g d a c pf)

/-- R108, R109, R110, R282: `jpoll` answers with the status word; `jwait` completes for a DONE or unknown job and else waits
with KIND JOB; `jcancel` ends a job that has written nothing, lets an ACTIVE one end after its line in flight and waits for it,
and takes a `tload.sub` out of its refresh; a queue of another cluster answers by a reply; an identifier of another partition or
domain is refused. When a cancelled job ends is the model's choice (assumption 81). That a parked thread already has the PC of
the next instruction is the model's choice (assumption 48). -/
def Claims.JobQueries : Prop :=
  ∀ (s : State) (b : Barrel) (g : Guard) (d a : Reg), Runs s b g →
    let l := b.held.line
    let j := (l.reg a).toNat
    let cl := clusterOfCore b.core
    let slot := j % 2 ^ 6
    let word (st : Option JobStatus) : Word64 := match st with | some st => BitVec.ofNat 64 (2 ^ 8 + st.num) | none => 0
    let at_ := jobCluster j
    let cancels (x : JobSlot) (ends : State → State) : Prop :=
      let sub : Prop := ∃ h, x.kind = .tloadSub h
      let out := exec (.jcancel g d a) s
      (x.state = .queued ∨ (x.state = .pageWait ∧ ¬sub) → out = .next (ends (s.jobDone at_ slot .cancelled))) ∧
      (sub → x.state = .active ∨ x.state = .pageWait → out = .next (ends ((s.setCluster at_ { s.cluster at_ with
        refreshes := (s.cluster at_).refreshes.map fun r => { r with jobs := r.jobs.filter (· != slot) } }).jobDone at_ slot
          .cancelled))) ∧
      (¬sub → x.state = .active → out = .next (((s.endWith at_ slot .cancelled).jobAwait j b.who d).parkAdvance b 2 j))
    (MayName s b j → jobCluster j = cl →
      (∀ st, s.jobStatus j = some st →
        (∀ pf, exec (.jpoll g d a pf) s = .next ((s.acquire b.core .dev).complete b
          ((l.setReg d (word (some st))).setPredicate pf true))) ∧
        exec (.jwait g d a) s = .next ((s.acquire b.core .dev).complete b (l.setReg d (word (some st)))) ∧
        exec (.jcancel g d a) s = exec (.jwait g d a) s) ∧
      (s.jobStatus j = none →
        (∀ pf, exec (.jpoll g d a pf) s = .next (s.complete b ((l.setReg d 0).setPredicate pf false))) ∧
        exec (.jwait g d a) s = .next ((s.jobAwait j b.who d).parkAdvance b 2 j)) ∧
      ∀ x, s.jobOf j = some x → cancels x fun t => (t.acquire b.core .dev).complete b (l.setReg d 0x101)) ∧
    (MayName s b j → jobCluster j ≠ cl →
      let st := s.jobStatus j
      (∀ pf, exec (.jpoll g d a pf) s = .next (((if st.isSome then s.acquire b.core .dev else s).reply b.who 1
        (.done [(d, word st)] (some (pf, st.isSome)) 0)).parkAdvance b 1 d.val)) ∧
      (st = none → exec (.jwait g d a) s = .next ((s.jobAwait j b.who d).parkAdvance b 2 j)) ∧
      (st = some .expired →
        exec (.jwait g d a) s = .next ((s.acquire b.core .dev).complete b (l.setReg d (word st)))) ∧
      (∀ x, st = some x → x ≠ .expired →
        exec (.jwait g d a) s = .next ((s.reply b.who 2 (.done [(d, word st)] none 0)).parkAdvance b 2 j)) ∧
      (∀ x, st = some x → exec (.jcancel g d a) s = exec (.jwait g d a) s) ∧
      ∀ x, s.jobOf j = some x → cancels x fun t => (t.reply b.who 2 (.done [(d, 0x101)] none 0)).parkAdvance b 2 j) ∧
    (2 ^ 27 ≤ j ∨ s.inPartition l.partition (jobCluster j) = false ∨
        (∃ x, s.jobOf j = some x ∧ x.who.domain.toNat ≠ l.domain) →
      (∀ pf, exec (.jpoll g d a pf) s = .next (s.fault b .protection .none 0)) ∧
      exec (.jwait g d a) s = .next (s.fault b .protection .none 0) ∧
      exec (.jcancel g d a) s = .next (s.fault b .protection .none 0))

/-- Submissions to a copy unit and the queries of jobs. -/
def Obligations.CopyInstructions : Prop := Claims.CopySubmission ∧ Claims.JobQueries

/-! ## Tile and matrix instructions (R221 to R234, R241 to R256) -/

/-- R221, R222, R225 to R234: a tile instruction whose handles lie in one cluster sends its operation there and parks with KIND
MEM, or KIND JOB for `tfree`; a handle of more than 32 bits, handles of two clusters, a field of `tinfo` above 3 and a cluster
of `tdesc` above 2047 fault at the core. That these checks come before the release is the model's choice (assumption 69), and so
is the order of those of `tdesc` (assumption 73). That a parked thread already has the PC of the next instruction is the model's
choice (assumption 48). -/
def Obligations.TileSubmission : Prop :=
  ∀ (s : State) (b : Barrel) (g : Guard), Runs s b g → Released s b .dev →
    let l := b.held.line
    let sendsFrom (s' : State) (cl : Nat) (hs : List (Nat × Reg)) (kind : TileKind) (r : Rm) (o : Bool) (key : Word64)
        (dest : Option Reg) (wait value : Nat) (i : Instr) : Prop :=
      exec i s = .next (({ s' with tileArrivals := s'.tileArrivals ++
        [{ who := b.who, cluster := cl, kind := kind, handles := hs.map (fun h => (h.1, (l.reg h.2).toNat)), rm := r, sat := o,
           key := key, dest := dest }] } : State).waits b wait value)
    let sends := sendsFrom s
    let tile (hs : List (Nat × Reg)) (kind : TileKind) (r : Rm) (o : Bool) (key : Word64) (dest : Option Reg) (i : Instr) : Prop :=
      (∀ cl, HandlesIn l cl hs → sends cl hs kind r o key dest 1 (dest.elim 8 (·.val)) i) ∧
      (∀ h, hs.head? = some h → 2 ^ 32 ≤ (l.reg h.2).toNat →
        exec i s = .next (s.takeFault b l .staleHandle .none (BitVec.ofNat 32 (h.1 % 16 * 2 ^ 28)) (l.reg h.2).toNat)) ∧
      (∀ h ∈ hs, ∀ k ∈ hs, (∀ x ∈ hs, (l.reg x.2).toNat < 2 ^ 32) →
        handleCluster (l.reg h.2).toNat ≠ handleCluster (l.reg k.2).toNat →
        exec i s = .next (s.takeFault b l .bounds .none 0xF0000000 0))
    (∀ (d a c k : Reg) (r : Rm) (o : Bool),
      tile [(0, d), (1, a), (2, c)] .add r o (l.reg k) none (.tadd g d a c k r o) ∧
      tile [(0, d), (1, a), (2, c)] .sub r o (l.reg k) none (.tsub g d a c k r o) ∧
      tile [(0, d), (1, a), (2, c)] .mul r o (l.reg k) none (.tmul g d a c k r o) ∧
      tile [(0, d), (1, a), (2, c)] .max r o (l.reg k) none (.tmax g d a c k r o) ∧
      tile [(0, d), (1, a), (2, c)] .min r o (l.reg k) none (.tmin g d a c k r o) ∧
      tile [(0, d), (1, a), (2, c), (3, k)] .fma r o 0 none (.tfma g d a c k r o)) ∧
    (∀ (d a k : Reg) (r : Rm) (o : Bool),
      let scale (x : BitVec 32) := tile [(0, d), (1, a)] (.scale x) r o (l.reg k) none
      (∀ q, scale ((l.reg q).setWidth 32) (.tscale g d a k q r o)) ∧ (∀ v, scale v (.tscaleRL g d a k r o v)) ∧
      (∀ n, InBank s b n → scale (constWord s b n) (.tscaleRK g d a k r o n)) ∧
      tile [(0, d), (1, a)] .cvt r o (l.reg k) none (.tcvt g d a k r o)) ∧
    (∀ (d a : Reg) (r : Rm) (y : Bool),
      tile [(0, d), (1, a)] (.redMax true y) r false 0 none (.tredmax g d a true y r) ∧
      tile [(1, a)] (.redMax false y) r false 0 (some d) (.tredmax g d a false y r) ∧
      tile [(0, d), (1, a)] (.redSum true) r false 0 none (.tredsum g d a true r) ∧
      tile [(1, a)] (.redSum false) r false 0 (some d) (.tredsum g d a false r) ∧
      tile [(0, d), (1, a)] .trans r y 0 none (.ttrans g d a r y)) ∧
    (∀ (d : Reg) (r : Rm) (o : Bool),
      let fill (n : Bool) (x : Word64) := tile [(0, d)] (.fill n x) r o 0 none
      (∀ n, SignedForms b (fill n) (fun q => .tfill g d q n r o) (.tfillRL g d n r o)) ∧
      ConstForm s b (fill false) (.tfillRK g d r o)) ∧
    (∀ (d a : Reg),
      let get (x : Word64) := tile [(1, a)] (.get x) .rne false 0 (some d)
      let set (x : Word64) := tile [(0, d)] (.set (l.reg a) x) .rne false 0 none
      let info (x : Word64) (i : Instr) : Prop :=
        (x.toNat ≤ 3 → tile [(1, a)] (.info x.toNat) .rne false 0 (some d) i) ∧
        (3 < x.toNat → (l.reg a).toNat < 2 ^ 32 → exec i s = .next (s.takeFault b l .bounds .none 0xF0000000 0))
      SignedForms b get (fun q => .tget g d a q) (.tgetRL g d a) ∧ ConstForm s b get (.tgetRK g d a) ∧ ImmForm get (.tgetRI g d a) ∧
      SignedForms b set (fun q => .tset g d a q) (.tsetRL g d a) ∧ ConstForm s b set (.tsetRK g d a) ∧ ImmForm set (.tsetRI g d a) ∧
      (∀ q, info (l.reg q) (.tinfo g d a q)) ∧ ImmForm info (.tinfoRI g d a)) ∧
    (∀ (a : Reg) (cl : Nat), HandlesIn l cl [(1, a)] →
      sends cl [(1, a)] .free .rne false 0 none 2 (2 ^ 27 + cl * 2 ^ 16 + (l.reg a).toNat % 2 ^ 10) (.tfree g a)) ∧
    ∀ (d a : Reg) (pf : PReg) (va v : Nat) (u : State), Sees s b .g (l.reg a).toNat 32 va v u →
      let desc (p : PReg) (x : Word64) (i : Instr) : Prop :=
        let cl := if x = BitVec.allOnes 64 then clusterOfCore b.core else x.toNat
        (2047 < cl → exec i s = .next (u.takeFault b l .bounds .none 0xF0000000 0)) ∧
        (cl ≤ 2047 → s.inPartition l.partition cl = false →
          exec i s = .next (u.takeFault b l .protection .none 0xF0000000 0)) ∧
        (cl ≤ 2047 → s.inPartition l.partition cl = true →
          sendsFrom u cl [] (.desc (BitVec.ofNat 256 v) p) .rne false 0 (some d) 1 d.val i)
      SignedForms b (desc pf) (fun q => .tdesc g d a q pf) (.tdescRL g d a pf) ∧ ConstForm s b (desc pf) (.tdescRK g d a pf) ∧
      ImmForm (desc 0) (.tdescRI g d a)

/-- R235, R241, R253 to R256: a matrix instruction sends its request to the home cluster of its handles, with the PRIORITY and
hold class of its context, and parks with KIND MEM. That the checks of the handles come before the release is the model's choice
(assumption 69). That a parked thread already has the PC of the next instruction is the model's choice (assumption 48). -/
def Obligations.MatrixSubmission : Prop :=
  ∀ (s : State) (b : Barrel) (g : Guard) (d a c : Reg) (cl : Nat), Runs s b g → Released s b .dev →
    let l := b.held.line
    let sends (hs : List (Nat × Reg)) (kind : MxKind) (dest : Option Reg) (i : Instr) : Prop :=
      HandlesIn l cl hs →
      exec i s = .next (({ s with mxArrivals := s.mxArrivals ++
        [{ who := b.who, cluster := cl, kind := kind, handles := hs.map (fun h => (h.1, (l.reg h.2).toNat)),
           priority := l.priority, holdClass := l.holdClass, dest := dest, arrived := s.cycle }] } : State).waits b 1
        (dest.elim 8 (·.val)))
    let mul (zero t n : Bool) (x : Word64) := sends [(0, d), (1, a), (2, c)]
      (.mxm zero t n (signed 8 x.toNat) (signed 8 (x.toNat / 256)) (decide (2 ^ 16 ≤ x.toNat))) none
    (∀ t n, SignedForms b (mul false t n) (fun q => .mxm g d a c q t n) (.mxmRL g d a c t n) ∧
      ConstForm s b (mul false t n) (.mxmRK g d a c t n) ∧
      SignedForms b (mul true t n) (fun q => .mxmz g d a c q t n) (.mxmzRL g d a c t n) ∧
      ConstForm s b (mul true t n) (.mxmzRK g d a c t n)) ∧
    (∀ all, sends [(1, a)] (.flush all) none (.mxflush g a all) ∧ sends [(1, a)] (.exp all) (some d) (.mxexp g d a all)) ∧
    SignedForms b (fun x => sends [(1, a)] (.norm x) (some d)) (fun q => .mxnorm g d a q) (.mxnormRL g d a)

/-! ## Tasks (R323 to R330) -/

/-- R328, R329: `sleep` parks until CYCLE ≥ e, completes at once for 0 and refuses 2^35 or more; `prio` writes the old
PRIORITY and sets the new one under its cap. -/
def Claims.SleepAndPriority : Prop :=
  ∀ (s : State) (b : Barrel) (g : Guard) (d : Reg), Runs s b g →
    let l := b.held.line
    UnsignedForms b (fun x i =>
        let e := s.cycle + x.toNat
        (x = 0 → exec i s = .next (s.complete b l)) ∧
        (2 ^ 35 ≤ x.toNat → exec i s = .next (s.fault b .bounds .none 0)) ∧
        (x ≠ 0 → x.toNat < 2 ^ 35 → exec i s = .next (({ s with timers := s.timers ++ [(b.who, 9, e)] } : State).waits b 9
          (e / 2 ^ 8 % 2 ^ 28)))) (.sleep g) (.sleepRL g) ∧
    UnsignedForms b (fun x i =>
        let cap := ((Table.get? s.regs.prioCap l.partition).getD 31#64).toNat
        ∃ l' : Line, exec i s = .next (s.complete b (l'.setReg d (BitVec.ofNat 64 l.priority))) ∧
          l'.priority = min (min x.toNat 31) cap ∧ { l' with status := l.status } = l ∧
          ∀ n, n < 4 ∨ 9 ≤ n → l'.status.getLsbD n = l.status.getLsbD n) (.prio g d) (.prioRL g d)

/-- R323: `spawn` with a bad entry PC, or an AFFINITY outside the parent's, faults, and at the largest JOIN_COUNT it sets its
predicate and changes nothing else; otherwise it parks with KIND MEM and VALUE d, with its PC, until its reply makes the child
(assumption 67): a READY line with the parent's VA, PRIORITY, DOMAIN, PARTITION and USER. -/
def Claims.SpawnResult : Prop :=
  ∀ (s : State) (b : Barrel) (g : Guard) (d a c : Reg) (st : Steal) (pf : PReg), Runs s b g →
    let l := b.held.line
    UnsignedForms b (fun x i =>
        let want := x.toNat / 2 ^ 32 % 2 ^ 4
        let aff := if want = 0 then l.affinity else want
        (2 ^ 36 ≤ x.toNat ∨ x.toNat % 4 ≠ 0 → exec i s = .next (s.fault b .bounds .none 0)) ∧
        (x.toNat < 2 ^ 36 → x.toNat % 4 = 0 →
          (aff &&& l.affinity = 0 → exec i s = .next (s.fault b .protection .none 0)) ∧
          (aff &&& l.affinity ≠ 0 → l.joinCount = 0xFFFFFFFF →
            exec i s = .next (s.complete b (l.setPredicate pf true))) ∧
          (aff &&& l.affinity ≠ 0 → l.joinCount ≠ 0xFFFFFFFF → Settled s b .sys → ∃ child : Line,
            child.regs = ⟨0, l.reg c, 0, 0, 0, 0, 0, 0⟩ ∧ child.pc = x.setWidth 32 ∧ child.link = l.reg a ∧
            child.parent.toNat = b.held.va % 2 ^ 64 ∧ child.inState .ready = true ∧ child.priority = l.priority ∧
            child.domain = l.domain ∧ child.partition = l.partition ∧ child.affinity = aff % 16 ∧ child.user = l.user ∧
            child.joinCount = 0 ∧ child.waitTag = 0 ∧ child.deferredPc = 0 ∧
            exec i s = .next ((s.reply b.who 1
              (.child child st d pf b.nextPc (decide (2 ^ 16 ≤ b.next)))).park b 1 d.val))))
      (fun r => .spawn g d a c r st pf) (.spawnRL g d a c st pf)

/-- R310, R316, R323: the reply of a `spawn` to its context in a context L1. It obtains a free pool line, writes the child there,
raises JOIN_COUNT, enters the child into the core's deque, which takes 16, or for a child that the brick may share into the
ready queue, and gives its VA; without a free line, or with a full deque for a child of the core alone, it sets the predicate.
Either way the context goes on at its next PC. The order of the parts is the model's choice (assumption 67). -/
def Claims.ChildBorn : Prop :=
  ∀ (s : State) (n va c e : Nat) (h : Held) (m : Msg) (child : Line) (st : Steal) (d : Reg) (pf : PReg) (next : BitVec 32)
    (wrapped : Bool), HeldAt s va c e h → s.msgs[n]? = some m → m.ctx = va → m.handle = none → m.kind = 1 →
    m.body = .child child st d pf next wrapped → Answers m h.line →
    let t := ({ s with msgs := listErase s.msgs n } : State).startRetry m
    let ends (u : State) (l : Line) (failed : Bool) : Prop :=
      exec (.contextMessageApply n) s = .next (u.putHeld c e
        { h with line := awake { l.setPredicate pf failed with pc := next }, overran := h.overran || wrapped })
    (t.reserveCtx (dieOfCore c) = none → ends t h.line true) ∧
    ∀ k u, t.reserveCtx (dieOfCore c) = some (k, u) →
      let vc := u.ctxVa k
      let w := u.allocLine (clusterOfCore c) vc child
      let born (x : State) : Prop := ends x ({ h.line with joinCount := h.line.joinCount + 1 }.setReg d (BitVec.ofNat 64 vc)) false
      ((w.core c).deque.length < 16 →
        born ((w.setCore c { w.core c with deque := (w.core c).deque ++ [{ va := vc, steal := st }] }).dequeOverflow c)) ∧
      (16 ≤ (w.core c).deque.length → st ≠ .core → born (w.enterReady vc child (some (dieOfCore c)) st)) ∧
      (16 ≤ (w.core c).deque.length → st = .core →
        ends (w.freeCtx vc (((w.place vc).line?).getD child)) h.line true)

/-- R305, R330: `launch` checks its queue number and its record, puts the record into its partition's queue or finds
the queue full or disabled, and parks with KIND MEM for the answer. That the record is written in the step of the instruction is the
model's choice (assumption 68), and so is that a launch whose slot the host holds or a lease guards parks and tries again
(assumption 115). -/
def Claims.LaunchResult : Prop :=
  ∀ (s : State) (b : Barrel) (g : Guard) (d a : Reg) (pf : PReg), Runs s b g →
    let l := b.held.line
    UnsignedForms b (fun x i =>
        (3 < x.toNat → exec i s = .next (s.fault b .bounds .none 0)) ∧
        ∀ va v u, x.toNat ≤ 3 → Sees s b .g (l.reg a).toNat 64 va v u →
          (v / 2 ^ 128 % 2 ^ 16 ≠ l.domain → exec i s = .next (u.fault b .protection .load va)) ∧
          (v / 2 ^ 128 % 2 ^ 16 = l.domain → Settled s b .sys →
            let q := 4 * l.partition + x.toNat
            (∀ t, u.launchWaits q = some t → exec i s = .next ((t.reply b.who 1 .wake).park b 1 d.val)) ∧
            (u.launchWaits q = none → u.insertLaunch q v = none →
              exec i s = .next ((u.reply b.who 1 (.done [] (some (pf, true)) 0)).waits b 1 d.val)) ∧
            (u.launchWaits q = none → ∀ n t, u.insertLaunch q v = some (n, t) →
              exec i s = .next ((t.reply b.who 1 (.done [(d, BitVec.ofNat 64 n)] (some (pf, false)) 0)).waits b 1 d.val))))
      (fun r => .launch g d a r pf) (.launchRL g d a pf)

/-- R304, R305: a record goes into the slot that TAIL names of an enabled queue that has room, TAIL advances by one, and the first
launch locks the pool's registers; a disabled or full queue takes none. -/
def Claims.LaunchInsertion : Prop :=
  ∀ (s : State) (q v : Nat),
    let base := s.lqBaseOf q
    let size := if base / 2 ^ 48 % 2 ^ 5 = 0 then 0 else 2 ^ (base / 2 ^ 48 % 2 ^ 5)
    let used := (s.lqTailOf q + 2 ^ 32 - s.lqHeadOf q) % 2 ^ 32
    (size ≤ used → s.insertLaunch q v = none) ∧
    (used < size →
      let t := ({ s with regs := { s.regs with launchLocked := true } } : State).cohPut
        (base % 2 ^ 48 + 64 * (s.lqTailOf q % size)) (toBytes 64 v)
      s.insertLaunch q v = some (s.lqTailOf q, { t with regs := { t.regs with
        lqTail := Table.set t.regs.lqTail q (BitVec.ofNat 32 (s.lqTailOf q + 1)) } }))

/-- `sleep`, `prio`, `spawn` and `launch`. -/
def Obligations.TaskInstructions : Prop :=
  Claims.SleepAndPriority ∧ Claims.SpawnResult ∧ Claims.ChildBorn ∧ Claims.LaunchResult ∧ Claims.LaunchInsertion

/-- R324, R325, R327: `done` frees the line and `halt` keeps or frees it, each after its drain and with a join message to the
parent or the successor; with children left both park with KIND JOIN, as `waitc` does, a retained `halt` too; `yield` goes to READY only where a
context waits that is as urgent. That a context with a page at the head of its stores stays is the model's choice (assumption
52), and so is where the sum of R144 is kept over a `halt` (assumption 119). -/
def Obligations.EndOfContextResult : Prop :=
  ∀ (s : State) (b : Barrel) (g : Guard), Runs s b g →
    let l := b.held.line
    let joined (va : Nat) : State := if va = 0 then s else { s with joins := s.joins ++ [(va, b.core / 4096)] }
    (l.joinCount ≠ 0 → exec (.done g) s = .next (s.park b 6 0) ∧ exec (.waitc g) s = .next (s.park b 6 0) ∧
      ∀ a, exec (.halt g a false) s = .next (s.park b 6 0) ∧
        (l.reg a = 0 ∨ ((l.reg a).toNat % 128 = 0 ∧ s.inPool (l.reg a).toNat = true) →
          exec (.halt g a true) s = .next (s.park b 6 0))) ∧
    (l.joinCount = 0 → exec (.waitc g) s = .next ((s.acquire b.core .sys).complete b l)) ∧
    (l.joinCount = 0 → Released s b .sys →
      exec (.done g) s = .next ((joined l.parent.toNat).setLine b (l.setState .free)) ∧
      ∀ (a : Reg) (r : Bool),
        let keep := r || l.retain
        let va := if r = true ∧ l.reg a ≠ 0 then (l.reg a).toNat else l.parent.toNat
        (r = true → l.reg a ≠ 0 → va % 128 = 0 ∧ s.inPool va = true) →
        (keep = false → exec (.halt g a r) s = .next ((joined va).setLine b (l.setState .free))) ∧
        (keep = true → ∃ l' : Line, exec (.halt g a r) s = .next ((joined va).setLine b.counted l') ∧ l'.inState .halted = true ∧
          l'.retain = true ∧ l'.pc = b.nextPc ∧ { l' with pc := l.pc, status := l.status } = l)) ∧
    (∀ a, l.reg a ≠ 0 → (l.reg a).toNat % 128 ≠ 0 ∨ s.inPool (l.reg a).toNat = false →
      exec (.halt g a true) s = .next (s.fault b .bounds .none 0)) ∧
    ∃ (t : State) (b' : Barrel), exec (.yield g) s = .next t ∧ t.barrel = some b' ∧ { t with barrel := s.barrel } = s ∧
      b'.held.skip = true ∧ b'.held.line = { (if s.betterWaits b.core l.priority && !pageHeld (s.core b.core) b.held.va then
        l.setState .ready else l) with pc := b.nextPc }

/-! ## Special registers and system instructions (R345 to R356) -/

/-- R345, R347, R348: `rsr` reads every special register; `wsr` writes the six kinds that have a write, in their ranges, with
the control right: a core's at once, a cluster's with a park until it acknowledges. A write of CODE_GRANULES empties every slot,
abandons the loads in progress and zeroes the old and the new code partition. How CONTROL_RIGHT and SLOTTAB are read is the model's
choice (assumption 19). -/
def Obligations.SpecialRegisterResult : Prop :=
  ∀ (s : State) (b : Barrel) (g : Guard), Runs s b g →
    let l := b.held.line
    let c := s.core b.core
    let k := s.cluster (clusterOfCore b.core)
    let window := 0x00FC000000000000 + b.core / 4096 * 2 ^ 32
    (∀ d : Reg,
      let reads (n : SReg) (v : Nat) : Prop := exec (.rsr g d n) s = s.withReg b d (BitVec.ofNat 64 v)
      let tab := (c.slotTabNext.getD c.slotTab).toNat
      reads .coreId (b.core % 8) ∧ reads .clusterId (b.core / 8 % 512) ∧ reads .dieId (b.core / 4096) ∧ reads .ctxva b.held.va ∧
      reads .cycle s.cycle ∧ reads .capbase window ∧ (Controls s b → reads .controlRight 1) ∧
      (s.checkRights b.core b.held.va l.domain window rightsW = .violation → reads .controlRight 0) ∧
      reads .ctxl1Limit c.ctxl1Limit ∧ reads .codeGranules c.codeGranules ∧ reads .feLimit k.feLimit.toNat ∧
      reads .barLimit k.barLimit.toNat ∧ reads .noHoldPriority k.noHoldPriority.toNat ∧
      reads .holdLimit0 k.holdLimit0.toNat ∧ reads .holdLimit1 k.holdLimit1.toNat ∧ reads .holdLimit2 k.holdLimit2.toNat ∧
      reads .holdLimit3 k.holdLimit3.toNat ∧ reads .slottab0 tab ∧ reads .slottab1 (tab / 2 ^ 64)) ∧
    let wsr (n : SReg) (P : Nat → Instr → Prop) : Prop :=
      UnsignedForms b (fun x i => P x.toNat i) (fun r => .wsr g r n) (.wsrRL g n)
    let denied (i : Instr) : Prop := exec i s = .next (s.fault b .protection .none 0)
    let cluster (n : SReg) (ok : Nat → Prop) (upd : Nat → ClusterState) : Prop :=
      wsr n fun v i =>
        (Controls s b → ok v → exec i s =
          .next (((s.setCluster (clusterOfCore b.core) (upd v)).reply b.who 1 (.done [] none 0)).waits b 1 8)) ∧
        (Controls s b → ¬ ok v → denied i)
    let limit (v : Nat) : Prop := 1024 ≤ v ∧ v < 2 ^ 32
    let hold (v : Nat) : Prop := v < 2 ^ 16
    cluster .feLimit limit (fun v => { k with feLimit := BitVec.ofNat 32 v }) ∧
    cluster .barLimit limit (fun v => { k with barLimit := BitVec.ofNat 32 v }) ∧
    cluster .noHoldPriority (fun v => v ≤ 32) (fun v => { k with noHoldPriority := BitVec.ofNat 6 v }) ∧
    cluster .holdLimit0 hold (fun v => { k with holdLimit0 := BitVec.ofNat 16 v }) ∧
    cluster .holdLimit1 hold (fun v => { k with holdLimit1 := BitVec.ofNat 16 v }) ∧
    cluster .holdLimit2 hold (fun v => { k with holdLimit2 := BitVec.ofNat 16 v }) ∧
    cluster .holdLimit3 hold (fun v => { k with holdLimit3 := BitVec.ofNat 16 v }) ∧
    wsr .ctxl1Limit (fun v i => (v = 0 ∨ 16 < v ∨ v < pinnedHeld c → Controls s b → denied i) ∧
      (1 ≤ v → v ≤ 16 → pinnedHeld c ≤ v → Controls s b →
        exec i s = .next ((s.setCore b.core { c with ctxl1Limit := v }).complete b l))) ∧
    wsr .codeGranules (fun v i => (4 < v → Controls s b → denied i) ∧
      (v ≤ 4 → Controls s b → exec i s = .next ((s.setGranules b.core v).complete b l))) ∧
    (∀ v, s.MemoryOk →
      let t := s.setGranules b.core v
      let zeroed (a : Nat) : Prop := clmBase b.core ≤ a ∧ a < clmBase b.core + max v c.codeGranules * 0x4000
      t.core b.core = { c with codeGranules := v, slots := [] } ∧
      (t.cluster (clusterOfCore b.core)).loads = k.loads.filter (fun x => !(x.core == b.core && x.slot.isSome)) ∧
      (∀ a, zeroed a → memByte t.mem a = 0) ∧ (∀ a, ¬zeroed a → memByte t.mem a = memByte s.mem a) ∧
      { t with clusters := s.clusters, cores := s.cores, mem := s.mem, full := s.full, msgs := s.msgs } = s) ∧
    ∀ n, wsr n fun _ i => s.checkRights b.core b.held.va l.domain window rightsW = .violation →
      exec i s = .next (s.fault b .protection .store window)

/-- R144, R339, R349: `trap` takes the synchronous error TRAP: its line is FAULTED with that code and with the next PC, its
other fields stay, and its record holds the code of the tail in AUX and the PC of the `trap`. Where the sum of R144 is kept is the
model's choice (assumption 119). -/
def Obligations.TrapResult : Prop :=
  ∀ (s : State) (b : Barrel) (g : Guard), Runs s b g →
    let l := b.held.line
    UnsignedForms b (fun x i => ∃ (t : State) (b' : Barrel), exec i s = .next t ∧ t.barrel = some b' ∧
        { t with barrel := s.barrel } = s ∧ b'.held.overran = (b.held.overran || decide (2 ^ 16 ≤ b.next)) ∧
        b'.held.line.inState .faulted = true ∧ bits b'.held.line.status.toNat 17 10 = 0x0D ∧ b'.held.line.pc = b.nextPc ∧
        { b'.held.line with status := l.status, pc := l.pc } = l ∧
        ∃ r, b'.held.records = b.held.records ++ [r] ∧ r.code = .trap ∧ r.cls = .sync ∧ r.aux = x.setWidth 32 ∧ r.pc = l.pc ∧
          r.ctx = b.held.va ∧ r.gen = l.gen ∧ r.domain.toNat = l.domain ∧ r.die = b.core / 4096)
      (fun r => .trap g r) (.trapRL g)

/-- R345, R350 to R353, R355: the instructions that name a context check its VA and then send their message, and `kill` of
itself ends the context, in its own step (assumption 58); `slotw` needs the control right and an allowed table; `ovl` completes for a slot that is there,
otherwise requests the load; `ovlq` reads a slot entry. -/
def Claims.SystemResult : Prop :=
  ∀ (s : State) (b : Barrel) (g : Guard) (d a : Reg), Runs s b g →
    let l := b.held.line
    let va := (l.reg a).toNat
    let cmd : HomeCmd := { who := b.who, target := va, d := d, found := none }
    (NamesContext s b va →
      (Settled s b .sys → exec (.wake g a) s = .next (({ s with wakes := s.wakes ++ [va] } : State).complete b l)) ∧
      (Settled s b .sys → exec (.resume g d a) s = .next (({ s with resumes := s.resumes ++ [cmd] } : State).waits b 1 d.val)) ∧
      (va ≠ b.held.va → exec (.kill g d a) s = .next (({ s with kills := s.kills ++ [cmd] } : State).waits b 1 d.val)) ∧
      (va = b.held.va → Settled s b .sys → exec (.kill g d a) s = .next (s.setLine b (l.setState .free)))) ∧
    (∀ i, i = Instr.wake g a ∨ i = .resume g d a ∨ i = .kill g d a →
      (va % 128 ≠ 0 → exec i s = .next (s.fault b .misaligned .none va)) ∧
      (va % 128 = 0 → s.inPool va = false → exec i s = .next (s.fault b .bounds .none va))) ∧
    UnsignedForms b (fun x i => Controls s b →
        let tab := va + 2 ^ 64 * x.toNat
        let c := s.core b.core
        (slotTabOk tab c.ctxl1Limit = true →
          exec i s = .next ((s.setCore b.core { c with slotTabNext := some (BitVec.ofNat 128 tab) }).complete b l)) ∧
        (slotTabOk tab c.ctxl1Limit = false → exec i s = .next (s.fault b .bounds .none 0)))
      (fun r => .slotw g a r) (.slotwRL g a) ∧
    (∀ nw, (2 ^ 16 ≤ va → exec (.ovl g a nw) s = .next (s.fault b .bounds .none 0)) ∧
      (va < 2 ^ 16 → ∀ x, execSlot (s.core b.core) l.domain va = some x → exec (.ovl g a nw) s = .next (s.complete b l)) ∧
      (va < 2 ^ 16 → execSlot (s.core b.core) l.domain va = none → exec (.ovl g a nw) s =
        .next (if nw then (s.requestOverlay b va false).complete b l else (s.requestOverlay b va true).park b 7 va))) ∧
    UnsignedForms b (fun x i =>
        (3 < x.toNat → exec i s = .next (s.fault b .bounds .none 0)) ∧
        (x.toNat ≤ 3 → Table.get? (s.core b.core).slots x.toNat = none → exec i s = s.withReg b d 0) ∧
        (x.toNat ≤ 3 → ∀ e, Table.get? (s.core b.core).slots x.toNat = some e → exec i s = s.withReg b d (BitVec.ofNat 64
          (e.domain * 2 ^ 32 + e.overlay * 2 ^ 16 + e.count * 2 ^ 5 + e.first * 2 ^ 3 +
            match e.state with | .empty => 0 | .loading => 1 | .executable => 2))))
      (fun r => .ovlq g d r) (.ovlqRL g d)

/-- R40, R46, R354, R356: `plbi`, `tlbi` and `pmig` with the control right: a range or domain word that breaks its
table takes
a bounds fault; an invalidation goes to every core whose PLB holds entries or refusals (assumption 13) or to all four bricks, and its issuer parks; a
migration becomes a job of the cluster's queue. -/
def Claims.InvalidationResult : Prop :=
  ∀ (s : State) (b : Barrel) (g : Guard) (d a : Reg) (pf : PReg), Runs s b g → Controls s b →
    let l := b.held.line
    let dw := (l.reg a).toNat
    let ok (w : Nat) : Prop :=
      w / 2 ^ 56 = 0 ∧ w / 2 ^ 6 % 2 ^ 10 = 0 ∧ 16 ≤ w % 2 ^ 6 ∧ w % 2 ^ 6 ≤ 56 ∧ (w / 2 ^ 16 % 2 ^ 40 * 2 ^ 16) % 2 ^ (w % 2 ^ 6) = 0
    let sends (domain : Option Nat) (w : Nat) (left : List Nat) (i : Instr) : Prop :=
      exec i s = .next (State.waits (if left = [] then s.reply b.who 1 (.done [] none 0) else
        { s with invs := s.invs ++ [{ who := b.who, domain := domain, base := w / 2 ^ 16 % 2 ^ 40 * 2 ^ 16,
                                      log2 := w % 2 ^ 6, left := left }] }) b 1 8)
    UnsignedForms b (fun x i =>
        (ok x.toNat → dw < 2 ^ 17 → Settled s b .sys → sends (some dw) x.toNat
          (s.cores.filterMap fun (c, y) => if y.plb.isEmpty && y.denied.isEmpty then none else some c) i) ∧
        (¬ ok x.toNat ∨ 2 ^ 17 ≤ dw → exec i s = .next (s.fault b .bounds .none 0)))
      (fun r => .plbi g a r) (.plbiRL g a) ∧
    UnsignedForms b (fun x i => (ok x.toNat → Settled s b .sys → sends none x.toNat [0, 1, 2, 3] i) ∧
        (¬ ok x.toNat → exec i s = .next (s.fault b .bounds .none 0))) (fun r => .tlbi g r) (.tlbiRL g) ∧
    UnsignedForms b (fun x i =>
        (2 ^ 56 ≤ dw → exec i s = .next (s.fault b .protection .none dw)) ∧
        (dw < 2 ^ 56 → 2 ^ 48 ≤ x.toNat → exec i s = .next (s.fault b .bounds .none 0)) ∧
        (dw < 2 ^ 56 → x.toNat < 2 ^ 48 → Settled s b .sys →
          exec i s = .next (({ s with jobReqs := s.jobReqs ++ [{ who := b.who, cluster := clusterOfCore b.core,
                                                                 kind := .migrate dw x.toNat, d := d, pf := pf }] } : State).waits b 1
            d.val)))
      (fun r => .pmig g d a r pf) (.pmigRL g d a pf)

/-- The system instructions and the invalidations. -/
def Obligations.SystemInstructions : Prop := Claims.SystemResult ∧ Claims.InvalidationResult

/-! ## Steps of context lines: messages, joins, wakes (R129, R132, R133, R317, R328, R340, R343, R350 to R352) -/

/-- R132, R133, R317, R340, R294: what reaches a context in its context L1. A reply that matches its wait writes its registers,
predicate and flags and ends the wait (one that completes an acquire after its brick has applied what has reached it), or brings the target of a call, or makes it reissue, or FAULTED; one that does not match is
dropped. A join message lowers JOIN_COUNT and the last one wakes a waiting parent; one too many is logged with the brick that
sent it. The PC of a failed posted store enters an empty DEFERRED_PC. Which PC a parked thread holds, and how the sum of R144 is kept
with it, are the model's choices (assumptions 48 and 119). -/
def Claims.MessageSteps : Prop :=
  ∀ (s : State) (n va c e : Nat) (h : Held), HeldAt s va c e h →
    let l := h.line
    let up (t : State) (l' : Line) : Host.Outcome State Fault Refusal := .next (t.putHeld c e { h with line := l' })
    (∀ m, s.msgs[n]? = some m → m.ctx = va → m.handle = none →
      let t := ({ s with msgs := listErase s.msgs n } : State).startRetry m
      let u : State := if m.kind = 8 then { t with timers := t.timers.filter fun x => x.1.ctx != va || x.2.1 != 8 } else t
      (¬ Answers m l → exec (.contextMessageApply n) s = .next t) ∧
      (Answers m l →
        (∀ ws pf fl, m.body = .done ws pf fl →
          let l1 := ws.foldl (fun l w => l.setReg w.1 w.2) l
          let l2 := match pf with
            | some (q, v) => l1.setPredicate q v
            | none => l1
          let l3 := awake { l2 with pred := l2.pred ||| fl }
          (m.acquires = false → exec (.contextMessageApply n) s = up u l3) ∧
          (m.acquires = true →
            let a := ({ s with msgs := listErase s.msgs n } : State).acquireAt (dieOfCore c)
            let v := a.startRetry m
            HeldAt a va c e h → exec (.contextMessageApply n) s = up
              (if m.kind = 8 then { v with timers := v.timers.filter fun x => x.1.ctx != va || x.2.1 != 8 } else v) l3)) ∧
        (∀ pc link, m.body = .jump pc link → exec (.contextMessageApply n) s = up u (awake { l with pc := pc, link := link })) ∧
        (m.body = .wake → exec (.contextMessageApply n) s =
          .next ((u.putHeld c e { h with line := awake { l with pc := m.who.pc } }).clearOverran va)) ∧
        ∀ code acc aux fva die, m.body = .fault code acc aux fva die →
          ∃ h' : Held, exec (.contextMessageApply n) s = .next ((t.putHeld c e h').clearOverran va) ∧ h'.draining = true ∧ h'.ending = .kept ∧
            h'.line.inState .faulted = true ∧ h'.line.pc = m.who.pc ∧ h'.line.waitTag = 0 ∧ h'.line.regs = l.regs ∧
            ∃ r, h'.records = h.records ++ [r] ∧ r.code = code ∧ r.cls = .sync ∧ r.access = acc ∧ r.aux = aux ∧ r.ctx = va ∧
              r.die = die ∧ r.va = fva % 2 ^ 56)) ∧
    (∀ sender, s.joins[n]? = some (va, sender) → l.inState .free = false → l.inState .poisoned = false →
      let t := { s with joins := listErase s.joins n }
      let l' := { l with joinCount := l.joinCount - 1 }
      (l.joinCount ≠ 0 → exec (.joinMessage n) s =
        up t (if l'.joinCount = 0 ∧ l.inState .wait = true ∧ l.waitKind = 6 then awake l' else l')) ∧
      (l.joinCount = 0 → ∃ x, exec (.joinMessage n) s = .next (t.log x) ∧ x.event = 7 ∧ x.ctx = va ∧ x.die = c / 4096 ∧
        x.sourceDie = sender)) ∧
    ∀ gen pc, s.nacks[n]? = some (va, gen, pc) →
      let t := { s with nacks := listErase s.nacks n }
      let takes := l.gen = gen ∧ l.deferredPc = 0 ∧ l.inState .free = false ∧ l.inState .poisoned = false
      (takes → exec (.nackMessage n) s = .next ((t.putHeld c e { h with line := { l with deferredPc := pc } }).wakeBuffer va)) ∧
      (¬ takes → exec (.nackMessage n) s = .next (t.wakeBuffer va))

/-- R49, R51, R129, R133, R350: a wake resumes the work of its context that waits for a page. A context that is leaving its context
L1 and is kept there by the head of the store buffer has that head sent again; one in WAIT with KIND PAGE ends its wait, its held
head is sent again, and it is RESIDENT in its context L1, or READY and in a ready queue in a context L2 or in HBM; any other
state or kind ignores the wake. That every wake of a PAGE wait sends the held head again, and that the timed wake of a held head
stands apart from its context's own, are the model's choices (assumption 52). -/
def Claims.WakeSteps : Prop :=
  ∀ (s : State) (n va : Nat), s.wakes[n]? = some va →
    let i := Instr.wakeMessage n
    let t := ({ s with wakes := listErase s.wakes n } : State).resumeWork va
    let timed (u : State) : State := { u with timers := u.timers.filter fun x => x.1.ctx != va || x.2.1 != 8 }
    let sentAgain (u : State) (c : Nat) : State := u.setCore c { u.core c with sbPhase := .idle }
    let waits (l : Line) : Prop := l.inState .wait = true ∧ l.waitKind = 8
    let ready (l : Line) : Line := (l.setWait 0 0).setState .ready
    (∀ c e h, s.place va = .entry c e h → h.draining = true ∨ h.kept.isSome = true → pageHeld (s.core c) va = true →
      exec i s = .next (sentAgain { t with timers := t.timers.filter fun x => x.1.ctx != va || x.2.1 != 18 } c)) ∧
    (∀ c e h, HeldAt s va c e h →
      (waits h.line →
        let u := if pageHeld (s.core c) va then sentAgain t c else t
        exec i s = .next (((timed u).putHeld c e { h with line := awake h.line }).clearOverran va)) ∧
      (¬waits h.line → exec i s = .next t)) ∧
    (∀ cl x, s.place va = .l2 cl x → s.mustHold va = false →
      (waits x.line → (ready x.line).inState .ready = true ∧
        exec i s = .next ((((timed t).putLine va (.l2 cl x) (ready x.line)).enterReady va (ready x.line)
          (some (dieOfCluster cl)) .dev).clearOverran va)) ∧
      (¬waits x.line → exec i s = .next t)) ∧
    ∀ pa l, s.place va = .memory pa l → s.mustHold va = false →
      (waits l → (ready l).inState .ready = true ∧
        exec i s = .next ((((timed t).putLine va (.memory pa l) (ready l)).enterReady va (ready l) none .dev).clearOverran va)) ∧
      (¬waits l → exec i s = .next t)

/-- R311, R312: a READY context enters the queue of a Caldera at the tail, with the level of its PRIORITY, its cycle and its steal
domain: that of the brick of the context L2 that holds it, or of its home, if AFFINITY allows that, else of the lowest brick of
AFFINITY; a brick that is not LIVE passes it to the lowest other brick of AFFINITY, which is the model's choice where none is
LIVE (assumption 63). -/
def Claims.ReadyEntered : Prop :=
  ∀ (s : State) (va : Nat) (l : Line) (l2 : Option Nat) (st : Steal),
    let near := l2.getD (s.ctxHome va)
    let first := if bit l.affinity near then near else
      if bit l.affinity 0 then 0 else if bit l.affinity 1 then 1 else if bit l.affinity 2 then 2 else 3
    let d := if s.dieLive first then first else
      (([0, 1, 2, 3] : List Nat).find? fun k => k != first && bit l.affinity k).getD first
    let r := (s.brick d).ready
    let e : ReadyEntry := { va := va, level := l.priority, gain := 0, steal := st, since := s.cycle, offered := false,
                            notBefore := 0, tried := [], refused := false }
    r.length < 65536 → s.enterReady va l l2 st = s.setBrick d { s.brick d with ready := r ++ [e] }

/-- R51, R129, R328: the timers of `sleep` and of a page fault without a place send their wakes when their cycle has come; the
wake of a held head, and that of a CLASS 5 wait, send the head of the store buffer again. While a head keeps the context in its entry,
the wake of the context's own wait is put off. That the two timed wakes stand apart is the model's choice (assumption 52). -/
def Claims.TimedWakes : Prop :=
  ∀ (s : State) (va : Nat),
    (∀ w e, s.timers.find? (fun x => x.1.ctx == va && x.2.1 == 9 && decide ((x.2.2 + 255) / 256 * 256 ≤ s.cycle)) = some (w, 9, e) →
      exec (.sleepWake va) s = .next ({ s with timers := s.timers.erase (w, 9, e) }.reply w 9 (.done [] none 0))) ∧
    (s.timers.find? (fun x => x.1.ctx == va && x.2.1 == 9 && decide ((x.2.2 + 255) / 256 * 256 ≤ s.cycle)) = none →
      exec (.sleepWake va) s = .next s) ∧
    let due (kind : Nat) : Option (Who × Nat × Nat) :=
      s.timers.find? fun x => x.1.ctx == va && x.2.1 == kind && decide (x.2.2 ≤ s.cycle)
    let past (x : Who × Nat × Nat) : State := { s with timers := s.timers.erase x }
    let kept : Prop :=
      ∃ c n h, s.place va = .entry c n h ∧ (h.draining = true ∨ h.kept.isSome = true) ∧ pageHeld (s.core c) va = true
    let cls5 : Prop := ∃ l, (s.place va).line? = some l ∧ l.waitValue / 2 ^ 24 = 5
    let out := exec (.pageFaultTimedWake va) s
    (∀ x, due 18 = some x → (kept → out = .next ((past x).retryHead va)) ∧ (¬kept → out = .next (past x))) ∧
    (due 18 = none → ∀ x, due 8 = some x →
      (kept → out = .next s) ∧
      (¬kept → cls5 → out = .next (((past x).retryHead va).reply x.1 8 .wake)) ∧
      (¬kept → ¬cls5 → out = .next ((past x).reply x.1 8 .wake))) ∧
    (due 18 = none → due 8 = none → out = .next s)

/-- Messages, joins, NACKs and wakes. -/
def Obligations.ContextMessages : Prop :=
  Claims.MessageSteps ∧ Claims.WakeSteps ∧ Claims.ReadyEntered ∧ Claims.TimedWakes

/-- R137, R343, R344, R351, R352: `kill` at the home stops a held context and frees it after its drain, or frees a line
outside every context L1 at once, and answers the STATE that it found; `resume` makes a FAULTED or HALTED line READY and
answers 0, with no timed wake of an earlier wait left, refuses an empty AFFINITY with 2, and answers 1 for every other state. A kill of a context whose store buffer waits for
a page discards its entries there. That a context which never issued need not wait for its pipeline is the model's choice
(assumption 57), and so are that a kill of its own thread ends in its own step (assumption 58) and what freeing does where the pool
page cannot be written (assumption 129). -/
def Obligations.KillAndResumeSteps : Prop :=
  ∀ (s : State) (n : Nat) (k : HomeCmd), s.dieLive (s.ctxHome k.target) = true →
    let answer (t : State) (v : Nat) : Host.Outcome State Fault Refusal :=
      .next (t.reply k.who 1 (.done [(k.d, BitVec.ofNat 64 v)] none 0))
    (s.kills[n]? = some k → k.found = none →
      (∀ c e h, s.place k.target = .entry c e h → h.draining = false → pageHeld (s.core c) k.target = false →
        let t := (s.dropWaits k.target).putHeld c e { h with draining := true, ending := .freed, gang := false, records := [] }
        t.freeing k.target = true →
        exec (.killAtHome n) s = .next { t with kills := listSet t.kills n { k with found := some h.line.stateCode } }) ∧
      (∀ c e h, s.place k.target = .entry c e h → pageHeld (s.core c) k.target = true →
        let t := ((s.discardStores c k.target).dropWaits k.target).putHeld c e
          { h with draining := true, ending := .freed, gang := false, records := [] }
        t.freeing k.target = true →
        exec (.killAtHome n) s = .next { t with kills := listSet t.kills n { k with found := some h.line.stateCode } }) ∧
      (∀ cl x, s.place k.target = .l2 cl x → s.ctxFrozen k.target = false → s.unacked k.target = false →
        let t := ((s.dropWaits k.target).dropMember k.target).freeCtx k.target x.line
        t.freeing k.target = false →
        exec (.killAtHome n) s = answer { t with kills := listErase t.kills n } x.line.stateCode) ∧
      (∀ pa l, s.place k.target = .memory pa l → l.inState .free = true → s.freeing k.target = false →
        exec (.killAtHome n) s = answer { s with kills := listErase s.kills n } 0)) ∧
    (s.kills[n]? = some k → ∀ code, k.found = some code → s.freeing k.target = false →
      exec (.killAtHome n) s = answer { s with kills := listErase s.kills n } code) ∧
    (s.resumes[n]? = some k → s.mustHold k.target = false →
      let t := { s with resumes := listErase s.resumes n }
      ∀ cl x, s.place k.target = .l2 cl x →
        let stopped := x.line.inState .faulted = true ∨ x.line.inState .halted = true
        (¬ stopped → exec (.resumeAtHome n) s = answer t 1) ∧
        (stopped → x.line.affinity = 0 → exec (.resumeAtHome n) s = answer t 2) ∧
        (stopped → x.line.affinity ≠ 0 → ∃ l' : Line, l'.inState .ready = true ∧ bits l'.status.toNat 17 10 = 0 ∧
          l'.waitTag = 0 ∧ l'.deferredPc = 0 ∧
          { l' with status := x.line.status, waitTag := x.line.waitTag, deferredPc := x.line.deferredPc } = x.line ∧
          exec (.resumeAtHome n) s = answer ((({ t with timers := t.timers.filter fun x => x.1.ctx != k.target } : State).putLine
            k.target (s.place k.target) l').enterReady k.target l' (some (dieOfCluster cl)) .dev) 0))

/-! ## Claims, fills and evictions (R113, R120 to R130, R314, R339) -/

/-- R120, R125, R126, R127, R314, R368: the home decides the oldest claim for a line that nothing holds up: a READY line of the
claimed GENERATION leaves its holder and moves, its ready entry goes and the directory tracks its new holder; any other loses
the claim by its case, and the Caldera drops, defers or keeps its entry, or a child goes back to its deque; the moved line
becomes RESIDENT. How a refused child returns is the model's choice (assumption 100), and so are which GENERATION a claim
carries (assumption 51), that a gang's claim which met a page fault or a home that is not LIVE is sent again (assumption 65), and
where a claim takes the GENERATION and the domain that it expects (assumption 126). -/
def Claims.ClaimSteps : Prop :=
  ∀ (s : State) (n : Nat),
    (∀ c, s.claims[n]? = some c → ((s.claims.take n).any fun x => x.va == c.va) = false → s.claimWaits c = none →
      let t := { s with claims := listErase s.claims n }
      let i := Instr.contextClaim n
      let lost (case : Nat) : Host.Outcome State Fault Refusal := .next { t with claimsLost := t.claimsLost ++ [(c, case)] }
      let granted (u : State) (l : Line) : Host.Outcome State Fault Refusal :=
        let v := match u.poolPhys c.va false with
          | some pa => u.trackCtx pa c.va (some (c.core / 4096))
          | none => u
        .next { v.dropOffered c.die c.va with
          transfers := v.transfers ++ [{ va := c.va, line := l, core := c.core, entry := c.entry, gang := c.gang }] }
      (s.dieLive (s.ctxHome c.va) = false → exec i s = lost 5) ∧
      (s.dieLive (s.ctxHome c.va) = true →
        (∀ cl x, s.place c.va = .l2 cl x →
          (x.line.gen ≠ c.gen → exec i s = lost 2) ∧
          (x.line.gen = c.gen → x.line.inState .ready = false → exec i s = lost 3) ∧
          (x.line.gen = c.gen → x.line.inState .ready = true → exec i s = granted
            (t.setCluster cl { s.cluster cl with ctxL2 := Table.erase (s.cluster cl).ctxL2 c.va }) x.line)) ∧
        (∀ pa l, s.place c.va = .memory pa l →
          (l.gen ≠ c.gen → exec i s = lost 2) ∧
          (l.gen = c.gen → l.inState .ready = false → exec i s = lost 3) ∧
          (l.gen = c.gen → l.inState .ready = true → exec i s = granted t l)) ∧
        (∀ x, s.place c.va = .transfer x → exec i s = lost 1) ∧
        (∀ core e h, s.place c.va = .entry core e h → exec i s = lost (if h.line.gen = c.gen then 3 else 2)) ∧
        (s.place c.va = .unmapped → ∃ x, x.event = 4 ∧ x.ctx = c.va ∧ x.sourceDie = c.core / 4096 ∧
          exec i s = .next { t.log x with claimsLost := t.claimsLost ++ [(c, 4)] }))) ∧
    (∀ c case, s.claimsLost[n]? = some (c, case) →
      let t0 := { s with claimsLost := listErase s.claimsLost n }
      let t := t0.clearEntry c.core c.entry
      let until_ := if case = 4 then s.cycle + 65536 else 0
      let i := Instr.claimLost n
      (c.gang = true → 4 ≤ case → s.dieLive c.die = true → exec i s = .next { t0 with claims := t0.claims ++ [c] }) ∧
      (case < 4 → exec i s = .next (t.dropOffered c.die c.va)) ∧
      (c.gang = false → 4 ≤ case → c.child = none →
        exec i s = .next (if case = 4 then t.deferEntry c.die c.va until_ .dev else t.keepEntry c.die c.va)) ∧
      (c.gang = false → 4 ≤ case → ∀ st, c.child = some st →
        let k := s.core c.core
        (st ≠ .core → exec i s = .next (t.deferEntry c.die c.va until_ st)) ∧
        (st = .core → k.deque.length < 16 → exec i s = .next
          (((t0.setCore c.core { k with deque := k.deque ++ [{ va := c.va, steal := .core }] }).clearEntry c.core
            c.entry).dequeOverflow c.core)) ∧
        (st = .core → 16 ≤ k.deque.length → exec i s = .next { t0 with claims := t0.claims ++ [c] }))) ∧
    (∀ x, s.transfers[n]? = some x →
      let h : Held := { va := x.va, line := x.line.setState .resident, parkedAt := s.cycle, issuedAt := 0, draining := false,
                        ending := .toReady, records := [], fenced := none, overran := s.overruns.contains x.va,
                        skip := s.skips.contains x.va, gang := x.gang || s.gangOut.contains x.va, ports := [], popped := none,
                        kept := none, observed := [] }
      let u : State := { s with transfers := listErase s.transfers n, overruns := s.overruns.filter (· != x.va),
                                skips := s.skips.filter (· != x.va), gangOut := s.gangOut.filter (· != x.va) }
      let c := s.core x.core
      exec (.contextFill n) s = .next (((u.setCore x.core
        { c with entries := Table.set c.entries x.entry (.held h) }).cacheCtx x.va (x.core / 4096)).acquireAt (x.core / 4096))) ∧
    ∀ (d : Die) (x : ReadyEntry), (s.brick d.val).ready[n]? = some x → x.notBefore ≠ 0 → x.notBefore ≤ s.cycle →
      exec (.claimPageFaultReoffer d n) s = .next (s.setBrick d.val
        { s.brick d.val with ready := listSet (s.brick d.val).ready n { x with notBefore := 0 } })

/-- R113, R122, R128, R130, R137, R339: the write-back of a context that drains enters its core's buffer, behind its stores;
performed, it frees a line that ends so, or puts the line with TOUCHED cleared into the context L2 and its records on
their way; a line that was RESIDENT or READY is then READY and in the ready queue of its brick. The zero-length read of the host port
goes first where the context has written through that port (R292, R299). A write-back of a context L2 that met a page fault is tried
again. A context that the head of the buffer keeps in its entry shows KIND PAGE with that head's CLASS. What an eviction waits for
beside its own stores is the model's choice (assumptions 55 and 125), and so is where the sum of R144 is kept (assumption 119). -/
def Claims.EvictionSteps : Prop :=
  ∀ (s : State) (core entry : Nat) (h : Held),
    let c := s.core core
    Table.get? c.entries entry = some (.held h) → h.draining = true →
    (hasWriteBack c h.va = false → c.storeBuf.length < 32 →
      ∃ e : SbEntry, e.isWriteBack = true ∧ e.who.ctx = h.va ∧ e.posted = true ∧
        let t := s.setCore core { c with storeBuf := c.storeBuf ++ [e] }
        ((∀ cls, c.sbPhase ≠ .page cls) → exec (.contextEviction core entry) s = .next t) ∧
        (∀ cls x xs, c.sbPhase = .page cls → cls ≠ 3 → cls ≠ 5 → c.storeBuf = x :: xs → x.who.ctx = h.va → h.kept = none →
          t.findEntry h.va = some (core, entry, h) →
          exec (.contextEviction core entry) s = .next (t.putHeld core entry
            { h with kept := some h.line.waitTag, line := h.line.setWait 8 (cls * 2 ^ 24 + x.va / 2 ^ 16 % 2 ^ 24) }))) ∧
    (∀ w ws, c.storeBuf = w :: ws → w.isWriteBack = true → w.who.ctx = h.va → s.unacked h.va = false →
      h.ports.contains 8 = true → ∃ q : OutReq, q.size = 0 ∧ q.op = .load ∧ q.who.ctx = h.va ∧ q.posted = false ∧
        exec (.contextWritebackPerformed core entry) s = .next
          { s.putHeld core entry { h with ports := h.ports.filter (· != 8) } with
            outReqs := s.outReqs ++ [q], outbox := s.outbox ++ [.pcie q] }) ∧
    (∀ w ws, c.storeBuf = w :: ws → w.isWriteBack = true → w.who.ctx = h.va → s.unacked h.va = false →
      h.ports.contains 8 = false →
      (h.ending = .freed → s.ctxFrozen h.va = false → exec (.contextWritebackPerformed core entry) s =
        .next (((s.popBuffer core).freeCtx h.va (h.line.setTouched 0)).clearEntry core entry)) ∧
      (h.ending ≠ .freed → h.line.deferredPc = 0 → h.line.inState .resident = false → h.line.inState .ready = false →
        ∀ t, s.ctxL2Put (clusterOfCore core) h.va (h.line.setTouched 0) = (t, true) →
          let u := t.popBuffer core
          exec (.contextWritebackPerformed core entry) s = .next (h.records.foldl State.report
            (((u.setCore core ((u.core core).forget h.va)).clearEntry core entry).carryOut h (h.line.setTouched 0)))) ∧
      (h.ending ≠ .freed → h.line.deferredPc = 0 → h.line.inState .resident = true ∨ h.line.inState .ready = true →
        let l := if h.line.inState .resident = true then (h.line.setTouched 0).setState .ready else h.line.setTouched 0
        l.inState .ready = true ∧
        ∀ t, s.ctxL2Put (clusterOfCore core) h.va l = (t, true) →
          let u := t.popBuffer core
          exec (.contextWritebackPerformed core entry) s = .next (h.records.foldl State.report
            ((((u.setCore core ((u.core core).forget h.va)).clearEntry core entry).carryOut h l).enterReady h.va l
              (some (dieOfCore core)) .dev)))) ∧
    ∀ va cl x, s.place va = .l2 cl x → x.wbWait = true → x.retryAt ≤ s.cycle →
      (∀ pa, s.poolPhys va true = some pa → exec (.contextWritebackRetry va) s = .next
        ((s.writeCtx pa va x.line).setCluster cl { s.cluster cl with ctxL2 := Table.erase (s.cluster cl).ctxL2 va })) ∧
      (s.poolPhys va true = none → exec (.contextWritebackRetry va) s = .next
        (s.setCluster cl { s.cluster cl with
          ctxL2 := Table.set (s.cluster cl).ctxL2 va { x with retryAt := s.cycle + 4096 } }))

/-- Claims, fills and evictions of contexts. -/
def Obligations.ClaimsAndEvictions : Prop := Claims.ClaimSteps ∧ Claims.EvictionSteps

/-! ## Faults, logs and soft errors (R332 to R338, R341, R371) -/

/-- R5, R69: a write of the device to physical memory puts its bytes there and keeps the bytes of every other line; the other
sectors of its lines change only where a write-back of such a line stands at its home, which is taken first. -/
def Claims.CoherentWrite : Prop :=
  ∀ (s : State) (a : Nat) (bs : List Byte), s.MemoryOk →
    let u := s.cohPut a bs
    let last := a + bs.length - 1
    (∀ k, k < bs.length → memByte u.mem (a + k) = bs.getD k 0) ∧
    ∀ x, x < 2 ^ 48 →
      (x / 256 < a / 256 ∨ last / 256 < x / 256 → memByte u.mem x = memByte s.mem x) ∧
      (x / 64 < a / 64 ∨ last / 64 < x / 64 →
        (∀ r ∈ s.reqs, ∀ y, a / 64 ≤ y / 64 → y / 64 ≤ last / 64 → r.noticeOf y = false) →
          memByte u.mem x = memByte s.mem x)

/-- R335, R371: a record is appended at TAIL of its domain's queue, counted as DROPPED when the queue is full, or logged when the
entry is not usable, and its handler is woken; for a brick that is not LIVE the sender holds it, up to 1,024 of them (assumption
59). That a lease of a peer holds the arbiter back is the model's choice (assumption 114). -/
def Claims.RecordAppend : Prop :=
  ∀ (s : State) (n : Nat) (r : FaultRec), s.faultQ[n]? = some r →
    let i := Instr.faultRecordAppend n
    let t := { s with faultQ := listErase s.faultQ n }
    let dom := r.domain.toNat
    (s.dieLive (dom % 4) = true → s.recordLeased dom = true → exec i s = .next s) ∧
    (s.dieLive (dom % 4) = true → s.recordLeased dom = false →
      let a := s.regs.fqDirBase.toNat % 2 ^ 48 + 32 * dom
      let e := t.cohWide a 32
      let tail := e / 2 ^ 160 % 2 ^ 32
      let head := e / 2 ^ 128 % 2 ^ 32
      let slots := 2 ^ (e / 2 ^ 64 % 2 ^ 5)
      let wake (u : State) : Host.Outcome State Fault Refusal :=
        .next (u.wakeHandler (dom % 4) true dom (e / 2 ^ 192 % 2 ^ 56) (r.ctx, r.pc, r.domain, r.part))
      (s.regs.fqWritten = true → fqValid e = true → (tail + 2 ^ 32 - head) % 2 ^ 32 < slots →
        exec i s = wake ((t.cohPut (e % 2 ^ 48 + 32 * (tail % slots)) r.bytes).cohPut a
          (toBytes 32 (setBits e 191 160 (tail + 1))))) ∧
      (s.regs.fqWritten = true → fqValid e = true → slots ≤ (tail + 2 ^ 32 - head) % 2 ^ 32 →
        exec i s = wake ((t.cohPut a
          (toBytes 32 (setBits e 127 112 (min (e / 2 ^ 112 % 2 ^ 16 + 1) 0xFFFF)))).log (recordLog (dom % 4) 5 r.code.num r))) ∧
      (s.regs.fqWritten = false ∨ fqValid e = false → exec i s = .next (t.log (recordLog (dom % 4) 6 0xFF r)))) ∧
    (s.dieLive (dom % 4) = false →
      let before := ((s.faultQ.take n).filter fun x => x.die == r.die && !s.dieLive (x.domain.toNat % 4)).length
      (before < 1024 → exec i s = .next s) ∧ (1024 ≤ before → exec i s = .next (t.log (recordLog r.die 5 r.code.num r))))

/-- R337, R338, R358: an entry of a brick's error log is written into the slot that TAIL names, TAIL advances by one and the brick's
vector is sent; an entry that finds the log full or disabled is counted in ELOG_LOST, which saturates. That a lease of a peer holds
the arbiter back is the model's choice (assumption 114). -/
def Claims.LogAppend : Prop :=
  ∀ (s : State) (n : Nat) (x : LogEntry), s.elogQ[n]? = some x →
    let i := Instr.errorLogAppend n
    let t := { s with elogQ := listErase s.elogQ n }
    let b := s.brick x.die
    let base := b.elogBase.toNat
    let slots := if base / 2 ^ 48 % 2 ^ 5 = 0 then 0 else 2 ^ (base / 2 ^ 48 % 2 ^ 5)
    let used := (b.elogTail.toNat + 2 ^ 32 - b.elogHead.toNat) % 2 ^ 32
    let u := t.cohPut (base % 2 ^ 48 + 32 * (b.elogTail.toNat % slots)) x.bytes
    (s.logLeased x.die = true → exec i s = .next s) ∧
    (s.logLeased x.die = false → used < slots →
      exec i s = .next { u.setBrick x.die { u.brick x.die with elogTail := (u.brick x.die).elogTail + 1 } with
        outbox := u.outbox ++ [.msix (x.die % 4)] } ∧
      (u.brick x.die).elogTail = b.elogTail) ∧
    (s.logLeased x.die = false → slots ≤ used → exec i s = .next (t.setBrick x.die
      { b with elogLost := BitVec.ofNat 32 (min (b.elogLost.toNat + 1) (2 ^ 32 - 1)) }))

/-- R336: a new message or record sends a wake to the queue's handler, at once also where one is under way, or logs a handler whose
address no context can have; a wake that finds its queue read to the end ends, one that finds the handler HALTED makes it READY
as `resume` does, and any other is sent again after 4,096 cycles. That a handler without AFFINITY ends its wake is the model's
choice (assumption 60). -/
def Claims.HandlerSteps : Prop :=
  ∀ (s : State),
    (∀ (die queue va : Nat) (fault : Bool) (who : Nat × BitVec 32 × BitVec 16 × BitVec 8),
      let same (x : HandlerWake) : Bool := x.fault == fault && x.queue == queue && x.handler == va
      (va % 128 = 0 → s.inPool va = true → s.handlerWakes.any same = false → s.wakeHandler die fault queue va who =
        { s with handlerWakes := s.handlerWakes ++ [{ die := die, fault := fault, queue := queue, handler := va,
                                                      retryAt := s.cycle, sent := false, logged := none }] }) ∧
      (va % 128 = 0 → s.inPool va = true → s.handlerWakes.any same = true → s.wakeHandler die fault queue va who =
        { s with handlerWakes := s.handlerWakes.map fun x => if same x then { x with retryAt := s.cycle } else x }) ∧
      (va % 128 ≠ 0 ∨ s.inPool va = false → s.wakeHandler die fault queue va who =
        s.log { die := die, event := 6, detail := 0xFE, pc := who.2.1, domain := who.2.2.1, part := who.2.2.2,
                sourceDie := die, ctx := who.1, addr := va })) ∧
    ∀ (n : Nat) (w : HandlerWake), s.handlerWakes[n]? = some w →
      let i := Instr.handlerWakeRetry n
      let t := { s with handlerWakes := listErase s.handlerWakes n }
      let again (u : State) (w : HandlerWake) : Host.Outcome State Fault Refusal :=
        .next { u with handlerWakes := listSet u.handlerWakes n { w with retryAt := s.cycle + 4096, sent := true } }
      (s.cycle < w.retryAt → exec i s = .next s) ∧
      (w.retryAt ≤ s.cycle →
        (s.queueDone w = true → exec i s = .next t) ∧
        (s.queueDone w = false → s.mustHold w.handler = true → exec i s = again s w) ∧
        (s.queueDone w = false → s.mustHold w.handler = false → (∀ pa l, s.place w.handler ≠ .bad pa l) →
          ∀ l, (s.place w.handler).line? = some l →
            (l.inState .halted = true → l.affinity ≠ 0 →
              exec i s = .next (t.resumeLine w.handler (s.place w.handler) l)) ∧
            (l.inState .halted = true → l.affinity = 0 → exec i s = .next t) ∧
            (l.inState .ready = true ∨ l.inState .resident = true ∨ l.inState .wait = true → l.inState .halted = false →
              l.inState .faulted = false → l.inState .poisoned = false → l.inState .free = false → exec i s = again s w)))

/-- R341: a corrected soft error is only logged; an uncorrectable one is logged, and poisons the unit of a memory or of dirty data,
marks a brick's clean copy as bad, or poisons the context whose line was read; one in a line that a context cache holds has the line
written back with a poison mark. That the unit is 64 bytes, and that the mark stands with the context until then, are the model's
choices (assumption 47). -/
def Claims.SoftErrors : Prop :=
  ∀ (s : State) (d : Die) (a : EccArray),
    let code : Nat := match a with
      | .hbm => 0 | .l2 => 1 | .dataL1 => 2 | .tsp => 3 | .clm => 4 | .context => 5 | .mortar => 6
    let entry (event addr : Nat) : LogEntry :=
      { die := if a = .mortar then 0 else d.val, event := event, detail := code, pc := 0, domain := 0, part := 0,
        sourceDie := d.val, ctx := 0, addr := addr }
    exec (.eccError (.corrected d a)) s = .next (s.log (entry 9 0)) ∧
    (∀ addr,
      let i := Instr.eccError (.data d a addr)
      let bad := (d.val, addr / 64 * 64)
      let poisoned := exec i s = .next ((s.poisonUnit addr).log (entry 10 addr))
      ((s.poisonUnit addr).isPoisoned addr = true) ∧
      (a ≠ .l2 → a ≠ .dataL1 → poisoned) ∧
      (a = .l2 ∨ a = .dataL1 →
        (s.cachedAt d.val addr = none → exec i s = .next (s.log (entry 10 addr))) ∧
        (∀ va, s.cachedAt d.val addr = some (va, true) → poisoned) ∧
        ∀ va, s.cachedAt d.val addr = some (va, false) → s.badCopies.contains bad = false →
          exec i s = .next (({ s with badCopies := s.badCopies ++ [bad] } : State).log (entry 10 addr)))) ∧
    (∀ ctx pa l, s.place ctx = .memory pa l → l.inState .free = false → s.quarantine.contains ctx = false →
      ∃ x, x.event = 10 ∧ x.ctx = ctx ∧ x.addr = pa ∧
        exec (.eccError (.contextLine ctx)) s = .next ((s.poisonCtx ctx pa l (lineWho ctx l)).log x)) ∧
    (∀ ctx die, s.badCtxs.contains ctx = false →
      (∃ c e h, s.place ctx = .entry c e h ∧ die = c / 4096) ∨ (∃ cl x, s.place ctx = .l2 cl x ∧ die = dieOfCluster cl) ∨
        (∃ x, s.place ctx = .transfer x ∧ die = x.core / 4096) →
      ∃ x, x.event = 10 ∧ x.ctx = ctx ∧ x.die = die ∧ x.detail = 5 ∧
        exec (.eccError (.contextLine ctx)) s = .next (({ s with badCtxs := s.badCtxs ++ [ctx] } : State).log x)) ∧
    ∀ ctx pa l, s.badCtxs.contains ctx = true → l.inState .free = false →
      let t := s.writeCtx pa ctx l
      pa ∈ t.poison ∧ pa + 64 ∈ t.poison ∧ t.badCtxs.contains ctx = false

/-- Fault records, error logs, handler wakes and soft errors. -/
def Obligations.FaultSteps : Prop :=
  Claims.CoherentWrite ∧ Claims.RecordAppend ∧ Claims.LogAppend ∧ Claims.HandlerSteps ∧ Claims.SoftErrors

/-! ## Steps of banks, store buffers, wait tables and fences (R31, R57, R93 to R97, R260, R263, R276, R326, R341) -/

/-- R31, R57, R93, R99, R326, R341, R368: a bank performs a request that reaches it, at a TSP in the cycle in which it grants the
request's port: a load answers its bytes, or the poisoned-data fault; a store changes its own bytes of memory and no other;
`qpush` and `qpop` move TAIL and HEAD of their queue, and answer with the predicate clear when it is full or empty; an access from
outside the partition, and a store to a code partition, are refused with a protection fault. The order in which ports are
granted is the model's choice (assumption 110). -/
def Claims.BankAccesses : Prop :=
  ∀ (s : State) (n : Nat) (r : BankReq), s.bankQ[n]? = some r → s.MemoryOk →
    let t := { s with bankQ := listErase s.bankQ n }
    let i : Instr := .clmTspBankAccess n
    let a := r.addr
    let cl := clusterAt a
    let local_ := (∃ c off, targetOf a = .clm c off ∧ s.inCode c off = false) ∨ ∃ c off, targetOf a = .tsp c off
    let done (u : State) (v : Nat) : State := if r.posted then u else u.reply r.who 1 (r.reply.body v 0)
    let fault (u : State) (c : FaultCode) (va : Nat) : Host.Outcome State Fault Refusal :=
      .next (u.reply r.who 1 (.fault c r.op.access (replyAux r.who c) va (dieOfCluster cl)))
    (local_ → Reachable s r.who cl → s.bankTurn n r = none → exec i s = .next s) ∧
    (local_ → Reachable s r.who cl → ∀ v, s.bankTurn n r = some v → r.acq = false →
      (r.op = .load → r.posted = false → s.anyPoison a r.size = true → fault v .poisonedData a = exec i s) ∧
      (r.op = .load → r.posted = false → r.reply ≠ .reissue → s.anyPoison a r.size = false →
        exec i s = .next (v.reply r.who 1 (r.reply.body (memNat s.mem a r.size) 0))) ∧
      (∀ bs, r.op = .store bs → r.reply ≠ .reissue →
        ∃ u : State, (∀ k, k < bs.length → memByte u.mem (a + k) = bs.getD k 0) ∧
          (∀ x, x < a ∨ a + bs.length ≤ x → memByte u.mem x = memByte s.mem x) ∧
          { u with mem := s.mem } = v.spoil a bs.length ∧ exec i s = .next (done (u.popBuffer r.who.core) 0)) ∧
      (∀ c off, targetOf a = .tsp c off → s.anyPoison a r.size = false → ∀ d pf, r.reply = .queue d pf → r.posted = false →
        let w := memNat s.mem a 16
        let log := w / 2 ^ 64 % 2 ^ 4
        let tail := w / 2 ^ 32 % 2 ^ 31
        let head := w % 2 ^ 31
        let used := (tail + 2 ^ 31 - head) % 2 ^ 31
        let ok := 1 ≤ log ∧ log ≤ 12 ∧ w / 2 ^ 68 = 0 ∧ w / 2 ^ 63 % 2 = 0 ∧ w / 2 ^ 31 % 2 = 0 ∧
          off + 16 + 8 * 2 ^ log ≤ 0x78000
        let header (head tail : Nat) : Nat := head + 2 ^ 32 * tail + 2 ^ 64 * log
        let none_ : Host.Outcome State Fault Refusal := .next (v.reply r.who 1 (.done [] (some (pf, false)) 0))
        let some_ (u : State) (x : Nat) : Host.Outcome State Fault Refusal :=
          .next (u.reply r.who 1 (.done [(d, BitVec.ofNat 64 x)] (some (pf, true)) 0))
        let entry := a + 16 + 8 * (head % 2 ^ log)
        (¬ok → (∃ x, r.op = .atomic .qpush x ∨ r.op = .atomic .qpop x) → exec i s = fault v .bounds a) ∧
        (ok →
          (∀ x, r.op = .atomic .qpush x →
            (used = 2 ^ log → exec i s = none_) ∧
            (used ≠ 2 ^ log → ∃ u u', Stores v (a + 16 + 8 * (tail % 2 ^ log)) 8 x u ∧
              Stores u a 16 (header head ((tail + 1) % 2 ^ 31)) u' ∧ exec i s = some_ u' tail)) ∧
          (∀ x, r.op = .atomic .qpop x →
            (used = 0 → exec i s = none_) ∧
            (used ≠ 0 → s.anyPoison entry 8 = true → exec i s = fault v .poisonedData entry) ∧
            (used ≠ 0 → s.anyPoison entry 8 = false → ∃ u, Stores v a 16 (header ((head + 1) % 2 ^ 31) tail) u ∧
              exec i s = some_ u (memNat s.mem entry 8)))))) ∧
    (∀ c off bs, targetOf a = .clm c off → s.inCode c off = true → Reachable s r.who cl → r.op = .store bs →
      r.posted = true → ∃ x, x.event = 1 ∧ x.ctx = r.who.ctx ∧ x.addr = a ∧
        exec i s = .next { (t.log x).popBuffer r.who.core with
          nacks := ((t.log x).popBuffer r.who.core).nacks ++ [(r.who.ctx, r.who.gen, r.who.pc)] }) ∧
    ((∃ c off, targetOf a = .clm c off ∨ targetOf a = .tsp c off) → s.inPartition r.who.part.toNat cl = false →
      s.dieLive (dieOfCluster cl) = true → r.op = .load → r.posted = false →
      ∃ x, x.event = 1 ∧ x.ctx = r.who.ctx ∧ x.addr = a ∧ exec i s = .next ((t.log x).reply r.who 1
        (.fault .protection .load (replyAux r.who .protection) a (dieOfCluster cl))))

/-- R95, R96, R99, R105 to R107, R269, R271 to R273, R275 to R278, R341: what a bank does with the other requests that reach it, of
which those of another core or another cluster come only so. An atomic stores its new value and answers the old one, with the flags of
a floating sum; a full/empty operation reads or writes its word and turns its bit, waking the waiters of the other state, or has its
thread wait in the table of the word's cluster; a barrier word takes an arrival, and the last one releases the waiters; `swait` answers
a GENERATION that differs or waits; `sarm` arms or frees a guard. A poisoned word answers with the fault. -/
def Claims.BankUnits : Prop :=
  ∀ (s : State) (n : Nat) (r : BankReq) (v : State), s.bankQ[n]? = some r → s.MemoryOk → r.acq = false → r.reply ≠ .reissue →
    let i : Instr := .clmTspBankAccess n
    let a := r.addr
    let cl := clusterAt a
    ((∃ c off, targetOf a = .clm c off ∧ s.inCode c off = false) ∨ ∃ c off, targetOf a = .tsp c off) → Reachable s r.who cl →
    s.bankTurn n r = some v →
    let done (u : State) (x : Nat) (fl : BitVec 32) : Prop := exec i s = .next (u.reply r.who 1 (r.reply.body x fl))
    let faults (c : FaultCode) : Prop :=
      exec i s = .next (v.reply r.who 1 (.fault c r.op.access (replyAux r.who c) a (dieOfCluster cl)))
    let waits (u : State) (c : WaitCond) (kind : Nat) (back : Bool) : Prop :=
      let k := u.cluster cl
      let e : WaitEntry := { who := r.who, addr := a, cond := c, since := s.cycle,
                             limit := if kind = 3 then k.feLimit.toNat else k.barLimit.toNat }
      (∀ idx, freeIndex k.waits 256 0 = some idx → exec i s =
        .next ((u.setCluster cl { k with waits := Table.set k.waits idx e }).retag r.who kind (cl * 2 ^ 17 + idx) back)) ∧
      (freeIndex k.waits 256 0 = none → exec i s =
        .next (({ u with noents := u.noents ++ [(r.who, kind, s.cycle)] } : State).retag r.who kind (cl * 2 ^ 17 + 2 ^ 8) true))
    (∀ f, r.op = .feset f →
      let u := ((v.setFull a f).wakeWaiters a (fun c => c == if f then .full else .empty) (fun _ => .wake)).popBuffer r.who.core
      exec i s = .next (if r.posted then u else u.reply r.who 1 (r.reply.body 0 0))) ∧
    (r.posted = false →
      (∀ fn x, r.op = .atomic fn x → s.anyPoison a r.size = true → faults .poisonedData) ∧
      (∀ fn x, r.op = .atomic fn x → s.anyPoison a r.size = false →
        let m := memNat s.mem a r.size
        let w := 8 * r.size
        let int (f : AtomicFn) (new : Nat) : Prop := fn = f → ∃ u, Stores v a r.size new u ∧ done u m 0
        int .add (m + x) ∧ int .and (m &&& x) ∧ int .or (m ||| x) ∧ int .xor (m ^^^ x) ∧
        int .min (if signed w x < signed w m then x else m) ∧ int .max (if signed w m < signed w x then x else m) ∧
        int .minu (min m (x % 2 ^ w)) ∧ int .maxu (max m (x % 2 ^ w)) ∧ int .swap x ∧
        (∀ e, int (.cas e) (if m = e % 2 ^ w then x else m)) ∧
        ∀ f : AFmt,
          let p := match f with | .f64 => Fmt.f64.params | .f32 => Fmt.f32.params
          int (.xadd f) (eawAdd m (decodeFloat p x)) ∧
          (fn = .fadd f →
            let sum : Nat × FpFlags := match XVal.add false (decodeFloat p m) (decodeFloat p x) with
              | some y => roundF p y .rne false 0
              | none => (p.nan, { FpFlags.none with fv := true })
            ∃ u, Stores v a r.size sum.1 u ∧ done u m (BitVec.ofNat 32 sum.2.mask))) ∧
      (r.op = .ldfe →
        (s.anyPoison a 4 = true → faults .poisonedData) ∧
        (s.anyPoison a 4 = false → s.isFull a = true →
          done ((v.setFull a false).wakeWaiters a (fun c => c == .empty) (fun _ => .wake)) (memNat s.mem a 4) 0) ∧
        (s.anyPoison a 4 = false → s.isFull a = false → waits v .full 3 true)) ∧
      (∀ x, r.op = .stfe x →
        (s.isFull a = false → ∃ u, Stores v a 4 x.toNat u ∧
          done ((u.setFull a true).wakeWaiters a (fun c => c == .full) (fun _ => .wake)) 0 0) ∧
        (s.isFull a = true → waits v .empty 3 true)) ∧
      (∀ wait x, r.op = .barrier wait x →
        let w := memNat s.mem a 16
        let count := w % 2 ^ 16
        let arrived := w / 2 ^ 16 % 2 ^ 16
        let op := w / 2 ^ 32 % 2 ^ 4
        let gen := w / 2 ^ 36 % 2 ^ 28
        let y := barrierCombine op (w / 2 ^ 64) x.toNat
        (s.anyPoison a 16 = true → faults .poisonedData) ∧
        (s.anyPoison a 16 = false → count = 0 ∨ 5 ≤ op ∨ count ≤ arrived → faults .bounds) ∧
        (s.anyPoison a 16 = false → 0 < count → op < 5 → arrived + 1 < count →
          (wait = false → ∃ u, Stores v a 16 (barrierWord count (arrived + 1) op gen y) u ∧ done u gen 0) ∧
          (wait = true → ∀ idx, freeIndex (v.cluster cl).waits 256 0 = some idx →
            ∃ u, Stores v a 16 (barrierWord count (arrived + 1) op gen y) u ∧ waits u (.bar gen r.reply.dest) 5 false) ∧
          (wait = true → freeIndex (v.cluster cl).waits 256 0 = none → waits v (.bar gen r.reply.dest) 5 false)) ∧
        (s.anyPoison a 16 = false → 0 < count → op < 5 → arrived + 1 = count →
          ∃ u, Stores v a 16 (barrierWord count 0 op ((gen + 1) % 2 ^ 28) (barrierIdentity op)) u ∧
            done (u.wakeWaiters a (fun c => match c with | .bar h _ => h == gen | .full | .empty | .sync _ => false)
              (fun c => match c with | .bar _ d => .done [(d, BitVec.ofNat 64 y)] none 0 | .full | .empty | .sync _ => .wake))
              (if wait then y else gen) 0)) ∧
      (∀ g, r.op = .swait g →
        let now := memNat s.mem a 16 / 2 ^ 64 % 2 ^ 32
        (s.anyPoison a 16 = true → faults .poisonedData) ∧
        (s.anyPoison a 16 = false → now ≠ g.toNat → done v now 0) ∧
        (s.anyPoison a 16 = false → now = g.toNat → waits v (.sync g) 4 true)) ∧
      ∀ free start len o d pf, r.op = .sarm free start len o → r.reply = .queue d pf →
        let k := v.cluster cl
        let word (x : Nat) : Nat := setBits (memNat s.mem a 16) 96 96 x
        let guards (x : Table GuardRange) : State := v.setCluster cl { k with guards := x }
        let ends (idx : Nat) (u : State) : Prop :=
          exec i s = .next (u.reply r.who 1 (.done [(d, BitVec.ofNat 64 idx)] (some (pf, false)) 0))
        let refused : Prop := exec i s = .next (v.reply r.who 1 (.done [] (some (pf, true)) 0))
        (s.anyPoison a 16 = true → faults .poisonedData) ∧
        (s.anyPoison a 16 = false → free = true →
          (∀ idx e, k.guards.find? (fun e => e.2.sync == a - tspBase cl) = some (idx, e) →
            ∃ u, Stores (guards (Table.erase k.guards idx)) a 16 (word 0) u ∧ ends idx u) ∧
          (k.guards.find? (fun e => e.2.sync == a - tspBase cl) = none → refused)) ∧
        (s.anyPoison a 16 = false → free = false →
          let busy := k.guards.any fun e => decide (0 < overlapBytes start len e.2.start e.2.len)
          (busy = true ∨ freeIndex k.guards 16 0 = none → refused) ∧
          (busy = false → ∀ idx, freeIndex k.guards 16 0 = some idx →
            ∃ u, Stores (guards (Table.set k.guards idx { start := start, len := len, sync := a - tspBase cl })) a 16 (word 1) u ∧
              ends idx u)))

/-- What a bank does with the requests that reach it. -/
def Obligations.BankSteps : Prop := Claims.BankAccesses ∧ Claims.BankUnits

/-- R67, R87, R96, R97, R107, R260, R263, R276, R288, R371: a wait whose limit has passed leaves its table and takes FE_TIMEOUT or BAR_TIMEOUT with
the limit in AUX; a thread that found the table full tries again after 256 cycles; the head of a store buffer goes to its
bank, to the translation unit, or out; a fence probe echoes when its slice group has nothing of the context left, and the
last echo wakes the fence. A store or an atomic of the paged space that its brick owns is performed at once in the brick (R67, R260,
R288), and an atomic that combines joins the front end of the slice (R87). That a head leaves its buffer by one step of its own is the
model's choice (assumption 33), and so are how atomics form groups at a slice (assumption 34), the zero-length read of the host
port's probe (assumption 98) and the room of the combining front end of a slice (assumption 108). -/
def Obligations.BufferSteps : Prop :=
  ∀ (s : State),
    (∀ cl idx e, Table.get? (s.cluster cl).waits idx = some e → e.since + e.limit ≤ s.cycle →
      let t := s.setCluster cl { s.cluster cl with waits := Table.erase (s.cluster cl).waits idx }
      let out (kind : Nat) (code : FaultCode) : Host.Outcome State Fault Refusal :=
        .next (t.reply e.who kind (.fault code .none (BitVec.ofNat 32 e.limit) e.addr (dieOfCluster cl)))
      (e.cond = .full ∨ e.cond = .empty → exec (.feWaitTimeout cl idx) s = out 3 .feTimeout) ∧
      (∀ gen, e.cond = .sync gen → exec (.barWaitTimeout cl idx) s = out 4 .barTimeout) ∧
      (∀ gen d, e.cond = .bar gen d → exec (.barWaitTimeout cl idx) s = out 5 .barTimeout)) ∧
    (∀ va w kind since, s.noents.find? (fun x => x.1.ctx == va) = some (w, kind, since) → since + 256 ≤ s.cycle →
      exec (.feNoentRetry va) s = .next ({ s with noents := s.noents.erase (w, kind, since) }.reply w kind .wake)) ∧
    (∀ core e es, (s.core core).storeBuf = e :: es → (s.core core).sbPhase = .idle → e.isWriteBack = false →
      let c := s.core core
      let sent : State := if e.op.holdsHead then s.setCore core { c with sbPhase := .sent } else s.popBuffer core
      ((∃ x off, targetOf e.va = .clm x off ∨ targetOf e.va = .tsp x off ∨ targetOf e.va = .reg x off) →
        exec (.storeBufferAccept core) s = .next { sent with bankQ := s.bankQ ++ [
          { who := e.who, addr := e.va, size := e.size, op := e.op, reply := e.reply, posted := e.posted, acq := e.acq }] }) ∧
      (targetOf e.va = .paged →
        let t := s.touch e.who e.va
        let d := core / 4096
        let here := t.writableHere d e.va && !t.inPool e.va
        (here = false →
          exec (.storeBufferAccept core) s = .next { t.sendHead core e with
            reqs := t.reqs ++ [{ who := e.who, va := e.va, size := e.size, op := e.op, reply := e.reply, phase := .xlat,
                                 posted := e.posted, acq := e.acq, heldUntil := 0, via := none }] }) ∧
        (here = true → ∀ bs, e.op = .store bs →
          let u := t.closeSlices d e.va
          exec (.storeBufferAccept core) s = .next ((u.writeInBrick (core / 8) e.va
            (mergeBytes ((u.brickData d e.va).getD 0) (e.va % 64) (bs.map some))).accessDone e.who e.op e.posted e.reply 0 0)) ∧
        (here = true → ∀ fn x, e.op = .atomic fn x → fn ≠ .qpush → fn ≠ .qpop →
          exec (.storeBufferAccept core) s = .next (if fn.combines then t.combineHere core e fn
            else ((t.popBuffer core).closeSlices d e.va).atomicHere e fn x)))) ∧
    ∀ n f, s.fences[n]? = some f →
      (f.probes.contains (100, 0) = true → ∃ q : OutReq, q.size = 0 ∧ q.op = .load ∧ q.who = f.who ∧ q.posted = false ∧
        exec (.fenceProbe n) s = .next { s with
          fences := listSet s.fences n { f with probes := f.probes.erase (100, 0) ++ [(100, 1)] },
          outReqs := s.outReqs ++ [q], outbox := s.outbox ++ [.pcie q] }) ∧
      (f.probes.contains (100, 0) = false →
        (∀ p, f.probes.find? (fun p => !s.probeBusy f.who p) = some p → exec (.fenceProbe n) s =
          .next { s with fences := listSet s.fences n { f with probes := f.probes.erase p, echoed := f.echoed ++ [p] } }) ∧
        (f.probes.find? (fun p => !s.probeBusy f.who p) = none → exec (.fenceProbe n) s = .next s)) ∧
      (∀ x rest, f.echoed = x :: rest →
        ((rest ≠ [] ∨ f.probes ≠ []) → exec (.probeEcho n) s =
          .next { s with fences := listSet s.fences n { f with echoed := rest } }) ∧
        (rest = [] → f.probes = [] →
          let t := { s with fences := listErase s.fences n }
          (∀ c e h, s.findEntry f.who.ctx = some (c, e, h) → h.line.gen = f.who.gen →
            exec (.probeEcho n) s = .next ((t.putHeld c e { h with fenced := some f.scope }).reply f.who 1 .wake)) ∧
          ((∀ c e h, s.findEntry f.who.ctx = some (c, e, h) → h.line.gen ≠ f.who.gen) →
            exec (.probeEcho n) s = .next (t.reply f.who 1 .wake))))

/-! ## Steps of translation and protection (R39, R40, R42 to R46, R50, R51, R53, R54) -/

/-- R39, R40: a refill installs what the rights list gives at the next place of the PLB, in place of every entry of its domain that
it overlaps, or leaves word at the core that it found nothing, where its context still is (assumption 13), and wakes its
thread; `plbi` removes what overlaps its range at each core and completes with the last. That a list entry is used as it stands
is the model's choice (assumption 99). -/
def Claims.PlbSteps : Prop :=
  ∀ (s : State) (n : Nat),
    (∀ f, s.plbFills[n]? = some f →
      let t := { s with plbFills := listErase s.plbFills n }
      let c := s.core f.core
      let entry := s.refillEntry f.who.domain.toNat f.who.part.toNat f.va
      let ends (c' : CoreState) : Prop := exec (.plbRefill n) s = .next ((t.setCore f.core c').reply f.who 8 .wake)
      let here : Prop := ∃ e h, s.findEntry f.who.ctx = some (f.core, e, h) ∧ h.line.gen = f.who.gen
      (entry = none → here → ends { c with denied := c.denied ++
        [{ ctx := f.who.ctx, gen := f.who.gen, domain := f.who.domain.toNat, va := f.va }] }) ∧
      (entry = none → ¬here → ends c) ∧
      ∀ e, entry = some e →
        let meets (x : BitVec 128) : Bool := bits x.toNat 127 112 == bits e 127 112 &&
          regionsMeet (bits x.toNat 55 0) (bits x.toNat 103 98) (bits e 55 0) (bits e 103 98)
        ends { c with plb := Table.set (c.plb.filter fun x => !meets x.2) c.plbNext (BitVec.ofNat 128 e),
                      plbNext := (c.plbNext + 1) % 64 }) ∧
    ∀ v core, s.invs[n]? = some v → v.domain.isSome = true → v.left.contains core = true →
      let c := s.core core
      let t := s.setCore core { c with plb := c.plb.filter fun x => !plbMeets x.2 v.domain v.base v.log2,
                                       denied := c.denied.filter fun d => !d.meets v.domain v.base v.log2 }
      exec (.plbiCoreInvalidate n core) s = .next (if v.left.filter (· != core) = [] then
        { t with invs := listErase s.invs n }.reply v.who 1 (.done [] none 0)
        else { t with invs := listSet s.invs n { v with left := v.left.filter (· != core) } })

/-- R41, R44, R45, R46, R50: `tlbi` removes the translations of a brick that overlap its range and clears the recorded WR of the
lines of its L2 there, and completes with the last brick; a lookup sends a request on, or makes its page fault. That a new table
is used at once is the model's choice (assumption 104), and so are the bits of an entry that a match ignores (105) and the first
check that an entry fails (106). -/
def Claims.TranslationSteps : Prop :=
  ∀ (s : State) (n : Nat),
    (∀ v (d : Die), s.invs[n]? = some v → v.domain = none → v.left.contains d.val = true →
      let b := s.brick d.val
      let meets (x : TlbEntry) : Bool := regionsMeet (bits x.entry.toNat 55 0 / 2 ^ 16 * 2 ^ 16)
        (pteSizeLog2 x.entry.toNat) v.base v.log2
      let lines (x : Nat × L2Line) : Nat × L2Line :=
        if regionsMeet (x.1 * 256) 8 v.base v.log2 then (x.1, { x.2 with wr := false }) else x
      let u := s.setBrick d.val { b with tlb := b.tlb.filter fun x => !meets x.2 }
      let t : State := { u with l2 := u.l2.modify d.val fun x => x.map lines }
      exec (.tlbiBrickInvalidate n d) s = .next (if v.left.filter (· != d.val) = [] then
        { t with invs := listErase s.invs n }.reply v.who 1 (.done [] none 0)
        else { t with invs := listSet s.invs n { v with left := v.left.filter (· != d.val) } })) ∧
    ∀ r, s.reqs[n]? = some r → r.phase = .xlat →
      (∀ e t, s.lookup (dieOfCore r.who.core) r.va r.op.writes = (.ok e, t) →
        exec (.translationLookup n) s = .next (t.route r (pteAddr e r.va) (pteWr e) (pteMaster e))) ∧
      (∀ c t, s.lookup (dieOfCore r.who.core) r.va r.op.writes = (.error c, t) →
        exec (.translationLookup n) s = .next ((t.dropReq r).pageFaulted r c))

/-- R16, R33, R34, R259, R274: where a translated access goes: to its home behind what has arrived there, over the circuit of its
line where that is another brick's, once that pair can send; out over PCIe; or over a peer's circuit, or NO_CIRCUIT without
one. A full/empty, barrier or queue operation of the paged space is refused. Which circuit carries a request, and that requests wait
while a commit takes it, are the model's choices (assumptions 91 and 111). -/
def Claims.RouteResult : Prop :=
  ∀ (s : State) (r : Req) (pa m : Nat) (wr : Bool), s.inPool r.va = false →
    let a := dieOfCore r.who.core
    let b := s.unitDie pa r.who
    let plain : Prop := r.op = .load ∨ (∃ f u, r.op = .subscribe f u) ∨ ∃ bs, r.op = .store bs
    let dropped := s.dropReq r
    let device : Prop := s.rangeOf pa = .hashed ∨ (∃ d, s.rangeOf pa = .die d) ∨ s.rangeOf pa = .hostCoherent
    let refused (c : FaultCode) (d : Option Nat) : Prop :=
      s.route r pa wr m = dropped.accessFault r.who r.va r.op r.posted a c d false
    (device → plain → s.dieLive b = true → s.pairOpen a b pa = false → s.route r pa wr m = s) ∧
    (device → plain → (s.dieLive b = false ∨ s.pairOpen a b pa = true) → s.route r pa wr m =
      { dropped with reqs := dropped.reqs ++ [{ r with phase := .home pa wr m, via := dropped.circuitOf a b pa }] }) ∧
    (device → (r.op = .ldfe ∨ (∃ v, r.op = .stfe v) ∨ (∃ v, r.op = .feset v) ∨ (∃ x, r.op = .atomic .qpush x) ∨
      (∃ x, r.op = .atomic .qpop x) ∨ (∃ w x, r.op = .barrier w x) ∨ (∃ g, r.op = .swait g)) → refused .protection (some 2)) ∧
    (s.rangeOf pa = .hostUncached → plain → r.size ≤ 8 → s.route r pa wr m = s.sendOut r pa m none) ∧
    (s.rangeOf pa = .peer → plain → r.size ≤ 8 →
      (s.circuitTo a (peerPort pa) = true → s.route r pa wr m = s.sendOut r pa m (some (peerPort pa))) ∧
      (s.circuitTo a (peerPort pa) = false → s.circuitTuning a (peerPort pa) = true → s.route r pa wr m = s) ∧
      (s.circuitTo a (peerPort pa) = false → s.circuitTuning a (peerPort pa) = false → refused .noCircuit none))

/-- R50, R51: a page-fault message is written into the slot that TAIL of its partition's queue names while that has room, TAIL
advances by one and the handler is woken; until then it keeps its place. That a lease of a peer holds the arbiter back is the
model's choice (assumption 114). -/
def Claims.PageFaultMessages : Prop :=
  ∀ (s : State) (d : Die) (n : Nat) (m : PfMsg), (s.brick d.val).pfHeld[n]? = some m →
    let i := Instr.pfqMessageAccept d n
    let b := s.brick d.val
    let p := m.who.part.toNat
    let base := ((Table.get? s.regs.pfqBase p).getD 0#64).toNat
    let slots := if base / 2 ^ 48 % 2 ^ 5 = 0 then 0 else 2 ^ (base / 2 ^ 48 % 2 ^ 5)
    let tail := ((Table.get? s.regs.pfqTail p).getD 0#32).toNat
    let head := ((Table.get? s.regs.pfqHead p).getD 0#32).toNat
    let used := (tail + 2 ^ 32 - head) % 2 ^ 32
    let slot := base % 2 ^ 48 + 32 * (tail % slots)
    (slots ≤ used → exec i s = .next s) ∧
    (used < slots → s.leased slot 32 = true → exec i s = .next s) ∧
    (used < slots → s.leased slot 32 = false →
      let t := (s.setBrick d.val { b with pfHeld := listErase b.pfHeld n }).cohPut slot m.bytes
      let u : State := { t with regs := { t.regs with
        pfqTail := Table.set t.regs.pfqTail p (BitVec.ofNat 32 (tail + 1)) } }
      exec i s = .next (u.wakeHandler 0 false p (((Table.get? u.regs.pfqHandler p).getD 0#64).toNat % 2 ^ 56)
        (m.who.ctx, m.who.pc, m.who.domain, m.who.part)))

/-- R53, R54, R55, R109: a migration takes over its marked lines in rounds and moves them one by one, freezes its frame, waits for
what is under way in it, moves what is left and switches; a cancelled one ends; a freeze that lasts too long is abandoned, the
fourth time for good with MIG_ABORT. How rounds and lines are counted is the model's choice (assumptions 84 and 85). -/
def Claims.MigrationSteps : Prop :=
  ∀ (s : State) (n : Nat) (g : Migration), s.migrations[n]? = some g →
    let put (u : State) (h : Migration) : State := { u with migrations := listSet u.migrations n h }
    (∀ st, s.migrationEnding g = some st →
      exec (.migrationRound n) s = .next (s.endMigration n st) ∧ exec (.migrationFreeze n) s = .next (s.endMigration n st)) ∧
    (s.migrationEnding g = none →
      (g.frozenAt.isSome = true → exec (.migrationRound n) s = .next s) ∧
      (g.frozenAt = none → g.pending ≠ [] → exec (.migrationRound n) s = .next (s.migrateLines n g.pending)) ∧
      (g.frozenAt = none → g.pending = [] → g.roundDue = true → exec (.migrationRound n) s =
        .next (put s { g with pending := g.marked, marked := [], rounds := g.rounds + 1 })) ∧
      (g.frozenAt = none → g.pending = [] → g.roundDue = false → exec (.migrationRound n) s = .next s) ∧
      (g.frozenAt = none → g.pending ≠ [] ∨ g.roundDue = true → exec (.migrationFreeze n) s = .next s) ∧
      (g.frozenAt = none → g.pending = [] → g.roundDue = false → exec (.migrationFreeze n) s =
        .next ((put s { g with frozenAt := some s.cycle }).freezeAll g)) ∧
      (g.frozenAt.isSome = true →
        let u := (s.freezeAll g).askFrame g
        (u.frameBusy g = true → exec (.migrationFreeze n) s = .next u) ∧
        (u.frameBusy g = false → ∀ v, u.ownFrame g = some v → exec (.migrationFreeze n) s = .next v) ∧
        (u.frameBusy g = false → u.ownFrame g = none → exec (.migrationFreeze n) s = .next (u.copyFrozen n g)))) ∧
    (g.frozenAt = none → exec (.migrationFreezeAbandon n) s = .next s) ∧
    (∀ t, g.frozenAt = some t →
      (s.cycle < t + 12000 → exec (.migrationFreezeAbandon n) s = .next s) ∧
      (t + 12000 ≤ s.cycle → g.abandoned = 3 → exec (.migrationFreezeAbandon n) s = .next (s.endMigration n .migAbort)) ∧
      (t + 12000 ≤ s.cycle → g.abandoned ≠ 3 → exec (.migrationFreezeAbandon n) s =
        .next ((put s { g with frozenAt := none, abandoned := g.abandoned + 1, rounds := 0 }).releaseFrozen g)))

/-- R53, R55: a line that is moved is no longer pending, and one that cannot be moved ends the migration, which leaves its status with
its job. -/
def Claims.MigrationLines : Prop :=
  ∀ (s : State) (n l : Nat) (g : Migration), s.migrations[n]? = some g →
    let pa := l * 256
    let target := g.newFrame + (pa - g.oldFrame)
    (∀ u, s.migrateLine g l = .done u → s.migrateLines n [l] = u.setMigration n fun h => { h with pending := h.pending.erase l }) ∧
    (∀ u, s.migrateLine g l = .wait u → s.migrateLines n [l] = u) ∧
    (∀ u st, s.migrateLine g l = .stop u st → s.migrateLines n [l] = u.endMigration n st) ∧
    (s.MemoryOk → (s.rangeOf target = .hashed ∨ ∃ d, s.rangeOf target = .die d) → ∀ va bs u,
      s.frameWrite (s.migrationAt g) va target bs = .done u → ∀ k, k < bs.length → memByte u.mem (target + k) = bs.getD k 0) ∧
    ∀ st, s.endMigration n st = (({ s with
        migrations := listErase s.migrations n,
        inflow := s.inflow.filter fun f => f.unit != (s.migrationAt g).unit } : State).releaseFrozen g).endWith g.job.1 g.job.2 st

/-- Refills, invalidations, lookups, page-fault messages and migrations. -/
def Obligations.TranslationAndMigration : Prop :=
  Claims.PlbSteps ∧ Claims.TranslationSteps ∧ Claims.RouteResult ∧ Claims.PageFaultMessages ∧ Claims.MigrationSteps ∧
    Claims.MigrationLines

/-! ## Writes of the register window (R30, R51, R56, R304, R305, R337, R376, R401) -/

/-- R17, R42, R86, R113, R138, R304, R337, R362, R365, R377, R401: the value that each register with no step of its own takes, and
what it then holds. The model's own choices: a ring of size field 0 takes any base, and CT_STATUS and ATT_STATUS refuse every
write (assumption 103); CT_SHADOW refuses reserved bits, LINK, and beside B_EXT a B_BRICK or a B_PORT above 7 (assumption 102). -/
def Claims.RegisterValues : Prop :=
  ∀ (s : State) (d : Die) (v : Nat), v < 2 ^ 64 →
    let x := BitVec.ofNat 64 v
    let y := BitVec.ofNat 32 v
    let g := s.regs
    let k := s.brick d.val
    let takes (b : Block) (o : Nat) (ok : Prop) (t : State) : Prop :=
      (ok → s.writeRegister d.val b o v = some t) ∧ (¬ ok → s.writeRegister d.val b o v = none)
    let dev (b : Block) (o : Nat) (ok : Prop) (r : DevRegs) : Prop := takes b o ok { s with regs := r }
    let own (b : Block) (o : Nat) (ok : Prop) (r : Brick) : Prop := takes b o ok (s.setBrick d.val r)
    let log2Size := v / 2 ^ 48
    let ring (slot : Nat) : Prop := v < 2 ^ 53 ∧
      (log2Size = 0 ∨ (4 ≤ log2Size ∧ log2Size ≤ 16 ∧ v % 2 ^ 48 % (slot * 2 ^ log2Size) = 0))
    let base (align : Nat) : Prop := v < 2 ^ 48 ∧ v % align = 0
    (dev .translation 0 (base (256 * 2 ^ (g.ptLog2b.toNat % 32))) { g with ptBase := x } ∧
      dev .translation 8 ((v = 0 ∨ (10 ≤ v ∧ v ≤ 28)) ∧ g.ptBase.toNat % (256 * 2 ^ v) = 0) { g with ptLog2b := x } ∧
      dev .translation 0x10 (base (2 ^ 21)) { g with drtBase := x, drtWritten := true } ∧
      ∀ n, n < 64 →
        dev .translation (0x100 + 32 * n) (ring 32) { g with pfqBase := Table.set g.pfqBase n x } ∧
        dev .translation (0x110 + 32 * n) (v < 2 ^ 56 ∧ v % 128 = 0) { g with pfqHandler := Table.set g.pfqHandler n x }) ∧
    (own .coherence 0 (1000 ≤ v ∧ v ≤ 1000000) { k with cohLease := y } ∧
      own .coherence 8 ((∃ i, 10 ≤ i ∧ i ≤ 16 ∧ v = 2 ^ i) ∧ v ≤ k.cohLeaseMax.toNat) { k with cohLeaseMin := y } ∧
      own .coherence 0x10 ((∃ i, i ≤ 20 ∧ v = 2 ^ i) ∧ k.cohLeaseMin.toNat ≤ v) { k with cohLeaseMax := y } ∧
      own .coherence 0x18 (v < 2 ^ 8) { k with portCompat := y }) ∧
    (dev .context 0 (g.launchLocked = false ∧ v < 2 ^ 56 ∧ v % 2 ^ 16 = 0) { g with ctxPoolBase := x } ∧
      dev .context 8 (g.launchLocked = false ∧ 1 ≤ v ∧ v ≤ 2 ^ 29) { g with ctxPoolCount := x } ∧
      dev .code 0 (base (2 ^ 20)) { g with ovtDirBase := x, ovtWritten := true } ∧
      dev .hostPort 0 (d.val = 0 ∧ 1000 ≤ v ∧ v ≤ 3000) { g with powerLimit := x } ∧
      dev .hbm 0 (d.val = 0 ∧ v ≤ 48 ∧ g.launchLocked = false) { g with hashedSize := x }) ∧
    ((∀ n, n < 256 →
        dev .scheduling (32 * n) (ring 64) { g with lqBase := Table.set g.lqBase n x } ∧
        dev .scheduling (0x10 + 32 * n) (v < 32) { g with lqPrio := Table.set g.lqPrio n x }) ∧
      (∀ p, p < 64 → dev .scheduling (0x2000 + 8 * p) (v < 32) { g with prioCap := Table.set g.prioCap p x }) ∧
      dev .scheduling 0x2200 (64 ≤ v ∧ v ≤ 65536) { g with expandLow := x } ∧
      own .scheduling 0x3000 (base (2 ^ 16) ∧ s.rangeOf v = .die d.val ∧ s.rangeOf (v + (8 * s.poolCount - 1)) = .die d.val)
        { k with spillBase := x } ∧
      own .scheduling 0x3008 (base (2 ^ 16)) { k with freemapBase := x }) ∧
    (dev .fault 0 (base (2 ^ 21)) { g with fqDirBase := x, fqWritten := true } ∧
      own .fault 0x100 (ring 32) { k with elogBase := x } ∧
      own .fault 0x108 True { k with elogHead := BitVec.ofNat 32 (v / 2 ^ 32) }) ∧
    (∀ n, n < 64 → takes .mortar (8 * n)
      (v / 2 ^ 61 % 4 = 0 ∧ v / 2 ^ 16 % 2 ^ 45 = 0 ∧ v / 2 ^ 12 % 8 = 0 ∧ (v / 2 ^ 15 % 2 = 1 → v / 2 ^ 10 % 4 = 0 ∧ v / 2 ^ 6 % 16 < 8))
      { s with mortar := { s.mortar with shadow := Table.set s.mortar.shadow n x } }) ∧
    (∀ p, p < 8 →
      takes .mortar (0x500 + 16 * p) (v < 2 ^ 56)
        { s with mortar := { s.mortar with talakVbase := Table.set s.mortar.talakVbase p x } } ∧
      takes .mortar (0x508 + 16 * p) (v < 2 ^ 32 ∧ v / 2 ^ 22 % 2 ^ 9 = 0 ∧ 16 ≤ v / 2 ^ 16 % 64 ∧ v / 2 ^ 16 % 64 ≤ 43)
        { s with mortar := { s.mortar with talakCfg := Table.set s.mortar.talakCfg p x } }) ∧
    (∀ o, 0x200 ≤ o → o < 0x500 → s.writeRegister d.val .mortar o v = none) ∧
    (∀ n, n < 4 → takes .attestation (8 * n) True { s with att := { s.att with nonce := Table.set s.att.nonce n x } }) ∧
    ∀ o, 0x20 ≤ o → s.writeRegister d.val .attestation o v = none

/-- R401: a register that takes a value reads back as that value, but for ELOG_PTR, whose TAIL the hardware keeps. -/
def Claims.RegisterReadBack : Prop :=
  ∀ (s t : State) (d : Die) (b : Block) (o w v : Nat), v < 2 ^ 64 → registerAt d.val b o = some (o, w) → ownRow b o = none →
    ¬ (b = .fault ∧ o = 0x108) → s.writeRegister d.val b o v = some t → t.readRegister d.val b o = v

/-- R30, R51, R56, R304, R305, R337, R376, R401: a host write of a register has its effect, or leaves the register and is
logged as REGISTER_REFUSED: the general registers as `Claims.RegisterValues` says, and the registers with a step of their own. The
model's own choice: a write of ATT_GO with another value than 1 is ignored (assumption 103). -/
def Claims.HostRegisterWrites : Prop :=
  ∀ (s : State) (w : RegAccess), w.src = .host → registerFault w.die.val w.block w.offset w.width = none →
    let v := w.value.toNat
    let out (i : Instr) (ok : Prop) (t : State) : Prop :=
      (ok → exec i s = .next t) ∧
      (¬ ok → ∃ x, x.event = 2 ∧ x.detail = w.offset ∧ x.die = w.die.val ∧ exec i s = .next (s.log x))
    (ownRow w.block w.offset = none → w.block ≠ .capability →
      (∀ t, s.writeRegister w.die.val w.block w.offset v = some t → exec (.registerWrite w) s = .next t) ∧
      (s.writeRegister w.die.val w.block w.offset v = none →
        ∃ x, x.event = 2 ∧ x.detail = w.offset ∧ exec (.registerWrite w) s = .next (s.log x))) ∧
    (w.block = .fault → w.offset = 0x100 → out (.registerWrite w) (ringOk v 32 = true)
      (s.setBrick w.die.val { s.brick w.die.val with elogBase := BitVec.ofNat 64 v })) ∧
    (w.block = .scheduling → w.offset < 0x2000 → w.offset % 32 = 8 → out (.launchQueueTailWrite w)
      (lqSlots (s.lqBaseOf (w.offset / 32)) ≠ 0)
      (let tails := Table.set s.lockLaunch.regs.lqTail (w.offset / 32) (BitVec.ofNat 32 v)
       { s.lockLaunch with regs := { s.lockLaunch.regs with lqTail := tails } })) ∧
    (w.block = .translation → 0x100 ≤ w.offset → w.offset % 32 = 8 → out (.pfqHeadWrite w) True
      (let heads := Table.set s.regs.pfqHead ((w.offset - 0x100) / 32) (BitVec.ofNat 32 (v / 2 ^ 32))
       { s with regs := { s.regs with pfqHead := heads } })) ∧
    (w.block = .fault → w.offset = 0x110 → out (.elogLostClear w) True
      (if v = 0 then s.setBrick w.die.val { s.brick w.die.val with elogLost := 0#32 } else s)) ∧
    (w.block = .partition → out (.partRectWrite w) (s.rectOk w.die.val (w.offset / 8) v = true)
      (s.setBrick w.die.val { s.brick w.die.val with
        rects := Table.set (s.brick w.die.val).rects (w.offset / 8) (BitVec.ofNat 64 v) })) ∧
    (w.block = .attestation → w.offset = 0x20 → out (.attGo w) True
      (if v = 1 ∧ s.att.busy = false then { s with att := { s.att with busy := true, done := false } } else s))

/-- R30, R361, R363, R401: a peer's write of a register has the effect of a host's, and is then acknowledged; the store of a
context completes with the effect, also where the register refuses the value, and takes its fault where R30 refuses its form. -/
def Claims.OtherRegisterWrites : Prop :=
  ∀ (s : State) (w : RegAccess),
    (∀ p, w.src = .talak p → registerFault w.die.val w.block w.offset w.width = none → w.block ≠ .capability →
      let acked (i : RegAccess → Instr) : Prop := ∀ t, exec (i { w with src := .host }) s = .next t →
        exec (i w) s = .next { t with outbox := t.outbox ++ [.talakAck p.val] }
      (ownRow w.block w.offset = none → acked .registerWrite) ∧
      (ownRow w.block w.offset = some .lqPtr → acked .launchQueueTailWrite) ∧
      (ownRow w.block w.offset = some .pfqPtr → acked .pfqHeadWrite) ∧
      (ownRow w.block w.offset = some .elogLost → acked .elogLostClear) ∧
      (ownRow w.block w.offset = some .partRect → acked .partRectWrite) ∧
      (ownRow w.block w.offset = some .ctCommit → acked .ctCommit) ∧
      (ownRow w.block w.offset = some .brickState → acked .brickQuiesce) ∧
      (ownRow w.block w.offset = some .attGo → acked .attGo)) ∧
    ∀ who r, w.src = .ctx who → s.findWrite w = some r →
      let u : State := { s with bankQ := s.bankQ.erase r }
      let done (t : State) : Host.Outcome State Fault Refusal := .next (t.accessDone r.who r.op r.posted r.reply 0 0)
      (∀ c, registerFault w.die.val w.block w.offset w.width = some c → exec (.registerWrite w) s =
        .next (u.accessFault r.who r.addr r.op r.posted w.die.val c (some 2) false)) ∧
      (ownRow w.block w.offset = none → registerFault w.die.val w.block w.offset w.width = none → w.block ≠ .capability →
        (∀ t, u.writeRegister w.die.val w.block w.offset w.value.toNat = some t → exec (.registerWrite w) s = done t) ∧
        (u.writeRegister w.die.val w.block w.offset w.value.toNat = none →
          ∃ x, x.event = 2 ∧ x.detail = w.offset ∧ x.ctx = who.ctx ∧ exec (.registerWrite w) s = done (u.log x)))

/-- Writes of the register window: what each register takes, what it reads afterwards, and the steps of the writes of the host, of
peers and of contexts. -/
def Obligations.RegisterWriteSteps : Prop :=
  Claims.RegisterValues ∧ Claims.RegisterReadBack ∧ Claims.HostRegisterWrites ∧ Claims.OtherRegisterWrites

/-! ## Steps of scheduling (R305 to R319, R321, R381) -/

/-- R304 to R310: the record at HEAD is read from its slot; one that breaks R307 has its CURSOR set to 2³² − 1 and leaves the
queue with a log entry. A read or a write that has to wait (R80, R84, assumption 114) changes nothing but what it asks for. -/
def Claims.RecordSteps : Prop :=
  ∀ (s : State) (q : Nat),
    (s.lqEmpty q = false → s.headWaits q false = none →
      s.headRecord q = some (s.cohWide (s.lqBaseOf q % 2 ^ 48 + 64 * (s.lqHeadOf q % 2 ^ (s.lqBaseOf q / 2 ^ 48 % 2 ^ 5))) 64)) ∧
    (s.headRecord q = none → exec (.launchRecordDiscard q) s = .next ((s.headWaits q false).getD s)) ∧
    (∀ r, s.headRecord q = some r →
      (s.recordOk q r = true → exec (.launchRecordDiscard q) s = .next s) ∧
      (∀ t, s.recordOk q r = false → s.headWaits q true = some t → exec (.launchRecordDiscard q) s = .next t) ∧
      (s.recordOk q r = false → s.headWaits q true = none →
        ∃ x, x.event = 3 ∧ x.detail = q * 2 ^ 16 + s.lqHeadOf q % 2 ^ 16 ∧ x.die = 0 ∧
          exec (.launchRecordDiscard q) s = .next (((s.putCursor q (2 ^ 32 - 1)).log x).nextHead q))) ∧
    (∀ v, s.putCursor q v = s.cohPut (s.lqSlot q (s.lqHeadOf q) + 8) (toBytes 4 v)) ∧
    let u := s.nextHead q
    Table.get? u.regs.lqHead q = some (BitVec.ofNat 32 (s.lqHeadOf q + 1)) ∧ u.openedHead q = false ∧
      u = { s with regs := { s.regs with lqHead := u.regs.lqHead, lqOpened := u.regs.lqOpened } }

/-- R308: a live Caldera without a request of its own and with room takes the open record of highest LQ_PRIO, then of lowest
queue, and reserves lines for it, a gang's together or not at all. That nothing is launched before an image runs is the model's
reading of R374 (assumption 101), and how lines are reserved is its choice (assumption 66). -/
def Claims.ChunkRequests : Prop :=
  ∀ (s : State) (d : Die),
    (∀ q r, s.openRecord d.val = some (q, r) → s.headRecord q = some r ∧ s.mayExpand d.val q r = true ∧
      ∀ x ∈ s.regs.lqBase, ∀ r', s.headRecord x.1 = some r' → s.mayExpand d.val x.1 r' = true →
        regOf s.regs.lqPrio x.1 < regOf s.regs.lqPrio q ∨ (regOf s.regs.lqPrio x.1 = regOf s.regs.lqPrio q ∧ q ≤ x.1)) ∧
    (s.boot.running = false ∨ s.openRecord d.val = none → exec (.chunkRequest d) s = .next s) ∧
    (∀ q r, s.boot.running = true → s.dieLive d.val = true → s.chunks.any (fun c => c.die == d.val) = false →
      (s.brick d.val).ready.length < s.regs.expandLow.toNat → s.openRecord d.val = some (q, r) →
      let want := if recGang r < 2 then 64 else recGang r
      ∀ ks t, s.reserveLines d.val want = (ks, t) →
        let enough := ks ≠ [] ∧ (2 ≤ recGang r → ks.length = want)
        (enough → exec (.chunkRequest d) s =
          .next { t with chunks := t.chunks ++ [{ die := d.val, queue := q, lines := ks }] }) ∧
        (¬ enough → exec (.chunkRequest d) s = .next s))

/-- R308 to R310, R318: the first request is granted the next indices of its record; CURSOR advances in the record, and HEAD with
it at COUNT; the lines left over are free again, and the others begin as R310 says and enter a ready queue, or a gang's its
ticket. Which cluster takes the lines is a free value; that the lowest of the reserved lines are used, in rising order, is the model's
choice (assumption 66). -/
def Claims.ChunkGrants : Prop :=
  (∀ (s : State) c rest, s.chunks = c :: rest →
    let t := { s with chunks := rest }
    (∀ u, s.headWaits c.queue true = some u → exec (.chunkGrant 0) s = .next u) ∧
    (s.headWaits c.queue true = none → t.headRecord c.queue = none → exec (.chunkGrant 0) s = .next (t.returnLines c.lines)) ∧
    ∀ r, s.headWaits c.queue true = none → t.headRecord c.queue = some r →
      (t.mayExpand c.die c.queue r = false → exec (.chunkGrant 0) s = .next (t.returnLines c.lines)) ∧
      (t.mayExpand c.die c.queue r = true →
        let m := if recGang r < 2 then min (min c.lines.length 64) (recCount r - recCursor r) else recGang r
        (0 < m → m ≤ c.lines.length → exec (.chunkGrant 0) s =
          .next (t.grantChunk c r (t.partClusters (c.queue / 4) c.die) m)) ∧
        (c.lines.length < m → exec (.chunkGrant 0) s = .next (t.returnLines c.lines)))) ∧
  (∀ (s : State) (c : ChunkReq) r cls n,
    let q := c.queue
    let prio := regOf s.regs.lqPrio q
    let lines := (sortNat c.lines).take n
    let a := s.putCursor q (recCursor r + n)
    let b := if recCursor r + n = recCount r then a.nextHead q
      else { a with regs := { a.regs with lqOpened := Table.set a.regs.lqOpened q (BitVec.ofNat 32 (s.lqHeadOf q)) } }
    let e := b.returnLines ((sortNat c.lines).drop n)
    ∃ cl, (cls ≠ [] → cl ∈ cls) ∧
      let made := ({ e with draws := e.draws + 1 } : State).createLines cl r (q / 4) prio (recCursor r) lines
      (recGang r < 2 → s.grantChunk c r cls n = made.queueLines c.die r lines) ∧
      (2 ≤ recGang r → s.grantChunk c r cls n = made.queueGang c.die prio lines)) ∧
  (∀ (s : State) k ks, s.returnLines (k :: ks) = (s.setFreeBit k true).returnLines ks ∧ s.returnLines [] = s) ∧
  (∀ (s : State) cl r part prio first k ks, s.createLines cl r part prio first (k :: ks) =
    (s.allocLine cl (s.ctxVa k) (launchLine r part prio first)).createLines cl r part prio (first + 1) ks) ∧
  (∀ (s : State) cl va l u, (s.keptGen va).2.ctxL2Put cl va { l with gen := (s.keptGen va).1 } = (u, true) → s.allocLine cl va l = u) ∧
  (∀ (s : State) d r k l, (s.place (s.ctxVa k)).line? = some l →
    s.queueLines d r [k] = s.enterReady (s.ctxVa k) l (some d) (recSteal r)) ∧
  (∀ (s : State) d prio ks, ((s.queueGang d prio ks).brick d).gangs = (s.brick d).gangs ++
      [{ ticket := s.regs.gangTicket, priority := prio, members := ks.map fun k => (s.ctxVa k, none) }] ∧
    (s.queueGang d prio ks).regs.gangTicket = s.regs.gangTicket + 1) ∧
  ∀ r part prio i,
    let l := launchLine r part prio i
    l.inState .ready = true ∧ l.priority = prio % 32 ∧ l.pc = BitVec.ofNat 32 (r % 2 ^ 32) ∧
      l.reg 0 = BitVec.ofNat 64 i ∧ l.reg 1 = BitVec.ofNat 64 (r / 2 ^ 192 % 2 ^ 64) ∧
      l.reg 2 = BitVec.ofNat 64 (r / 2 ^ 256 % 2 ^ 64) ∧ l.reg 3 = 0 ∧ l.pred = 0 ∧
      l.link.toNat = (if r / 2 ^ 448 % 2 ^ 6 = 0 then 0
        else (r / 2 ^ 384 % 2 ^ 56 + (i + 1) * 2 ^ (r / 2 ^ 448 % 2 ^ 6)) % 2 ^ 64)

/-- Launch records, chunk requests and chunk grants. -/
def Obligations.LaunchSteps : Prop := Claims.RecordSteps ∧ Claims.ChunkRequests ∧ Claims.ChunkGrants

/-- R311, R313: an entry on chip that waits unclaimed for 65,536 cycles rises one level, to its tail. -/
def Claims.ReadyAging : Prop :=
  ∀ (s : State) (d : Die),
    let b := s.brick d.val
    (∀ r, b.ready.length ≤ 65536 → r.length ≤ 65536 → s.setReady d.val r = s.setBrick d.val { b with ready := r }) ∧
    (∀ n, b.ready[n]? = none → exec (.readyEntryAging d n) s = .next s) ∧
    ∀ n e, b.ready[n]? = some e →
      let due := e.level < 31 ∧ e.offered = false ∧ e.since + 65536 ≤ s.cycle ∧ n < 65536
      (due → exec (.readyEntryAging d n) s = .next (s.setReady d.val (listErase b.ready n ++
        [{ e with level := e.level + 1, gain := e.gain + 1, since := s.cycle, tried := [] }]))) ∧
      (¬ due → exec (.readyEntryAging d n) s = .next s)

/-- What a core that has been offered an entry e at place n of a Caldera answers (R314, R316, R319, R131): it takes a free entry unless
a gang waits for it or the bottom of its own deque comes first, else the entry of a victim, or refuses. -/
def Claims.OfferAnswered (s : State) (d n : Nat) (e : ReadyEntry) (l : Line) (core : Nat) : Prop :=
  let answer (u : State) (x : ReadyEntry) : Host.Outcome State Fault Refusal :=
    .next (u.setBrick d { u.brick d with ready := listSet (u.brick d).ready n x, lastOffer := core })
  let taken := { e with offered := true, gain := 0, tried := [] }
  let refused := { e with tried := core :: e.tried }
  ∀ die : Die, die.val = d →
    (∀ i, freeEntry (s.core core) = some i → s.gangWants core = true → exec (.dispatchOffer die) s = answer s refused) ∧
    (∀ i, freeEntry (s.core core) = some i → s.gangWants core = false → (s.dequeBottom core = none ∨ ∃ x p, s.dequeBottom core = some (x, p) ∧ p < e.level) →
      exec (.dispatchOffer die) s = answer (s.claimInto core i e.va (dieOfCore core)) taken) ∧
    (∀ i x p, freeEntry (s.core core) = some i → s.gangWants core = false → s.dequeBottom core = some (x, p) → e.level ≤ p →
      exec (.dispatchOffer die) s = answer (s.takeBottom core i x) refused) ∧
    (∀ i h, freeEntry (s.core core) = none → chooseVictim (s.core core) l.priority = some (i, h) →
      exec (.dispatchOffer die) s = answer (s.claimVictim core i h e.va) taken) ∧
    (freeEntry (s.core core) = none → chooseVictim (s.core core) l.priority = none →
      exec (.dispatchOffer die) s = answer s refused)

/-- R314, R316, R381: the highest head that some core may accept is offered to a core, which claims it or refuses; one whose page
is not mapped goes to the tail of its level for 65,536 cycles with a log entry (case 4); one that no core of the brick could accept
moves to the next brick of its AFFINITY, or stays and is logged; one that is no longer READY is dropped. That a round tries each core
once, a refusal is logged once, a moved entry counts its cycles anew, and the drop at the offer are the model's choices (assumptions
61, 63 and 64). -/
def Claims.OfferSteps : Prop :=
  ∀ (s : State) (d : Die),
    let b := s.brick d.val
    (s.dieLive d.val = false ∨ heads b.ready = [] → exec (.dispatchOffer d) s = .next s) ∧
    (∀ n e rest, s.dieLive d.val = true → heads b.ready = (n, e) :: rest →
      (s.place e.va = .unmapped → ∃ x, x.event = 4 ∧ x.ctx = e.va ∧ x.addr = e.va ∧ x.die = s.ctxHome e.va ∧
        exec (.dispatchOffer d) s = .next ((s.setReady d.val (listErase b.ready n ++
          [{ e with notBefore := s.cycle + 65536 }])).log x)) ∧
      ∀ l, (s.place e.va).line? = some l →
        (l.inState .ready = false → exec (.dispatchOffer d) s = .next (s.setReady d.val (listErase b.ready n))) ∧
        (l.inState .ready = true → s.dieLive (s.ctxHome e.va) = true →
          let cores := (s.partCores l.partition d.val).filter fun c => s.mayAccept c l
          (cores = [] → e.refused = false →
            (∀ k, nextBrick d.val l.affinity = some k → exec (.dispatchOffer d) s =
              .next ((s.setReady d.val (listErase b.ready n)).readyPush k { e with since := s.cycle, tried := [] })) ∧
            (nextBrick d.val l.affinity = none → ∃ x, x.event = 8 ∧ x.detail = l.slotClass ∧ x.ctx = e.va ∧
              exec (.dispatchOffer d) s =
                .next ((s.setBrick d.val { b with ready := listSet b.ready n { e with refused := true } }).log x))) ∧
          (∀ core, s.nextCore d.val (s.place e.va) l (cores.filter fun c => !e.tried.contains c) = some core →
            Claims.OfferAnswered s d.val n e l core))) ∧
    (∀ core i va, let u := s.claimInto core i va (dieOfCore core)
      Table.get? (u.core core).entries i = some (.claiming va) ∧ ∃ x : Claim, x.va = va ∧ x.core = core ∧ x.entry = i ∧
        x.die = dieOfCore core ∧ u.claims = s.claims ++ [x]) ∧
    ∀ core i e, let u := s.takeBottom core i e
      (u.core core).deque = (s.core core).deque.dropLast ∧ Table.get? (u.core core).entries i = some (.claiming e.va) ∧
        ∃ x : Claim, x.va = e.va ∧ x.core = core ∧ x.entry = i ∧ x.child = some e.steal ∧ u.claims = s.claims ++ [x]

/-- R315, R316: an idle Caldera starts a round of requests when it becomes idle and then every 4,096 cycles; the first brick with
qualifying entries hands over the oldest of its highest such level, half of them rounded up and at most 64; a core with room, no
offer and no gang that waits for its entry takes the uppermost entry of a sibling's deque that it may take. That uppermost entry, and
that an entry handed over counts its cycles anew, are the model's choices (assumptions 62 and 63). -/
def Claims.StealSteps : Prop :=
  ∀ (s : State),
    (∀ d : Die,
      let b := s.brick d.val
      (s.dieLive d.val = false ∨ s.steals.any (fun r => r.thief == d.val) = true → exec (.stealRequest d) s = .next s) ∧
      (s.dieLive d.val = true → s.steals.any (fun r => r.thief == d.val) = false →
        (s.calderaIdle d.val = false → exec (.stealRequest d) s = .next (s.setBrick d.val { b with stealAt := 0 })) ∧
        (s.calderaIdle d.val = true → s.cycle < b.stealAt → exec (.stealRequest d) s = .next s) ∧
        (s.calderaIdle d.val = true → b.stealAt ≤ s.cycle → exec (.stealRequest d) s =
          .next { s.setBrick d.val { b with stealAt := s.cycle + 4096 } with steals := s.steals ++
            [{ thief := d.val, left := [(d.val + 1) % 4, (d.val + 2) % 4, (d.val + 3) % 4], parts := s.freeParts d.val }] }))) ∧
    (∀ n r v left, s.steals[n]? = some r → r.left = v :: left →
      let es := if s.dieLive v = true then s.handOver r v else []
      let t := { s with steals := listErase s.steals n }
      (es ≠ [] → exec (.stealServe n) s = .next (es.foldl (fun u e => u.readyPush r.thief
        { e with offered := false, since := u.cycle, tried := [], refused := false })
        (t.setReady v ((t.brick v).ready.filter fun e => e.offered || !es.contains e)))) ∧
      (es = [] → left ≠ [] → exec (.stealServe n) s =
        .next { s with steals := listSet s.steals n { r with left := left } }) ∧
      (es = [] → left = [] → exec (.stealServe n) s = .next t)) ∧
    (∀ r v,
      let fits (e : ReadyEntry) : Prop := e.steal = .dev ∧ ∃ l, (s.place e.va).line? = some l ∧
        bit l.affinity r.thief = true ∧ l.partition ∈ r.parts ∧ s.partOnBrick l.partition r.thief = true
      (∀ e ∈ s.handOver r v, e ∈ (s.brick v).ready ∧ fits e ∧ ∀ x ∈ (s.brick v).ready, fits x → x.level ≤ e.level) ∧
      ((∀ x ∈ (s.brick v).ready, ¬ fits x) → s.handOver r v = []) ∧
      ∀ (top : ReadyEntry) (p : ReadyEntry → Bool), top ∈ (s.brick v).ready → fits top →
        (∀ x ∈ (s.brick v).ready, fits x → x.level ≤ top.level) → (∀ e, p e = true ↔ fits e ∧ e.level = top.level) →
          let es := (s.brick v).ready.filter p
          s.handOver r v = es.take (min 64 ((es.length + 1) / 2))) ∧
    ∀ core,
      (∀ i k j e, freeEntry (s.core core) = some i → s.dieLive (dieOfCore core) = true → s.gangWants core = false →
        s.offerFor core = false →
        s.dequeBottom core = none → s.siblingEntry core = some (k, j, e) →
        exec (.dequeSiblingSteal core) s =
          .next ((s.setCore k { s.core k with deque := listErase (s.core k).deque j }).claimChild core i e)) ∧
      (freeEntry (s.core core) = none ∨ s.siblingEntry core = none ∨ s.gangWants core = true →
        exec (.dequeSiblingSteal core) s = .next s) ∧
      (∀ k j e, s.siblingEntry core = some (k, j, e) → k / 8 = core / 8 ∧ k ≠ core ∧ (s.core k).deque[j]? = some e ∧
        e.steal ≠ .core ∧ ∃ l, (s.place e.va).line? = some l ∧ s.mayAccept core l = true) ∧
      ∀ i e, ∃ x : Claim, x.va = e.va ∧ x.core = core ∧ x.entry = i ∧ x.child = some e.steal ∧
        (s.claimChild core i e).claims = s.claims ++ [x] ∧
        Table.get? ((s.claimChild core i e).core core).entries i = some (.claiming e.va)

/-- R318, R319: the oldest gang without its entries reserves one at a time, and is claimed when every one is free; when it and an
older gang are both short of entries it releases what it holds, and the waiting gang with the lowest ticket takes of it first. -/
def Claims.GangSteps : Prop :=
  ∀ (s : State) (d : Die),
    (s.dieLive d.val = false ∨ (s.brick d.val).gangs = [] → exec (.gangReserve d) s = .next s) ∧
    (∀ g rest, s.dieLive d.val = true → (s.brick d.val).gangs = g :: rest →
      (g.missing = none → s.gangReady g = true → exec (.gangReserve d) s = .next (s.claimGang d.val g)) ∧
      (∀ m c i h, g.missing = some m → s.gangPlace g (s.gangCores d.val g) = some (c, i, h) →
        exec (.gangReserve d) s = .next (s.reserveEntry d.val g m c i h)) ∧
      (∀ m, g.missing = some m → s.gangPlace g (s.gangCores d.val g) = none → rest = [] →
        exec (.gangReserve d) s = .next s) ∧
      (∀ m x y, g.missing = some m → s.gangPlace g (s.gangCores d.val g) = none → rest = [x] → x.missing = some y →
        s.gangPlace x (s.gangCores d.val x) = none → x.members.any (fun m => m.2.isSome) = true →
        exec (.gangReserve d) s = .next (s.releaseGang d.val x))) ∧
    (∀ g x,
      let r := g.members.foldl (fun u m => match m.2 with | some (c, i) => u.releaseEntry c i | none => u) s
      let p := r.putGang d.val { g with members := g.members.map fun m => (m.1, none) }
      (p.brick d.val).gangs.filter (fun y => y.ticket != g.ticket && y.missing.isSome) = [x] →
        s.releaseGang d.val g = p.fillGang d.val x.ticket x.members.length) ∧
    (∀ g m c i va, g.members[m]? = some (va, none) → g ∈ (s.brick d.val).gangs →
      let u := s.reserveEntry d.val g m c i none
      Table.get? (u.core c).entries i = some (.gang g.ticket va) ∧
        { g with members := listSet g.members m (va, some (c, i)) } ∈ (u.brick d.val).gangs) ∧
    ∀ g c i va, g.members = [(va, some (c, i))] → ∃ x : Claim, x.va = va ∧ x.core = c ∧ x.entry = i ∧ x.gang = true ∧
      (s.claimGang d.val g).claims = s.claims ++ [x] ∧ ∀ y ∈ ((s.claimGang d.val g).brick d.val).gangs, y.ticket ≠ g.ticket

/-- R316, R321, R124, R327: a slot entry PINNED issues its context, a POOL entry the next context of its class, an IDLE entry
nothing; a core takes the bottom of its deque when no higher head that it could be offered waits and no gang waits for the entry.
That nothing issues before an image runs (assumption 101), that a deque waits behind a bottom that its core may not place (62), and
what issues while a held head stops R124 (52) are the model's choices. -/
def Claims.IssueSteps : Prop :=
  ∀ (s : State) core,
    let c := s.core core
    let u := s.newTable core
    let turn := bits c.slotTab.toNat (8 * (s.cycle % 16) + 7) (8 * (s.cycle % 16))
    (s.boot.running = false → exec (.issueCycle core) s = .next s) ∧
    (s.boot.running = true →
      (∀ t, u.limitStep core = some t → exec (.issueCycle core) s = .next t) ∧
      (u.limitStep core = none → exec (.issueCycle core) s = .next ((u.ownDeque core).slotCycle core)) ∧
      (c.slotTabNext = none → (∀ x ∈ c.entries, x.1 < c.ctxl1Limit) → s.dequeBottom core = none →
        (∀ n h, turn = 0x80 + n → n < 16 → (Table.get? c.entries n).bind L1Entry.issuable = some h → s.mayIssue h = true →
          exec (.issueCycle core) s = .next { s with latch := some (core, n) }) ∧
        (∀ n, turn = 0x80 + n → n < 16 →
          (∀ h, (Table.get? c.entries n).bind L1Entry.issuable = some h → s.mayIssue h = false) →
          exec (.issueCycle core) s = .next s) ∧
        (turn / 64 = 0 → exec (.issueCycle core) s = .next s) ∧
        (∀ n h rest, turn / 64 = 1 → (s.brick (dieOfCore core)).withheld.contains .poolCycles = false →
          (poolOrder c s.cycle (turn / 16 % 4)).filter (fun x => s.mayIssue x.2) = (n, h) :: rest → h.skip = false →
          exec (.issueCycle core) s = .next { s.setCore core { c with lastPool := n } with latch := some (core, n) }))) ∧
    (∀ i e p, freeEntry c = some i → s.dequeBottom core = some (e, p) →
      (s.gangWants core = false → (∀ x, s.headFor core = some x → x.level ≤ p) → s.ownDeque core = s.takeBottom core i e) ∧
      (s.gangWants core = true ∨ (∃ x, s.headFor core = some x ∧ p < x.level) → s.ownDeque core = s)) ∧
    ∀ x, s.headFor core = some x → x ∈ (s.brick (dieOfCore core)).ready ∧ x.offered = false ∧ x.notBefore = 0 ∧
      ∃ l, (s.place x.va).line? = some l ∧ l.inState .ready = true ∧ s.mayAccept core l = true

/-- Ready queues, offers, steals, gangs and issue. -/
def Obligations.ReadyQueuesAndIssue : Prop :=
  Claims.ReadyAging ∧ Claims.OfferSteps ∧ Claims.StealSteps ∧ Claims.GangSteps ∧ Claims.IssueSteps

/-! ## Steps of a home slice (R66 to R74, R84, R87, R88, R270, R271, R388) -/

/-- R66, R67, R68, R74: a read, a subscription or a change of precision whose turn has come first takes back a copy that
another holder has in E or M; without one, the home grants the sector, subscribed at the format where the page and the
range allow it and otherwise at full precision, and the reply carries the value that memory holds. -/
def Claims.ReadsAtHome : Prop :=
  ∀ (s : State) (n : Nat) (r : Req) (pa : Nat) (wr : Bool) (master : Nat), AtHome s n r pa wr master →
    let b := dieOfCore r.who.core
    let cl := clusterOfCore r.who.core
    let sub := (s.dirSector pa).bricks.get b = .sub
    let reads (i : Instr) : Prop :=
      ((s.askShare pa r.va (some b)).hasSnoop pa = true → exec i s = .next (s.askShare pa r.va (some b))) ∧
      (Unowned s pa (some b) → s.anyPoison pa r.size = true → exec i s =
        .next (((s.dropReq r).accessFault r.who r.va r.op r.posted (s.homeDie pa) .poisonedData none false).openLoads r pa)) ∧
      (Unowned s pa (some b) → s.anyPoison pa r.size = false → r.acq = false → (s.dropReq r).cachedRead cl r.va = none →
        let v := sectorNat (memSector s.mem pa) r.va r.size
        let t := s.dropReq r
        let ends (u : State) (v : Nat) : State := u.accessDone r.who r.op r.posted r.reply v 0
        (r.op = .load → exec i s = .next ((ends (t.grantRead cl r.va pa wr master false) v).openLoads r pa)) ∧
        ∀ f u, r.op = .subscribe f u →
          (subscribable master f = true →
            exec i s = .next (ends (t.grantSub cl r.va pa wr master f u) (toSub master f v))) ∧
          (subscribable master f = false →
            exec i s = .next (ends (t.grantRead cl r.va pa wr master true) (toSub master f v))))
    (r.op = .load → ¬ sub → s.combine.findSome? (fun c => c.loads s r pa) = none → reads (.readRequest n)) ∧
    (∀ f u, r.op = .subscribe f u → ¬ sub → reads (.subscribeRequest n)) ∧
    (∀ f u, r.op = .load ∨ r.op = .subscribe f u → sub → reads (.precisionChange n))

/-- R67, R87: a load of an aligned word that its home has just served opens an entry of the combining front end, and the loads of
the word after it take the entry's value, each brick a shared copy. How loads combine, and that a full front end opens no entry, are
the model's choice (assumptions 34 and 108). -/
def Claims.CombinedLoads : Prop :=
  (∀ (s : State) (n : Nat) (r : Req) (pa : Nat) (wr : Bool) (master : Nat), AtHome s n r pa wr master →
    ∀ v k, r.op = .load → r.acq = false → (s.dirSector pa).bricks.get (dieOfCore r.who.core) ≠ .sub →
      Unowned s pa (some (dieOfCore r.who.core)) → s.cachedRead (clusterOfCore r.who.core) r.va = none →
      s.combine.findSome? (fun c => c.loads s r pa) = some (v, k) →
      let t := { s.dropReq r with combine := s.combine.map fun (c : CombineEntry) => c.loadMore s r pa }
      exec (.readRequest n) s = .next ((t.grantRead (clusterOfCore r.who.core) r.va pa wr master true).accessDone r.who r.op
        r.posted r.reply (v.toNat / 2 ^ (8 * (pa % 8)) % 2 ^ (8 * r.size)) 0)) ∧
  (∀ (s : State) (r : Req) (pa : Nat), r.op ≠ .load ∨ 8 < r.size → s.openLoads r pa = s) ∧
  (∀ (s : State) (r : Req) (pa : Nat), r.op = .load → r.size ≤ 8 → r ∉ s.reqs → s.combineRoom (s.homeDie pa, homeSlice pa) = true →
    (∀ b, b < 4 → ((s.dirSector pa).bricks.get b).owns = false) →
    (∀ c ∈ s.combine, c.load = none ∨ c.slice ≠ none ∨ c.pa ≠ pa / 8 * 8) → s.anyPoison (pa / 8 * 8) 8 = false →
    let v := BitVec.ofNat 64 (sectorNat (memSector s.mem pa) (pa / 8 * 8) 8)
    let e : CombineEntry :=
      { pa := pa / 8 * 8, size := 8, openedAt := s.cycle, members := [], slice := none, load := some (v, 1), closing := false }
    s.openLoads r pa = { s with combine := s.combine ++ [e] }) ∧
  ∀ (s : State) (c : CombineEntry) (r : Req) (pa : Nat) v k, c.load = some (v, k) →
    (c.slice = none → c.pa = pa / 8 * 8 → r.size ≤ 8 → s.cycle < c.openedAt + 16 → k < 16 →
      c.loads s r pa = some (v, k) ∧ c.loadMore s r pa = { c with load := some (v, k + 1) }) ∧
    (c.slice ≠ none ∨ c.pa ≠ pa / 8 * 8 ∨ 8 < r.size ∨ c.openedAt + 16 ≤ s.cycle ∨ 16 ≤ k → c.loads s r pa = none ∧ c.loadMore s r pa = c)

/-- Reads, subscriptions and changes of precision at a home. -/
def Obligations.HomeReads : Prop := Claims.ReadsAtHome ∧ Claims.CombinedLoads

/-- R69, R70, R84, R271, R288, R388: a store whose turn has come is written inside a brick that owns the sector, performed at the
home when the sector has subscribers, and otherwise the brick gets M once nobody else holds it; an atomic is performed at the home;
both wait for an unexpired lease, and reply when every sharer has acknowledged. -/
def Claims.WritesAtHome : Prop :=
  ∀ (s : State) (n : Nat),
    (∀ r pa wr master, AtHome s n r pa wr master →
      let b := dieOfCore r.who.core
      let cl := clusterOfCore r.who.core
      let free := s.leaseOf pa ≤ s.cycle
      let untiled := ∀ x ∈ s.tileSubs, sectorOf x.va ≠ sectorOf r.va
      (∀ bs, r.op = .store bs →
        let ends (u : State) : Host.Outcome State Fault Refusal :=
          .next ((u.dropReq r).accessDone r.who r.op r.posted r.reply 0 0)
        let new := mergeBytes (memSector s.mem pa) (r.va % 64) (bs.map some)
        let turn (i : Instr) (held : Bool) : Prop :=
          (s.brickOwns b r.va = true → exec i s = ends (s.writeInBrick cl r.va
            (mergeBytes ((s.brickData b r.va).getD 0) (r.va % 64) (bs.map some)))) ∧
          (s.brickOwns b r.va = false → s.subscribed pa = true →
            ((s.askOwners pa r.va).hasSnoop pa = true → exec i s = .next (s.askOwners pa r.va)) ∧
            (Unowned s pa none →
              let t := s.homeWrite pa r.va [b] new (touchedBytes r.va r.size) held
              (untiled → t.mem = putSector s.mem pa new) ∧
              exec i s = .next ((t.replaceReq r { r with phase := .acks pa 0 0 }).popBuffer r.who.core))) ∧
          (s.brickOwns b r.va = false → s.subscribed pa = false →
            ((s.askExclusive pa r.va (some b)).hasSnoop pa = true → exec i s = .next (s.askExclusive pa r.va (some b))) ∧
            (s.otherBricks pa (some b) (· != .i) = [] → (s.dirSector pa).host = .i → s.hasSnoop pa = false →
              exec i s = ends ((s.grantModified cl r.va pa wr master new).writeVersion pa held)))
        (r.heldUntil = 0 → ¬ free → exec (.storeRequest n) s = .next (s.holdForLease r pa)) ∧
        (r.heldUntil = 0 → free → turn (.storeRequest n) false) ∧
        (r.heldUntil ≠ 0 → free → turn (.heldWriteLeaseExpiry n) true)) ∧
      (∀ fn x, r.op = .atomic fn x →
        let m := sectorNat (memSector s.mem pa) pa r.size
        let v := (fn.eval r.size m x).1
        let fl := BitVec.ofNat 32 (fn.eval r.size m x).2.mask
        let new := mergeBytes (memSector s.mem pa) (pa % 64) ((toBytes r.size v).map some)
        let turn (i : Instr) (held : Bool) : Prop :=
          (¬ free → exec i s = .next (s.holdForLease r pa)) ∧
          (free → (s.askOwners pa r.va).hasSnoop pa = true → exec i s = .next (s.askOwners pa r.va)) ∧
          (free → Unowned s pa none → s.anyPoison pa r.size = false →
            let t := (s.ensureDir pa r.va).homeWrite pa r.va [b] new (touchedBytes pa r.size) held
            (untiled → t.mem = putSector s.mem pa new) ∧
            exec i s = .next (t.replaceReq r { r with phase := .acks pa m fl }))
        (r.heldUntil = 0 → fn.combines = false → turn (.homeAtomic n) false) ∧
        (r.heldUntil = 0 → fn.combines = true → ¬ free → exec (.homeAtomic n) s = .next (s.holdForLease r pa)) ∧
        (r.heldUntil ≠ 0 → turn (.heldWriteLeaseExpiry n) true))) ∧
    ∀ r pa v fl, s.reqs[n]? = some r → r.phase = .acks pa v fl → r.acq = false →
      let acked (i : Instr) : Prop :=
        (s.hasSnoop pa = true → exec i s = .next s) ∧
        (s.hasSnoop pa = false →
          let t := (s.dropReq r).tidyDir pa
          exec i s = .next (if r.posted then t else t.reply r.who 1 (r.reply.body v fl)))
      (∀ bs, r.op = .store bs → acked (.storeRequest n)) ∧ ∀ fn x, r.op = .atomic fn x → acked (.homeAtomic n)

/-- R87, R88: `aadd` and `axadd` join the group on their word or open one, and a group that is due is performed as one write: at the
home, after an unexpired lease (R84), or at the caching slice of a brick that owns the sector; a brick that has lost it sends the
members on. How groups form, close and are sent on, and that an atomic waits for a full front end, are the model's choices
(assumptions 34 and 108). -/
def Claims.CombiningFrontEnd : Prop :=
  ∀ (s : State) (n : Nat),
    (∀ r pa wr master fn x, s.reqs[n]? = some r → r.phase = .home pa wr master → r.op = .atomic fn x → r.heldUntil = 0 →
      fn.combines = true → s.inPool r.va = false → s.leaseOf pa ≤ s.cycle → s.firstAtHome n r pa = true → s.frozenAt pa = false →
      s.alias pa r.va = false → s.behindHeld n pa false = false → s.dieLive (s.homeDie pa) = true →
      s.combine.any (fun c => s.joinsGroup c none r fn pa) = true →
      let groups := s.combine.map fun c => if s.joinsGroup c none r fn pa then { c with members := c.members ++ [r] } else c
      exec (.homeAtomic n) s = .next { s.dropReq r with combine := groups }) ∧
    (∀ r pa wr master, AtHome s n r pa wr master → ∀ fn x, r.op = .atomic fn x → r.heldUntil = 0 → fn.combines = true →
      s.leaseOf pa ≤ s.cycle → s.combine.any (fun c => s.joinsGroup c none r fn pa) = false →
      (s.combineRoom (s.homeDie pa, homeSlice pa) = true →
        let e : CombineEntry := { pa := pa, size := r.size, openedAt := s.cycle, members := [r], slice := none, load := none, closing := false }
        exec (.homeAtomic n) s = .next { s.dropReq r with combine := s.combine ++ [e] }) ∧
      (s.combineRoom (s.homeDie pa, homeSlice pa) = false → exec (.homeAtomic n) s = .next s)) ∧
    ∀ c, s.combine[n]? = some c →
      let i := Instr.combineEntryClose n
      let t : State := { s with combine := listErase s.combine n }
      let due := c.closing = true ∨ c.openedAt + 16 ≤ s.cycle ∨ 16 ≤ c.members.length ∨ ∃ v k, c.load = some (v, k) ∧ 16 ≤ k
      (¬ due → exec i s = .next s) ∧
      (due → c.load ≠ none → exec i s = .next t) ∧
      (∀ r rest, due → c.load = none → c.slice = none → c.members = r :: rest →
        (s.cycle < s.leaseOf c.pa → exec i s = .next s) ∧
        (s.leaseOf c.pa ≤ s.cycle → s.entryRoom c.pa = none → s.onDevice c.pa = true → Unowned s c.pa none → s.anyPoison c.pa c.size = false →
          let g := combineGroup c.size c.members (sectorNat (memSector s.mem c.pa) c.pa c.size)
          let new := mergeBytes (memSector s.mem c.pa) (c.pa % 64) ((toBytes c.size g.2).map some)
          let u := (t.ensureDir c.pa r.va).homeWrite c.pa r.va ((c.members.map fun m => dieOfCore m.who.core).eraseDups) new
            (touchedBytes c.pa c.size) (decide (c.openedAt < s.leaseOf c.pa))
          ((∀ x ∈ s.tileSubs, sectorOf x.va ≠ sectorOf r.va) → u.mem = putSector s.mem c.pa new) ∧
          exec i s = .next { u with reqs := u.reqs ++ g.1.map fun x => { x.1 with phase := .acks c.pa x.2 0 } })) ∧
      ∀ b va, due → c.load = none → c.slice = some (b, va) →
        (s.brickOwns b va = false → exec i s = .next { t with reqs := t.reqs ++ c.members }) ∧
        (∀ l, s.brickOwns b va = true → s.linePoison b va = false → c.members.getLast? = some l →
          let d := (s.brickData b va).getD 0
          let g := combineGroup c.size c.members (sectorNat d va c.size)
          let u := t.writeInBrick (clusterOfCore l.who.core) va (mergeBytes d (va % 64) ((toBytes c.size g.2).map some))
          exec i s = .next (g.1.foldl (fun u x =>
            (if x.1.acq then u.acquireAt b else u).accessDone x.1.who x.1.op x.1.posted x.1.reply x.2 0) u))

/-- R88: the members of a group take their results in order, each the word as the members before it have left it. -/
def Claims.GroupResults : Prop :=
  ∀ (size : Nat) (r : Req) (rs : List Req) (fn : AtomicFn) (x v : Nat), r.op = .atomic fn x →
    (combineGroup size (r :: rs) v).1 = (r, v) :: (combineGroup size rs (fn.eval size v x).1).1 ∧
    (combineGroup size (r :: rs) v).2 = (combineGroup size rs (fn.eval size v x).1).2 ∧
    combineGroup size [] v = ([], v)

/-- Stores and atomics at a home, and its combining front end. -/
def Obligations.HomeWrites : Prop := Claims.WritesAtHome ∧ Claims.CombiningFrontEnd ∧ Claims.GroupResults

/-- R65, R67, R84, R270: dirty data that reaches a home is written to memory, sector by sector, and the brick keeps no dirty copy
of it; the home forgets a brick that holds nothing of the sector any more. -/
def Claims.WriteBackEffects : Prop :=
  ∀ (s : State) (b va pa : Nat) (held : Bool), s.MemoryOk →
    let at_ (k : Nat) := pa / 256 * 256 + 64 * k
    let v (k : Nat) := va / 256 * 256 + 64 * k
    let others (t : State) : Prop := ∀ a, a / 256 ≠ pa / 256 → memByte t.mem a = memByte s.mem a
    (∀ d : Quad (Option (BitVec 512)),
      let t := applyNotice s b va pa d held
      others t ∧ ∀ k, k < 4 →
        memSector t.mem (at_ k) = (d.get k).getD (memSector s.mem (at_ k)) ∧
        (s.heldInBrick b (v k) = false → (t.dirSector (at_ k)).bricks.get b = .i)) ∧
    (let t := s.writeBackLine b va pa held
     others t ∧ ∀ k, k < 4 →
       memSector t.mem (at_ k) = (s.brickDirty b (lineOfAddr va) k).getD (memSector s.mem (at_ k)) ∧
       t.brickDirty b (lineOfAddr va) k = none ∧
       (t.dirSector (at_ k)).bricks.get b = (s.dirSector (at_ k)).bricks.get b) ∧
    (∀ d, s.brickDirty b (lineOfAddr va) (sectorIndex va) = some d → (s.writeBackBrick b va pa held).mem = putSector s.mem pa d) ∧
    (s.brickDirty b (lineOfAddr va) (sectorIndex va) = none → s.writeBackBrick b va pa held = s)

/-- R65, R67, R72, R79, R80, R84, R270, R291: a write-back or a drop notice reaches its home, a write-back to a leased line after the
expiry; a snoop is received, acknowledged and then applied; `cwb` writes the dirty sectors of its line home, and `cinv` recalls every
copy first; the entry of a line that only a lease kept is freed when the lease has expired; the host answers a back-invalidate, and
grants the coherence agent a sector. What a brick has sent about the line goes before its answer to a snoop. That a brick that
owns the sector gives it up on receipt, and any other acknowledges first and applies later, is the model's choice (assumption 39). -/
def Claims.CopyEvents : Prop :=
  ∀ (s : State) (n : Nat),
    (∀ r d pa wr m, s.reqs[n]? = some r → r.op = .notice d → r.phase = .home pa wr m →
      let b := dieOfCore r.who.core
      let taken : Host.Outcome State Fault Refusal :=
        .next ((applyNotice (s.dropReq r) b r.va pa d (r.heldUntil != 0)).tidyDir pa)
      let open_ := r.via ≠ none ∨ s.lineOpen b pa = true
      (noticeDirty d = true →
        (open_ → s.firstAtHome n r pa = true →
          (s.leaseOf pa ≤ s.cycle → exec (.writeBack n) s = taken) ∧
          (s.cycle < s.leaseOf pa → exec (.writeBack n) s = .next (s.holdForLease r pa)) ∧
          (s.leaseOf pa ≤ s.cycle → r.heldUntil ≠ 0 → exec (.heldWriteLeaseExpiry n) s = taken)) ∧
        (¬ open_ ∨ s.firstAtHome n r pa = false → exec (.writeBack n) s = .next s) ∧
        exec (.dropNotice n) s = .next s) ∧
      (noticeDirty d = false →
        (open_ → s.firstAtHome n r pa = true → exec (.dropNotice n) s = taken) ∧
        (¬ open_ ∨ s.firstAtHome n r pa = false → exec (.dropNotice n) s = .next s) ∧
        exec (.writeBack n) s = .next s)) ∧
    (∀ r pa wr m, AtHome s n r pa wr m →
      let b := dieOfCore r.who.core
      let written : Host.Outcome State Fault Refusal :=
        .next (((s.writeBackLine b r.va pa (r.heldUntil != 0)).dropReq r).accessDone r.who r.op r.posted r.reply 0 0)
      (r.op = .cwb → s.leaseOf pa ≤ s.cycle ∨ s.brickDirtyLine b r.va = false →
        (r.heldUntil = 0 → exec (.writeBack n) s = written) ∧ (r.heldUntil ≠ 0 → exec (.heldWriteLeaseExpiry n) s = written)) ∧
      (r.op = .cwb → s.cycle < s.leaseOf pa → s.brickDirtyLine b r.va = true → r.heldUntil = 0 →
        exec (.writeBack n) s = .next (s.holdForLease r pa)) ∧
      (r.op = .cinv → (s.recallLine pa r.va).snoopPending r pa = true →
        exec (.writeBack n) s = .next (s.recallLine pa r.va)) ∧
      (r.op = .cinv → (s.recallLine pa r.va).snoopPending r pa = false →
        exec (.writeBack n) s = .next (((s.dropReq r).tidyDir pa).accessDone r.who r.op r.posted r.reply 0 0))) ∧
    (∀ x b, s.snoops[n]? = some x → x.target = .brick b →
      let took (i : Instr) : Prop :=
        (x.acked = true → exec i s = .next (s.applyAt b x.pa)) ∧
        (x.acked = false → (s.lineOpen b x.pa = false ∨ s.ownHeld b x.pa = true) → exec i s = .next s) ∧
        (x.acked = false → s.lineOpen b x.pa = true → s.ownHeld b x.pa = false →
          (∀ c ∈ s.combine, c.sliceAt b x.va = false) → exec i s = .next (s.receiveSnoop n b x))
      (x.kind = .share → took (.snoopShare n)) ∧
      (x.kind = .inval → took (.snoopInvalidate n)) ∧
      (∀ f, x.kind = .invalFmt f → took (.snoopInvalidate n)) ∧
      (∀ f m data, x.kind = .update f m data → took (.update n)) ∧
      (x.kind = .inval → (((s.settleOwn b x.pa).dirSector x.pa).bricks.get b).owns = false →
        (s.receiveSnoop n b x).snoops = listSet s.snoops n { x with acked := true }) ∧
      (x.kind = .inval → (((s.settleOwn b x.pa).dirSector x.pa).bricks.get b).owns = true →
        (s.receiveSnoop n b x).snoops = listErase s.snoops n) ∧
      (x.kind = .inval → ((s.receiveSnoop n b x).dirSector x.pa).bricks.get b = .i)) ∧
    (∀ e, Table.get? s.dir n = some e → s.onDevice (n * 256) = true →
      let idle := [0, 1, 2, 3].all (fun k => (e.sectors.get k).idle) = true
      (0 < e.leaseExp → e.leaseExp ≤ s.cycle → idle →
        exec (.homeEntryLeaseExpiry n) s = .next { s with dir := Table.erase s.dir n }) ∧
      (s.cycle < e.leaseExp ∨ ¬ idle → exec (.homeEntryLeaseExpiry n) s = .next s)) ∧
    (∀ x, s.snoops[n]? = some x → x.target = .host →
      (∀ data, ∃ t : State, t.snoops = listErase s.snoops n ∧ t.outbox = s.outbox.erase (.hostBackInval x.pa) ∧
        (t.dirSector x.pa).host = .i ∧
        t.mem = (match data with
          | some d => putSector s.mem x.pa d
          | none => s.mem) ∧
        exec (.backInvalidateResponse n data) s = .next t)) ∧
    ∀ pa ex data excl, s.outbox[n]? = some (.cxlCacheRead pa ex) →
      let own := s.agentOwns (lineOfAddr pa)
      exec (.cxlCacheGrant n data excl) s = .next { s.ensureDir pa (noVaLine * 256) with
        mem := putSector s.mem pa data
        dcaOwn := Table.set s.dcaOwn (lineOfAddr pa) (own.set (sectorIndex pa) (if excl then HostState.m else .s))
        outbox := listErase s.outbox n }

/-- What happens to the copies of a sector outside its home. -/
def Obligations.CopySteps : Prop := Claims.WriteBackEffects ∧ Claims.CopyEvents

/-! ## Steps of the host and of peers (R79, R80, R82 to R86, R358 to R363, R368) -/

/-- R30, R69, R79, R80, R358, R359, R375: a host read of a sector that no home can serve answers poisoned data, and any other
the sector, which the host then holds; one of the region at index 0 answers the register, from reset on; a host write reaches
memory and is acknowledged once the copies of the sector have gone, or is dropped with its log entry; a host snoop takes the
device's ownership with the dirty data; a PCIe completion, its abort and its timeout end the access, and that of a fence's probe
lets the probe go on (assumption 98). That a refused read of the region and a dropped write get no value and no acknowledgement
is the model's choice (assumption 116). What the host then holds, where a timeout is logged, how an access that waits keeps its
place at the home, and that a context of a pool line is recalled first and a write there is a store to the line, are the model's
choices (assumptions 87, 90, 112 and 124). -/
def Claims.HostSteps : Prop :=
  ∀ (s : State) (n : Nat),
    (∀ pa, s.outers = [] → pa < 0x020000000000 →
      let p := pa / 64 * 64
      let o (op : OuterOp) : OuterReq := { port := none, addr := p, op := op, held := none, performed := false }
      (let t : State := { s with outers := [o .hostRead] }
       (t.hostHome p = false → exec (.hostCxlMemRead (.hdm pa)) s = .next (s.sendOuter (.hostData p none))) ∧
       (t.hostHome p = true → ∀ u, t.hostWaits (o .hostRead) true = some u →
         exec (.hostCxlMemRead (.hdm pa)) s = .next (u.keepPlace none p)) ∧
       (t.hostHome p = true → t.hostWaits (o .hostRead) true = none → ∀ va u, t.poolVaOf p = some va →
         t.recallCtx (va / 128 * 128) = (u, false) → exec (.hostCxlMemRead (.hdm pa)) s = .next (u.keepPlace none p)) ∧
       (t.hostHome p = true → t.hostWaits (o .hostRead) true = none → t.poolVaOf p = none → t.otherBricks p none BrickState.owns = [] →
         (t.isPoisoned p = true → exec (.hostCxlMemRead (.hdm pa)) s = .next ((s.leaveHome none p).sendOuter (.hostData p none))) ∧
         (t.isPoisoned p = false → t.dirRoom p = none →
           ∃ u : State, exec (.hostCxlMemRead (.hdm pa)) s = .next u ∧ u.mem = s.mem ∧ u.outers = [] ∧
             u.outbox = s.outbox ++ [.hostData p (some (memSector s.mem p))] ∧ (u.dirSector p).host ≠ .i))) ∧
      (∀ bytes, bytes ≠ [] → pa % 64 + bytes.length ≤ 64 →
        let bs : List (Option Byte) := (List.range 64).map fun i => if i < pa % 64 then none else bytes[i - pa % 64]?
        let w := o (.hostWrite bs)
        let t : State := { s with outers := [w] }
        (t.hostHome p = false → ∃ x, x.event = 1 ∧ x.die = 0 ∧ x.addr = p ∧
          exec (.hostCxlMemWrite pa bytes) s = .next ({ s with draws := s.draws + 1 }.log x)) ∧
        (t.hostHome p = true → ∀ u, t.hostWaits w false = some u →
          exec (.hostCxlMemWrite pa bytes) s = .next (u.keepPlace none p)) ∧
        (t.hostHome p = true → t.hostWaits w false = none →
          let v := t.modifySector p fun x => { x with host := .i }
          (s.cycle < s.leaseOf p → exec (.hostCxlMemWrite pa bytes) s =
            .next { t.keepPlace none p with outers := [{ w with held := some (lineOfAddr p) }] }) ∧
          (s.leaseOf p ≤ s.cycle → ∀ va u, v.poolVaOf p = some va →
            (v.recallCtx (va / 128 * 128) = (u, false) → exec (.hostCxlMemWrite pa bytes) s = .next (u.keepPlace none p)) ∧
            (∀ va', v.recallCtx (va / 128 * 128) = (u, true) → u.poolVaOf p = some va' →
              let y := (u.hostPoolWrite va' p bs).leaveHome none p
              exec (.hostCxlMemWrite pa bytes) s = .next { y with outers := y.outers.erase w })) ∧
          (s.leaseOf p ≤ s.cycle → v.poolVaOf p = none → t.otherBricks p none BrickState.owns = [] →
            ∃ u : State, exec (.hostCxlMemWrite pa bytes) s = .next u ∧
              u.mem = putSector s.mem p (mergeBytes (memSector s.mem p) 0 bs) ∧
              ((∀ b, b < 4 → (t.dirSector p).bricks.get b = .i) → u.outers = [] ∧ u.outbox = s.outbox ++ [.hostWritten p]) ∧
              (∀ b, b < 4 → (t.dirSector p).bricks.get b = .s → u.outers = [{ w with performed := true }]))))) ∧
    (∀ o size, o < 2 ^ 34 →
      let at_ := blockAt (o / 2 ^ 32) (o % 2 ^ 32)
      (registerFault (o / 2 ^ 32) at_.1 at_.2 size = none → exec (.hostCxlMemRead (.region o size)) s =
        .next (s.sendOuter (.hostRegister o (some (BitVec.ofNat 64 (s.readRegister (o / 2 ^ 32) at_.1 at_.2)))))) ∧
      (registerFault (o / 2 ^ 32) at_.1 at_.2 size ≠ none → exec (.hostCxlMemRead (.region o size)) s =
        .next (s.sendOuter (.hostRegister o none)))) ∧
    (∀ pa excl, s.rangeOf pa = .hostCoherent →
      let p := sectorOf pa
      let own := s.agentOwns (lineOfAddr p)
      let u := if excl then s.recallSector p else s.shareHost p
      let left := if excl = true ∨ own.get (sectorIndex p) = .i then HostState.i else .s
      let data := if own.get (sectorIndex p) = .m then some (memSector u.mem p) else none
      exec (.hostSnoop pa excl) s = .next (({ u with
        dcaOwn := Table.set u.dcaOwn (lineOfAddr p) (own.set (sectorIndex p) left) }.tidyDir p).sendOuter (.hostSnooped p data))) ∧
    (∀ q r, s.pcieOut n = some q → q.unit = none → q.isProbe = true →
      exec (.pcieCompletion n r) s = .next (s.dropOut n q) ∧
      (q.sentAt + 2 ^ 26 ≤ s.cycle → exec (.pcieCompletionTimeout n) s = .next (s.dropOut n q))) ∧
    ∀ q, s.pcieOut n = some q → q.posted = false → q.acq = false → q.isProbe = false →
      let t := s.dropOut n q
      (∀ v, q.unit = none → q.reply ≠ .reissue → exec (.pcieCompletion n (.data v)) s =
        .next (t.reply q.who 1 (q.reply.body (q.value v.toNat) 0))) ∧
      (∀ v u, q.unit = some u → exec (.pcieCompletion n (.data v)) s =
        .next { t with inflow := t.inflow ++ [{ unit := u, va := q.va, bytes := toBytes q.size v.toNat, bad := none }] }) ∧
      (q.unit = none →
        let fault (u : State) (c : FaultCode) : Host.Outcome State Fault Refusal :=
          .next (u.reply q.who 1 (.fault c q.op.access (replyAux q.who c) q.va (dieOfCore q.who.core)))
        exec (.pcieCompletion n .abort) s = fault t .protection ∧
        exec (.pcieCompletion n .poisoned) s = fault t .poisonedData ∧
        (s.cycle < q.sentAt + 2 ^ 26 → exec (.pcieCompletionTimeout n) s = .next s) ∧
        (q.sentAt + 2 ^ 26 ≤ s.cycle → exec (.pcieCompletionTimeout n) s =
          fault (t.refused (dieOfCore q.who.core) q.who 2 q.va) .protection))

/-- R82, R83, R85, R86, R361 to R363: a request of a peer outside its window is answered BOUNDS, and one without a circuit does not
arrive; a GET answers the bytes, a PUT is acknowledged once it is performed and waits for a lease of its line, an ATOMIC writes
its word and answers the old value, a lease answers the line with its duration and version, and on a port with the compatibility
lease it is the line's own, which a renewal doubles and a write returns to the minimum; a reply, an acknowledgement and a NACK end the device's own accesses; a flit sent again changes nothing. Which NACK
answers a page fault, a target that cannot be named or a line that is not on the device is the model's choice (assumption 88).
-/
def Claims.PeerSteps : Prop :=
  (∀ (s : State) (port pa : Nat) (e : DirEntry) (data : Bool), s.onDevice pa = true →
    let ns := if s.compatPort (s.homeDie pa) port then min (2 ^ e.compatLog2) (s.brick (s.homeDie pa)).cohLeaseMax.toNat
      else (s.brick (s.homeDie pa)).cohLease.toNat
    let t := s.grantLease port pa e data
    t.dirOf pa = some { e with leaseExp := max e.leaseExp (s.cycle + (7 * ns + 3) / 4) } ∧
    t.outbox = s.outbox ++ [.talakLease port (if data then some (memNat s.mem (pa / 256 * 256) 256) else none) ns e.version]) ∧
  (∀ (s : State) (pa : Nat) (e : DirEntry) (held : Bool), s.onDevice pa = true → s.dirOf pa = some e →
    ∃ v, (s.writeVersion pa held).dirOf pa = some { e with version := v, written := true, compatLog2 := s.leaseMinLog2 pa } ∧
      (held = false → e.leaseExp ≤ s.cycle → v = e.version)) ∧
  ∀ (s : State) (n : Nat),
    (∀ (port : Fin 8) (off : Nat),
      let cfg := regOf s.mortar.talakCfg port.val
      let base := bits (regOf s.mortar.talakVbase port.val) 55 0
      let inside := bit cfg 31 = true ∧ off < 2 ^ bits cfg 21 16
      let arrives (i : Instr) (op : OuterOp) : Prop :=
        (s.portDie port.val = none → exec i s = .next s) ∧
        (s.portDie port.val ≠ none → ¬ inside → exec i s = .next (s.sendOuter (.talakNack port.val 3))) ∧
        (s.portDie port.val ≠ none → inside → exec i s = .next (s.outerArrives (some port.val) (base + off) op))
      (∀ len, 0 < len → off % 256 + len ≤ 256 → arrives (.talakGet port off len) (.get len)) ∧
      arrives (.talakGetLease port off) .lease ∧
      (∀ v, arrives (.talakRenew port off v) (.renew v)) ∧
      (∀ bs, bs ≠ [] → off % 256 + bs.length ≤ 256 → arrives (.talakPut port off bs) (.put bs)) ∧
      (∀ op x e, arrives (.talakAtomic port off op .w64 x e) (.atomic op 8 x.toNat e.toNat)) ∧
      (∀ op x e, arrives (.talakAtomic port off op .w32 x e) (.atomic op 4 (x.toNat % 2 ^ 32) (e.toNat % 2 ^ 32))) ∧
      ∀ die, s.outers = [] → s.portDie port.val = some die → inside →
        let a := base + off
        let o (op : OuterOp) : OuterReq := { port := some port.val, addr := a, op := op, held := none, performed := false }
        let at_ (op : OuterOp) : State := { s with outers := [o op] }
        let c (op : OuterOp) : CopyAt := (at_ op).peerAt port.val die false
        let memory := (∃ x y, targetOf a = .clm x y) ∨ (∃ x y, targetOf a = .tsp x y) ∨ targetOf a = .paged
        (∀ len u, 0 < len → off % 256 + len ≤ 256 → memory →
          let op : OuterOp := .get len
          (at_ op).copyReadAll (c op) rightsR 0 (sectorRuns a len) = .done u →
          let v := ofBytes ((sectorRuns a len).flatMap fun x => u.copyBytes (c op) x.1 x.2)
          exec (.talakGet port off len) s = .next { (u.dropInflow (c op)).sendOuter (.talakData port.val v len) with
            outers := u.outers.erase (o op) }) ∧
        (∀ bs u, bs ≠ [] → off % 256 + bs.length ≤ 256 → memory →
          let op : OuterOp := .put bs
          (at_ op).leasedLine (c op) a = none → (at_ op).peerPut (c op) (o op) bs = .done u →
          (u.peerAcked (c op) (o op) = true → exec (.talakPut port off bs) s =
            .next { u.sendOuter (.talakAck port.val) with outers := u.outers.erase (o op) }) ∧
          (u.peerAcked (c op) (o op) = false → exec (.talakPut port off bs) s =
            .next { u with outers := u.outers.map fun q => if q = o op then { o op with performed := true } else q })) ∧
        (∀ bs u l, bs ≠ [] → off % 256 + bs.length ≤ 256 → memory →
          let op : OuterOp := .put bs
          (at_ op).leasedLine (c op) a = some l → (at_ op).peerPut (c op) (o op) bs = .wait u →
          exec (.talakPut port off bs) s =
            .next { u with outers := u.outers.map fun q => if q = o op then { o op with held := some l } else q }) ∧
        (∀ (f : TalakAtomicOp) (w : AWidth) (x e : BitVec 64),
          let n : Nat := match w with | .w64 => 8 | .w32 => 4
          let x' := x.toNat % 2 ^ (8 * n)
          let e' := e.toNat % 2 ^ (8 * n)
          let op : OuterOp := .atomic f n x' e'
          let at64 := a / 64 * 64
          (∀ st, (at_ op).peerAtomicBad (c op) a n = some st →
            exec (.talakAtomic port off f w x e) s = .next (s.sendOuter (.talakNack port.val (nackCode st)))) ∧
          (a % n ≠ 0 → exec (.talakAtomic port off f w x e) s = .next (s.sendOuter (.talakNack port.val 2))) ∧
          ∀ u v, (at_ op).peerAtomicBad (c op) a n = none → (at_ op).outsideWord (c op) a = none →
            (at_ op).leasedLine (c op) a = none → (at_ op).copyWrite (c op) at64 = .done u →
            let old := u.peerValue (c op) a n
            let new := match f with
              | .add => (old + x') % 2 ^ (8 * n)
              | .swap => x'
              | .cas => if old = e' then x' else old
            let places := sectorPlaces at64 ((List.range n).map fun i => (a + i, (toBytes n new)[i]?.getD 0))
            u.copyPut (c op) at64 places = .done v →
            (v.peerAcked (c op) (o op) = true → exec (.talakAtomic port off f w x e) s =
              .next { v.sendOuter (.talakData port.val old n) with outers := v.outers.erase (o op) }) ∧
            (v.peerAcked (c op) (o op) = false → exec (.talakAtomic port off f w x e) s =
              let after : OuterReq := { o op with op := .atomic f n x' old, performed := true }
              .next { v with outers := v.outers.map fun q => if q = o op then after else q }) ∧
            ∀ t, targetOf at64 = .paged → u.translate (c op).die at64 true = .ok t → u.onDevice (pteAddr t at64) = true →
              u.inPool at64 = false →
              v.mem = putSector u.mem (pteAddr t at64) (mergeBytes (memSector u.mem (pteAddr t at64)) 0 places)) ∧
        (∀ u t e,
          let grants (op : OuterOp) (i : Instr) (renewal : Bool) : Prop :=
            (at_ op).leaseReady (c op) (o op) = .done u → u.translate (c op).die (a / 256 * 256) false = .ok t →
            u.dirOf (pteAddr t (a / 256 * 256)) = some e →
            u.compatPort (u.homeDie (pteAddr t (a / 256 * 256))) port.val = true →
            let top := (u.brick (u.homeDie (pteAddr t (a / 256 * 256)))).cohLeaseMax.toNat
            let k := if renewal = true ∧ e.written = false ∧ 2 ^ (e.compatLog2 + 1) ≤ top then e.compatLog2 + 1 else e.compatLog2
            let w := u.grantLease port.val (pteAddr t (a / 256 * 256)) { e with compatLog2 := k, written := false } true
            exec i s = .next { w with outers := w.outers.erase (o op) }
          grants .lease (.talakGetLease port off) false ∧ ∀ v, grants (.renew v) (.talakRenew port off v) true) ∧
        (∀ u t e v,
          let grants (op : OuterOp) (i : Instr) (data : Bool) : Prop :=
            (at_ op).leaseReady (c op) (o op) = .done u → u.translate (c op).die (a / 256 * 256) false = .ok t →
            u.dirOf (pteAddr t (a / 256 * 256)) = some e →
            u.compatPort (u.homeDie (pteAddr t (a / 256 * 256))) port.val = false →
            let w := u.grantLease port.val (pteAddr t (a / 256 * 256)) e data
            exec i s = .next { w with outers := w.outers.erase (o op) }
          grants .lease (.talakGetLease port off) true ∧ grants (.renew v) (.talakRenew port off v) (v != e.version))) ∧
    (∀ q, s.talakOut n = some q →
      (∀ data, q.posted = false → q.unit = none → q.isProbe = false → q.acq = false → q.reply ≠ .reissue →
        exec (.talakReply n data) s = .next ((s.dropOut n q).reply q.who 1 (q.reply.body (q.value data.toNat) 0))) ∧
      (∀ data u, q.posted = false → q.unit = some u → exec (.talakReply n data) s =
        .next { s.dropOut n q with
          inflow := s.inflow ++ [{ unit := u, va := q.va, bytes := toBytes q.size data.toNat, bad := none }] }) ∧
      (q.posted = true → exec (.talakAck n) s = .next (s.dropOut n q)) ∧
      (q.posted = false → exec (.talakAck n) s = .next s) ∧
      (∀ code c, q.posted = false → q.unit = none → q.isProbe = false →
        (code = 2 ∧ c = .protection) ∨ (code = 3 ∧ c = .bounds) ∨ (code = 4 ∧ c = .poisonedData) ∨
          (code = 5 ∧ c = .homeOffline) →
        exec (.talakNack n code) s = .next ((s.dropOut n q).reply q.who 1
          (.fault c q.op.access (replyAux q.who c) q.va (dieOfCore q.who.core))))) ∧
    exec (.talakFlitCrcRetry n) s = .next s

/-- The host port and the optical ports. -/
def Obligations.HostAndPeers : Prop := Claims.HostSteps ∧ Claims.PeerSteps

/-! ## Steps of a copy unit (R94, R108 to R112, R279 to R281, R341) -/

/-- Where a destination byte of a copy comes from (R280): the byte at the same distance, the same row and column, or byte j
of the element that the index list names. -/
def CopySources : Prop :=
  ∀ cl d : Nat,
    (∀ dst src len i, i < len → (JobKind.copy dst src len).source cl d (dst + i) = some (.va (src + i))) ∧
    (∀ dst src len a, a < dst ∨ dst + len ≤ a → (JobKind.copy dst src len).source cl d a = none) ∧
    (∀ dst src rows n dp sp r j, r < rows → j < n → n ≤ dp →
      (JobKind.copy2 dst src rows n dp sp).source cl d (dst + r * dp + j) = some (.va (src + r * sp + j))) ∧
    (∀ dst src list count e k j, k < count → j < 2 ^ e →
      (JobKind.gather dst src list count e).source cl d (dst + k * 2 ^ e + j) = some (.elem k j))

/-- R102, R108 to R111, R279, R281, R356: a job is taken by its cluster's queue or answered that it cannot be; a tile job is
first checked at its tile; jobs start in submission order, at most four at once; a line of an active job is read and written,
and the job ends with its last line, with the status of a failed access, or waits for its page. What a line of a job is and the
order of its accesses, that a job whose page fault finds no place tries again, that a job ends only once its writes are performed, the
ACCESS and FAULT_VA of a refused job, when a cancelled job ends, how migrations are counted and which slot a job takes are the model's
choices (assumptions 76, 78, 79, 80, 81, 84 and 122). -/
def Claims.CopyJobSteps : Prop :=
  CopySources ∧ ∀ (s : State),
    (∀ n r, s.jobReqs[n]? = some r →
      let k := s.cluster r.cluster
      let mine := k.submitAt ≠ some s.cycle ∧ nextSubmission k s.jobReqs r.cluster = some r
      (¬ mine → exec (.jobSubmission n) s = .next s) ∧
      (mine → ∀ q ∈ s.jobReqs, q.cluster = r.cluster → (r.port + 8 - k.submitPort) % 9 ≤ (q.port + 8 - k.submitPort) % 9)) ∧
    (∀ n r, s.jobReqs[n]? = some r →
      let k := s.cluster r.cluster
      k.submitAt ≠ some s.cycle → nextSubmission k s.jobReqs r.cluster = some r →
      let t := { s with jobReqs := listErase s.jobReqs n }.setCluster r.cluster
        { k with submitAt := some s.cycle, submitPort := r.port }
      let i : Instr := .jobSubmission n
      let takes : Prop :=
        (∀ j u, ((∀ p f, r.kind ≠ .migrate p f) ∨ t.migrationJobs < 16) → t.submitJob r.cluster r.who r.kind = some (j, u) →
          exec i s = .next (u.reply r.who 1 (.done [(r.d, BitVec.ofNat 64 j)] (some (r.pf, false)) 0))) ∧
        ((∃ p f, r.kind = .migrate p f ∧ 16 ≤ t.migrationJobs) ∨ t.submitJob r.cluster r.who r.kind = none →
          exec i s = .next (t.reply r.who 1 (.done [] (some (r.pf, true)) 0)))
      let fault (c : FaultCode) (a : AccessKind) (va : Nat) : Host.Outcome State Fault Refusal :=
        .next (t.reply r.who 1 (.fault c a r.who.word va (dieOfCluster r.cluster)))
      (r.kind.handle = none → takes) ∧
      ∀ h, r.kind.handle = some h → Reachable s r.who r.cluster →
        (t.lookupHandle r.who.part.toNat h = none → exec i s = fault .staleHandle r.kind.tileAccess h) ∧
        ∀ d, t.lookupHandle r.who.part.toNat h = some d →
          (∀ g a p, r.kind = .tstore g a p → takes) ∧
          (∀ g a p, r.kind = .tload g a p →
            (dSub d = true → exec i s = fault .protection .copyDst (dRowAddr r.cluster d 0)) ∧ (dSub d = false → takes)) ∧
          ∀ g, r.kind = .tloadSub g → (dSub d = false → exec i s = fault .bounds .copyDst 0) ∧ (dSub d = true → takes)) ∧
    (∀ cl,
      let k := s.cluster cl
      let running := (k.jobs.filter fun x => x.2.isRunning).length
      let next := leastBy (fun a b => decide (a.2.order < b.2.order)) (k.jobs.filter fun x => x.2.state == .queued)
      (4 ≤ running → exec (.jobStart cl) s = .next s) ∧
      (∀ slot x, running < 4 → (s.brick (dieOfCluster cl)).withheld.contains .jobStarts = false → next = some (slot, x) →
        let u := s.setJob cl slot { x with state := .active }
        (∀ p f, x.kind = .migrate p f → exec (.jobStart cl) s = .next (u.startMigration cl slot x p f)) ∧
        (∀ h, x.kind = .tloadSub h → exec (.jobStart cl) s = .next (u.startRefreshJob cl slot x h)) ∧
        ((∀ p f, x.kind ≠ .migrate p f) → (∀ h, x.kind ≠ .tloadSub h) →
          (x.kind.line cl (u.jobDesc x.kind) 0 = none → exec (.jobStart cl) s = .next (u.jobDone cl slot .ok)) ∧
          (x.kind.line cl (u.jobDesc x.kind) 0 ≠ none → exec (.jobStart cl) s = .next u)))) ∧
    ∀ cl slot x, Table.get? (s.cluster cl).jobs slot = some x →
      let c : CopyAt := { unit := .job cl slot x.seq, who := x.who, cluster := cl, held := x.held.isSome }
      let i : Instr := .copyLineWrite cl slot
      let goes := x.ending ≠ none ∨ ((∀ p f, x.kind ≠ .migrate p f) ∧ (∀ h, x.kind ≠ .tloadSub h) ∧
        ∀ h a p, x.kind = .tstore h a p → dStale (s.jobDesc x.kind) = false)
      (x.state ≠ .active ∨ ¬ goes → exec i s = .next s) ∧
      (x.state = .active → goes →
        (s.copyPending c x.kind x.progress = true → exec i s = .next s) ∧
        (∀ st, s.copyPending c x.kind x.progress = false → s.jobEnding c x = some st → exec i s = .next (s.endJob c slot st)) ∧
        (s.copyPending c x.kind x.progress = false → s.jobEnding c x = none →
          (x.kind.line cl (s.jobDesc x.kind) x.progress = none → exec i s = .next (s.finishJob c slot x.kind)) ∧
          ∀ l, x.kind.line cl (s.jobDesc x.kind) x.progress = some l →
            (∀ u st, s.copyLine c x.kind l = .stop u st →
              (u.copyPending c x.kind (x.progress + 1) = false → exec i s = .next (u.endJob c slot st)) ∧
              (u.copyPending c x.kind (x.progress + 1) = true → exec i s =
                .next (u.setJob cl slot { x with progress := x.progress + 1, held := none, ending := some st }))) ∧
            (∀ u cause acc va, s.copyLine c x.kind l = .page u cause acc va →
              exec i s = .next (u.pageJob c slot x cause acc va)) ∧
            (∀ u, s.copyLine c x.kind l = .wait u →
              (∀ h, u.leasedLine c (l * 256) = some h → exec i s = .next (u.setJob cl slot { x with held := some h })) ∧
              (u.leasedLine c (l * 256) = none → exec i s = .next (u.setJob cl slot x))) ∧
            (∀ u, s.copyLine c x.kind l = .done u →
              let left := u.inflow.filter fun f => f.unit != c.unit || f.bad.isSome
              let v : State := ({ u with inflow := left } : State).setJob cl slot { x with progress := x.progress + 1, held := none }
              let last := v.copyPending c x.kind (x.progress + 1) = false ∧
                x.kind.line cl (v.jobDesc x.kind) (x.progress + 1) = none
              (last → exec i s = .next (v.finishJob c slot x.kind)) ∧ (¬ last → exec i s = .next v))))

/-- R78, R92, R94, R111, R112, R139: an overlay load keeps the records of its overlay that it has read, takes its run of
granules, then writes its image and wakes every context that waits for it; one that fails empties its slot and gives each of
them a protection fault; a refresh starts in order, at most eight at once, starts again after a message, fills its tile, waits
for a page or for its source's home, or fails with a class 4 record. That a refresh on a brick that is being reset does not wait
for that home is the model's choice (assumption 117). In which step a load takes its run and a refresh reads its pass, the fault
of a failed load, whom the page fault of a refresh names, and that a load whose page fault finds no place tries again are the model's
choices (assumptions 78, 82 and 83). -/
def Claims.CopyInternalSteps : Prop :=
  ∀ (s : State) (cl n : Nat),
    let k := s.cluster cl
    (∀ l, k.loads[n]? = some l → l.pageWait = false →
      let c := s.core l.core
      (∀ u image length words x, s.loadNext l = .ready u image length words → u.loadingSlot l = some x →
        exec (.overlayLoadComplete cl n) s = .next (u.writeImage cl n l x image)) ∧
      (∀ u image length words, s.loadNext l = .ready u image length words → u.loadingSlot l = none →
        let g := granulesOf length words
        (∀ f, chooseRun (u.core l.core) g = some f → exec (.overlayLoadComplete cl n) s =
          .next ((u.setCore l.core ((u.core l.core).takeRun l f g length words)).setLoad cl n
            { l with slot := some f, image := image })) ∧
        (chooseRun (u.core l.core) g = none → exec (.overlayLoadComplete cl n) s = .next u)) ∧
      (∀ u, s.loadNext l = .wait u → exec (.overlayLoadComplete cl n) s = .next u) ∧
      (∀ u l', s.loadNext l = .known u l' → exec (.overlayLoadComplete cl n) s = .next (u.setLoad cl n l')) ∧
      (∀ u cause va, s.loadNext l = .page u cause va →
        let die := dieOfCluster cl
        let asked := u.pageFault die { who := l.who, cause := cause, access := 6, die := die, va := va }
        (∀ v, asked = some v → exec (.overlayLoadComplete cl n) s = .next (v.setLoad cl n { l with pageWait := true })) ∧
        (asked = none → exec (.overlayLoadComplete cl n) s = .next u)) ∧
      (s.loadNext l = .fail →
        let failed (t : State) : Host.Outcome State Fault Refusal :=
          .next (l.waiters.foldl (fun s w => s.reply w 7 (.fault .protection .overlay w.word 0 (dieOfCluster cl)))
            (t.dropLoad cl n l))
        (s.loadingSlot l = none → exec (.overlayLoadFail cl n) s = failed s) ∧
        (∀ x, s.loadingSlot l = some x → exec (.overlayLoadFail cl n) s = failed
          ((s.setCore l.core { c with slots := Table.erase c.slots x.first }).zeroRun (slotBase l.core x)
            (x.count * granuleBytes))))) ∧
    ((8 ≤ (k.refreshes.filter fun r => r.running).length → exec (.tileRefreshStart cl) s = .next s) ∧
      ∀ r, (k.refreshes.filter fun r => r.running).length < 8 → k.refreshes.findIdx? (fun r => !r.running) = some n →
        k.refreshes[n]? = some r →
        let t := s.setCluster cl { k with refreshes := listSet k.refreshes n { r with running := true } }
        exec (.tileRefreshStart cl) s = .next (t.putDesc cl r.index (dSetRefresh (t.desc cl r.index) true))) ∧
    ∀ r, k.refreshes[n]? = some r → r.running = true → r.pageWait = false →
      (r.again = true → exec (.tileRefreshComplete cl n) s =
        .next (s.setCluster cl { k with refreshes := listSet k.refreshes n { r with again := false } })) ∧
      (∀ u, r.again = false → s.refreshStep cl r = .wait u → exec (.tileRefreshComplete cl n) s = .next u) ∧
      (∀ u, r.again = false → s.refreshStep cl r = .done u → exec (.tileRefreshComplete cl n) s =
        .next (u.finishRefresh cl n r (u.refreshAt cl (u.desc cl r.index) r))) ∧
      (∀ u cause acc va, r.again = false → s.refreshStep cl r = .page u cause acc va →
        exec (.tileRefreshComplete cl n) s = .next (u.pageRefresh cl n r cause va)) ∧
      (∀ u st, r.again = false → s.refreshStep cl r = .stop u st →
        let waits := (st = .homeOffline ∨ st = .noCircuit) ∧ s.dieLive (dieOfCluster cl) = true
        (waits → exec (.tileRefreshFail cl n) s = .next s) ∧
        (¬ waits →
          let mine := (s.refreshAt cl (s.desc cl r.index) r).unit
          let a : State := { u with inflow := u.inflow.filter fun f => f.unit != mine }
          let b := a.putDesc cl r.index (dSetRefresh (a.desc cl r.index) false)
          let t := b.setCluster cl { b.cluster cl with refreshes := listErase (b.cluster cl).refreshes n }
          let ends := if st = .poisoned then JobStatus.poisoned else .protection
          ∃ x : FaultRec, x.code = .refreshFailed ∧ x.cls = .tile ∧ x.va = t.handleOf cl r.index ∧
            x.domain = BitVec.ofNat 16 (dDomain (t.desc cl r.index)) ∧
            let v := t.report x
            (dStale (v.desc cl r.index) = true → exec (.tileRefreshFail cl n) s =
              .next (v.endStale (v.handleOf cl r.index) r.jobs ends)) ∧
            (dStale (v.desc cl r.index) = false → exec (.tileRefreshFail cl n) s =
              .next (r.jobs.foldl (fun z i => z.jobDone cl i ends) v))))

/-- Jobs, overlay loads and refreshes. -/
def Obligations.CopyUnitSteps : Prop := Claims.CopyJobSteps ∧ Claims.CopyInternalSteps

/-! ## Steps of the tile unit and of the matrix engine (R102 to R104, R222 to R234, R236 to R249, R254 to R256) -/

/-- R102 to R104, R222 to R234: an operation that arrives is refused by the first check that it fails, set aside while a source
is STALE, and otherwise queued; the operation at the head of the queue is computed on its tiles, and its reply carries the
result and the flags, once the banks grant the unit's port (R99, assumption 110); an allocation writes the new descriptor at the
next free index; a freed tile is zeroed. That a STALE
source is looked at again at the execution, the order of the parts of `tdesc`, and that an ACC destination is reported before the
shapes, are the model's choices (assumptions 70, 73 and 132). -/
def Obligations.TileUnitSteps : Prop :=
  ∀ (s : State) (cl n : Nat),
    (∀ op, s.tileArrivals[n]? = some op →
      let t := { s with tileArrivals := listErase s.tileArrivals n }
      let k := s.cluster op.cluster
      let i : Instr := .tileOpArrival n
      (Reachable s op.who op.cluster → (∀ v pf, op.kind ≠ .desc v pf) →
        (∀ f, t.tileBad op = some f → exec i s = .next (t.reply op.who op.waitKind (.fault f.code .engine
          (operandWord f.operand f.row) f.fva (dieOfCluster op.cluster)))) ∧
        (t.tileBad op = none →
          (∀ h hs, op.kind = .free → op.handles = h :: hs → exec i s = .next (t.beginFree h.2 (some op.who))) ∧
          (op.kind ≠ .free → t.staleSource op = true → exec i s =
            .next (t.setCluster op.cluster { k with tileAside := k.tileAside ++ [op] })) ∧
          (op.kind ≠ .free → t.staleSource op = false → exec i s =
            .next (t.setCluster op.cluster { k with tileQ := k.tileQ ++ [op] })))) ∧
      (∀ v pf, Reachable s op.who op.cluster → op.kind = .desc v pf →
        exec i s = .next (t.setCluster op.cluster { k with tileQ := k.tileQ ++ [op] }))) ∧
    (∀ op rest, (s.cluster cl).tileQ = op :: rest →
      let k := s.cluster cl
      let t := s.setCluster cl { k with tileQ := rest }
      let i : Instr := .tileOpExecute cl
      ((∀ v pf, op.kind ≠ .desc v pf) →
        (s.staleSource op = true → exec i s =
          .next (s.setCluster cl { k with tileQ := rest, tileAside := k.tileAside ++ [op] })) ∧
        (∀ g, s.staleSource op = false → s.grantUnit cl tilePort (banksOf (op.runs (s.descsOf op.handles))) = (g, false) →
          exec i s = .next g) ∧
        (∀ g, s.staleSource op = false → s.grantUnit cl tilePort (banksOf (op.runs (s.descsOf op.handles))) = (g, true) →
          let t := g.setCluster cl { g.cluster cl with tileQ := rest }
          let out := op.run g.mem g.poison (g.descsOf op.handles)
          let u := ({ t with mem := out.mem } : State).touchDest op out
          { u with clusters := t.clusters } = { t with mem := out.mem } ∧
          (∀ o a row, out.bad = some (o, a, row) → exec i s = .next (u.reply op.who 1
            (.fault .poisonedData .engine (operandWord o row) a (dieOfCluster op.cluster)))) ∧
          (∀ d v, out.bad = none → op.dest = some d → out.reg = some v →
            exec i s = .next (u.reply op.who 1 (.done [(d, v)] none (BitVec.ofNat 32 out.flags.mask)))) ∧
          (out.bad = none → op.dest = none →
            exec i s = .next (u.reply op.who 1 (.done [] none (BitVec.ofNat 32 out.flags.mask)))))) ∧
      (∀ v pf, op.kind = .desc v pf → op.cluster = cl →
        (templateOk v.toNat = false → exec i s = .next (t.reply op.who 1
          (.fault .bounds .engine (operandWord 15 0) 0 (dieOfCluster cl)))) ∧
        (templateOk v.toNat = true → t.templateBad op.who cl v.toNat = none →
          (t.freeTile cl = none → exec i s = .next (t.reply op.who 1 (.done [] (some (pf, true)) 0))) ∧
          (∀ j d, t.freeTile cl = some j → op.dest = some d →
            let gen := (dGen (t.desc cl j) + 1) % 2 ^ 11
            ∃ (u : State) (m : Msg), exec i s = .next (u.send m) ∧ u.mem = (t.putDesc cl j
                (newDesc v.toNat gen op.who.domain.toNat)).mem ∧ m.handle = some (mkHandle cl gen j) ∧ m.ctx = op.who.ctx ∧ m.gen = op.who.gen ∧ m.kind = 1 ∧
              m.body = .done [(d, BitVec.ofNat 64 (mkHandle cl gen j))] (some (pf, false)) 0)))) ∧
    (∀ z, (s.cluster cl).zeroing[n]? = some z → s.MemoryOk →
      let k := s.cluster cl
      let banks := banksOf ((List.range z.rows).map fun r => (z.addr + r * z.pitch - tspBase cl, z.rowBytes))
      (k.uses (s.handleOf cl z.index) = true → exec (.tileZeroingComplete cl n) s = .next s) ∧
      (∀ g, k.uses (s.handleOf cl z.index) = false → s.grantUnit cl copyPort banks = (g, false) →
        exec (.tileZeroingComplete cl n) s = .next g) ∧
      (∀ g, k.uses (s.handleOf cl z.index) = false → dSub (s.desc cl z.index) = false → s.grantUnit cl copyPort banks = (g, true) →
        ∃ u : State, (∀ r j, r < z.rows → j < z.rowBytes → memByte u.mem (z.addr + r * z.pitch + j) = 0) ∧
          (∀ w, z.waiter = some w → exec (.tileZeroingComplete cl n) s = .next (u.reply w 2 (.done [] none 0))) ∧
          (z.waiter = none → exec (.tileZeroingComplete cl n) s = .next u))) ∧
    ∀ h, s.discards[n]? = some h →
      let t := { s with discards := listErase s.discards n }
      (t.liveHandle h = true → exec (.tdescDiscardNotice n) s = .next (t.beginFree h none)) ∧
      (t.liveHandle h = false → exec (.tdescDiscardNotice n) s = .next t)

/-- R236, R239, R243 to R249, R254 to R256: the next request of a cluster is refused by its first failed check, admitted to a
stack, or held, or answered with RETRY when the pending list is full; a cluster admits one request a cycle, and its pending list
before arrivals; a stack whose deadline has come is READY; a free engine selects the best READY stack and loads its latch,
unless it still holds that tile and no write has met it (assumption 74); a firing performs each member in the order of
admission, from the values that its latch holds, and the reply of one that fails carries its fault; `mxnorm` and `mxexp` run
between stacks. Each waits until the banks grant the engine's port (R99, assumption 110). How the pending list is served and how a RETRY ends, that the formats of `mxm` are reported
before its shapes, where the target of `mxnorm` is checked, and that reserved bits of an ACC element are ignored are the model's
choices (assumptions 75, 132, 133 and 130). -/
def Obligations.GeyserSteps : Prop :=
  ∀ (s : State) (cl n : Nat),
    let k := s.cluster cl
    (∀ q, s.mxArrivals[n]? = some q →
      let t := { s with mxArrivals := listErase s.mxArrivals n }
      let i : Instr := .geyserAdmission n
      let fault (f : UnitFault) : Host.Outcome State Fault Refusal := .next (t.reply q.who 1
        (.fault f.code .engine (operandWord f.operand f.row) f.fva (dieOfCluster q.cluster)))
      let busy := q.isMxm = true ∧ (s.cluster q.cluster).admissionBusy s.cycle = true
      (nextArrival s.mxArrivals q.cluster ≠ some q ∨ busy → exec i s = .next s) ∧
      (nextArrival s.mxArrivals q.cluster = some q → ¬ busy → Reachable s q.who q.cluster →
        (∀ f, t.badHandle q.who q.handles = some f → exec i s = fault f) ∧
        (t.badHandle q.who q.handles = none →
          (∀ zero tr neg sa sb bad, q.kind = .mxm zero tr neg sa sb bad →
            (∀ f, t.mxFormBad q tr bad = some f → exec i s = fault f) ∧
            (∀ f, t.mxFormBad q tr bad = none → t.mxRightsBad q = some f → exec i s = fault f) ∧
            (t.mxFormBad q tr bad = none → t.mxRightsBad q = none →
              (∀ u, t.mxAdmit q = (u, true) → exec i s = .next u) ∧
              (∀ u, t.mxAdmit q = (u, false) →
                let held := (u.cluster q.cluster).pendingMx
                (held.length < 256 → exec i s =
                  .next (u.setCluster q.cluster { u.cluster q.cluster with pendingMx := held ++ [q] })) ∧
                (256 ≤ held.length → exec i s =
                  .next { u.reply q.who 1 .wake with mxRetries := u.mxRetries ++ [(q.who, u.cycle)] })))) ∧
          (∀ all, q.kind = .flush all → exec i s = .next ((t.readyStacks q.cluster fun x =>
            all || x.key.handle == q.handle 1).reply q.who 1 (.done [] none 0))) ∧
          (∀ v f, q.kind = .norm v → t.normBad q rightsRW (targetBad v) = some f → exec i s = fault f) ∧
          (∀ clr f, q.kind = .exp clr → t.normBad q (if clr then rightsRW else rightsR) false = some f → exec i s = fault f) ∧
          (∀ v, q.kind = .norm v → t.normBad q rightsRW (targetBad v) = none →
            exec i s = .next (t.setCluster q.cluster { s.cluster q.cluster with
              engineQ := (s.cluster q.cluster).engineQ ++ [q] })) ∧
          (∀ clr, q.kind = .exp clr → t.normBad q (if clr then rightsRW else rightsR) false = none →
            exec i s = .next (t.setCluster q.cluster { s.cluster q.cluster with
              engineQ := (s.cluster q.cluster).engineQ ++ [q] }))))) ∧
    (∀ r, s.mxArrivals[n]? = none → n = 2 ^ 20 + cl →
      let i : Instr := .geyserAdmission n
      (k.serving = [] ∨ k.admittedAt = some s.cycle → exec i s = .next s) ∧
      (∀ q rest u, k.serving = q :: rest → k.admittedAt ≠ some s.cycle → s.mxAdmit q = (u, true) → exec i s =
        .next (u.setCluster cl { u.cluster cl with pendingMx := (u.cluster cl).pendingMx.erase q, serving := rest })) ∧
      (∀ u, k.serving = [r] → k.admittedAt ≠ some s.cycle → s.mxAdmit r = (u, false) → exec i s =
        .next (u.setCluster cl { u.cluster cl with serving := [] }))) ∧
    (∀ x, Table.get? k.mxStacks n = some x →
      (x.state = .opened → x.deadline ≤ s.cycle → exec (.geyserHoldExpire cl n) s =
        .next (s.setCluster cl { k with mxStacks := Table.modify k.mxStacks n fun y => { y with state := .ready } })) ∧
      (x.state ≠ .opened ∨ s.cycle < x.deadline → exec (.geyserHoldExpire cl n) s = .next s)) ∧
    (∀ w since, s.mxRetries[n]? = some (w, since) →
      let waits := s.cycle < since + 256 ∨ ∃ m ∈ s.msgs, m.who = w ∧ m.kind = 1
      (waits → exec (.geyserRetryReissue n) s = .next s) ∧
      (¬ waits → exec (.geyserRetryReissue n) s = .next { s with mxRetries := listErase s.mxRetries n })) ∧
    (k.firing = none → k.engineQ = [] → (s.brick (dieOfCluster cl)).withheld.contains .firings = false →
      (s.selectStack cl = none → exec (.engineSelect cl) s = .next s) ∧
      ∀ m x, s.selectStack cl = some (m, x) →
        let d := s.desc cl (handleIndex x.key.handle)
        let codes := latchCodes s.mem (dView cl d) x.key.trans
        let l : Latch := ⟨x.key.handle, dVersion d, dFormat d, x.key.trans, codes, tileSpans cl d, false⟩
        let fires (g : State) (latch : Option Latch) (ok : Bool) : Host.Outcome State Fault Refusal :=
          .next (g.setCluster cl { g.cluster cl with
            latch := latch, mxStacks := Table.set k.mxStacks m { x with state := .firing, latched := ok } })
        let banks := banksOf (tileRuns cl d)
        (∀ o g, k.latch = some o → o.fits l = true → s.grantUnit cl enginePort [] = (g, true) →
          exec (.engineSelect cl) s = fires g (some o) true) ∧
        ((∀ o, k.latch = some o → o.fits l = false) →
          (∀ g, s.grantUnit cl enginePort banks = (g, false) → exec (.engineSelect cl) s = .next g) ∧
          ∀ g, s.grantUnit cl enginePort banks = (g, true) →
            (unreadable s.mem s.poison (dView cl d) = none → exec (.engineSelect cl) s = fires g (some l) true) ∧
            (unreadable s.mem s.poison (dView cl d) ≠ none → exec (.engineSelect cl) s = fires g none false))) ∧
    (∀ m x, k.firing = some (m, x) →
      let banks := banksOf (s.stackRuns cl x)
      (∀ g, s.grantUnit cl enginePort banks = (g, false) → exec (.stackFire cl) s = .next g) ∧
      (∀ g l, s.grantUnit cl enginePort banks = (g, true) → x.latched = true → (g.cluster cl).latch = some l →
        let t := g.setCluster cl { g.cluster cl with
          mxStacks := Table.erase (g.cluster cl).mxStacks m, latch := if l.spoiled then none else some l }
        exec (.stackFire cl) s = .next ((x.members.foldl (fun u q => u.fireMember q.1 l) t).servePending cl)) ∧
      (∀ g, s.grantUnit cl enginePort banks = (g, true) → x.latched = false → (g.cluster cl).latch = none →
        let t := g.setCluster cl { g.cluster cl with mxStacks := Table.erase (g.cluster cl).mxStacks m }
        ∃ a r, exec (.stackFire cl) s = .next ((x.members.foldl (fun u q => u.reply q.1.who 1
          (.fault .poisonedData .engine (operandWord 2 r) a (dieOfCluster cl))) t).servePending cl))) ∧
    (∀ q (l : Latch),
      (∀ f, s.memberDenied q = some f ∨ (s.memberDenied q = none ∧ s.memberPoison q = some f) →
        s.fireMember q l = s.reply q.who 1 (.fault f.code .engine (operandWord f.operand f.row) f.fva (dieOfCluster q.cluster))) ∧
      ∀ (u : State) zero tr neg sa sb bad, q.kind = .mxm zero tr neg sa sb bad → u.memberDenied q = none →
        u.memberPoison q = none →
        let c := u.mxDesc q 0
        let v := dView q.cluster c
        let out := mxApply zero (accElems u.mem v) (dExp c) (u.memberSums q l neg (sa + sb))
        u.fireMember q l = ((({ u with mem := accPutElems u.mem v out.1 } : State).touchTile q.cluster c).putDesc q.cluster
          (handleIndex (q.handle 0)) (setAccState c out.2.1 (out.2.2 || (!zero && dRenorm c)))).reply q.who 1
            (.done [] none 0)) ∧
    (∀ q rest g, k.firing = none → k.engineQ = q :: rest → s.grantUnit cl enginePort (banksOf (s.normRuns q)) = (g, false) →
      exec (.engineNormOp cl) s = .next g) ∧
    ∀ q rest d g, k.firing = none → k.engineQ = q :: rest → q.dest = some d →
      s.grantUnit cl enginePort (banksOf (s.normRuns q)) = (g, true) →
      let t := g.setCluster cl { g.cluster cl with engineQ := rest }
      let e := t.mxDesc q 1
      (∀ v, q.kind = .norm v → unreadable t.mem t.poison (dView cl e) = none → exec (.engineNormOp cl) s =
        .next ((t.normTile q v).1.reply q.who 1 (.done [(d, (t.normTile q v).2)] none 0))) ∧
      ∀ clr, q.kind = .exp clr →
        let v := BitVec.ofNat 64 (e / 2 ^ 184 % 2 ^ 16 + (if dRenorm e then 2 ^ 16 else 0))
        (clr = false → exec (.engineNormOp cl) s = .next (t.reply q.who 1 (.done [(d, v)] none 0))) ∧
        (clr = true → exec (.engineNormOp cl) s = .next ((t.putDesc cl (handleIndex (q.handle 1))
          (dSetBit e 120 false)).reply q.who 1 (.done [(d, v)] none 0)))

/-! ## Steps of Mortar, of brick resets and of boot (R364 to R376, R379) -/

/-- R358, R364 to R367, R369 to R371: Mortar refuses a table with the first reason that it gives, or tears down what the table
does not hold and tunes what it adds; tuning ends in circuits that are up, or fails one after 35,000 cycles; a brick is quiesced
only while every brick is LIVE, resets when nothing of it is left, is ADMITTING once its links are trained, and becomes LIVE, with
the entries of its ready queue reloaded, when the next commit completes. The details of a refused table, of a
quiesce and of a retrained module are the model's choices (assumptions 92, 93 and 94), and so is that no message of a changed
pair is left to drain (assumption 111). -/
def Claims.MortarSteps : Prop :=
  ∀ (s : State) (w : RegAccess),
    (w.src = .host → registerFault w.die.val w.block w.offset w.width = none → ownRow w.block w.offset = some .ctCommit →
      let refused : Prop := ∃ x, x.event = 2 ∧ x.detail = w.offset ∧ exec (.ctCommit w) s = .next (s.log x)
      let busy := bits s.mortar.ctStatus.toNat 1 0 = 1
      (w.value ≠ 1 ∨ busy → refused) ∧
      (w.value = 1 → ¬ busy →
        (s.ctRefusal = none → exec (.ctCommit w) s = .next { s with
          mortar := { s.mortar with
            ctStatus := 1#64, active := ctTuned s.mortar, commitAt := some s.cycle, holding := ctChanged s.mortar } }) ∧
        (∀ reason, s.ctRefusal = some (reason, none) → ∃ e, e < 64 ∧ exec (.ctCommit w) s = .next { s with
          draws := s.draws + 1
          mortar := { s.mortar with ctStatus := BitVec.ofNat 64 (2 + reason * 2 ^ 8 + e * 2 ^ 16) } }) ∧
        (∀ reason e, s.ctRefusal = some (reason, some e) → exec (.ctCommit w) s = .next { s with
          mortar := { s.mortar with ctStatus := BitVec.ofNat 64 (2 + reason * 2 ^ 8 + e * 2 ^ 16) } }))) ∧
    (bits s.mortar.ctStatus.toNat 1 0 ≠ 1 → exec .circuitTuningComplete s = .next s) ∧
    (bits s.mortar.ctStatus.toNat 1 0 = 1 →
      let up (x : BitVec 64) : BitVec 64 := if ctLink x.toNat = 1 then BitVec.ofNat 64 (ctSetLink x.toNat 2) else x
      let t : State := { s with mortar := { s.mortar with
        active := s.mortar.active.map (fun x => (x.1, up x.2)), ctStatus := 0#64, commitAt := none, holding := [] } }
      let u := ([0, 1, 2, 3].filter fun d => s.mortar.bricks.get d == .admitting).foldl State.admitDie t
      exec .circuitTuningComplete s = .next u ∧
      ∀ d, d < 4 →
        (s.mortar.bricks.get d = .admitting → u.mortar.bricks.get d = .live ∧
          (u.brick d).ready = (s.brick d).ready.map fun e => { e with since := s.cycle }) ∧
        (s.mortar.bricks.get d ≠ .admitting → u.mortar.bricks.get d = s.mortar.bricks.get d ∧ u.brick d = s.brick d)) ∧
    (∀ e, s.mortar.commitAt = none → exec (.circuitTuneTimeout e) s = .next s) ∧
    (∀ e t, s.mortar.commitAt = some t →
      let x := ((Table.get? s.mortar.active e).getD 0#64).toNat
      (s.cycle < t + 35000 ∨ ctLink x ≠ 1 → exec (.circuitTuneTimeout e) s = .next s) ∧
      (t + 35000 ≤ s.cycle → ctLink x = 1 → exec (.circuitTuneTimeout e) s = .next { s with
        mortar := { s.mortar with active := Table.set s.mortar.active e (BitVec.ofNat 64 (ctSetLink x 3)) } })) ∧
    (w.src = .host → registerFault w.die.val w.block w.offset w.width = none → ownRow w.block w.offset = some .brickState →
      let d := (w.offset - 0x420) / 8
      let ok := w.value = 1 ∧ d ≠ 0 ∧ bits s.mortar.ctStatus.toNat 1 0 ≠ 1 ∧ ∀ k ∈ [0, 1, 2, 3], s.dieLive k = true
      (ok → exec (.brickQuiesce w) s = .next ((s.setDie d .quiescing).disposeWork d)) ∧
      (¬ ok → ∃ x, x.event = 2 ∧ x.detail = w.offset ∧ exec (.brickQuiesce w) s = .next (s.log x))) ∧
    (∀ d, s.dieIn .quiescing = some d →
      let t := s.drainDie d
      (t.dieIdle d = false → exec .brickQuiesceComplete s = .next t) ∧
      (t.dieIdle d = true → ∃ u : State, exec .brickQuiesceComplete s = .next (u.setDie d .reset) ∧
        (∀ c ∈ u.cores, dieOfCore c.1 ≠ d) ∧ (∀ c ∈ u.clusters, dieOfCluster c.1 ≠ d) ∧ (∀ a ∈ u.mem, localKey d a.1 = false) ∧
        ∀ e ∈ u.mortar.active, ctValid e.2.toNat = true → ctNames e.2.toNat d = false)) ∧
    (s.dieIn .quiescing = none → exec .brickQuiesceComplete s = .next s) ∧
    (∀ d, s.dieIn .reset = some d → exec .brickLinkTrained s =
      .next ((s.setBrick d { s.brick d with linkTrained := true }).setDie d .admitting)) ∧
    (s.dieIn .reset = none → exec .brickLinkTrained s = .next s) ∧
    ∀ (d : Die) (m : Nat),
      let b := s.brick d.val
      (32 ≤ m ∨ b.ucieOut.contains m = true → exec (.ucieLinkRetraining d m) s = .next s) ∧
      (m < 32 → b.ucieOut.contains m = false →
        (b.ucieRetraining.contains m = false → exec (.ucieLinkRetraining d m) s =
          .next (s.setBrick d.val { b with ucieRetraining := b.ucieRetraining ++ [m] })) ∧
        (b.ucieRetraining.contains m = true → exec (.ucieLinkRetraining d m) s =
          .next (s.setBrick d.val { b with ucieRetraining := b.ucieRetraining.erase m }))) ∧
      (b.ucieRetraining.contains m = true → ∃ x, x.event = 1 ∧ x.die = d.val ∧ exec (.ucieRetrainFail d m) s =
        .next ((s.setBrick d.val { b with ucieRetraining := b.ucieRetraining.erase m, ucieOut := b.ucieOut ++ [m] }).log x)) ∧
      (b.ucieRetraining.contains m = false → exec (.ucieRetrainFail d m) s = .next s)

/-- R373 to R376, R379: a cold boot starts from the state that a cold reset leaves, every register at its reset value; it runs an
image that the mask ROM accepts, which loads the default table, writes its registers and the free maps and sets READY, and
otherwise it presents the recovery function, in which the host may write another image (what stays in HBM over a cold reset is the
model's choice, assumption 22); an attestation of a running image
places its report and sets DONE; firmware withholds work of a brick and stops to. -/
def Claims.BootSteps : Prop :=
  ∀ (s : State),
    (let c : State := { State.reset with
       mem := s.mem.filter fun x => decide (x.1 < 2 ^ 48)
       poison := s.poison.filter fun a => decide (a < 2 ^ 48)
       draws := s.draws
       boot := { BootState.reset with flash := s.boot.flash, boots := s.boot.boots + 1 } }
     let presents : Prop := exec .coldBoot s = .next { c with boot := { c.boot with recovery := true } }
     s.coldReset = c ∧ (s.boot.flash = none → presents) ∧
     ∀ f, s.boot.flash = some f →
       (imageOk f = true ↔ shake256 f.key Config.vendorKeyHash.length = Config.vendorKeyHash ∧
         Config.ed448Valid f.key (shake256 f.body 64) f.signature = true ∧ Config.minimumVersion.toNat ≤ f.version.toNat) ∧
       (imageOk f = false → presents) ∧
       (imageOk f = true →
         let up (b : Brick) : Brick := { b with linkTrained := true }
         let t : State := { c with
           boot := { c.boot with running := true, image := some f, hbmTrained := true }
           mortar := { c.mortar with shadow := defaultTable 0, active := defaultTable 2 }
           bricks := ⟨up c.bricks.b0, up c.bricks.b1, up c.bricks.b2, up c.bricks.b3⟩ }
         let u := (f.writes.foldl State.bootWrite t).writeFreeMaps
         c.runImage f = { u with boot := { u.boot with ready := true } } ∧ exec .coldBoot s = .next (c.runImage f) ∧
         (c.runImage f).boot.running = true ∧ (c.runImage f).boot.image = some f)) ∧
    (∀ image, (s.boot.recovery = true → exec (.recoveryImageWrite image) s =
        .next { s with boot := { s.boot with flash := some image }, agenda := s.agenda ++ [.coldBoot] }) ∧
      (s.boot.recovery = false → exec (.recoveryImageWrite image) s = .next s)) ∧
    (∀ f, s.att.busy = true → s.boot.image = some f →
      let body := fieldBytes 176 (s.reportBody f)
      exec .attestationComplete s = .next { s with
        att := { s.att with done := true, busy := false
                            report := body ++ fieldBytes 114 (Config.ed448Sign body) ++ List.replicate 6 0 }
        outbox := s.outbox ++ [.msix 4] }) ∧
    (s.att.busy = false ∨ s.boot.image = none → exec .attestationComplete s = .next s) ∧
    ∀ what (d : Die),
      let b := s.brick d.val
      let rest := b.withheld.filter (· != what)
      exec (.thermalThrottle what d true) s = .next (s.setBrick d.val { b with withheld := rest ++ [what] }) ∧
      exec (.thermalThrottle what d false) s = .next (s.setBrick d.val { b with withheld := rest })

/-- Circuits, brick resets, boot and attestation. -/
def Obligations.MortarAndBoot : Prop := Claims.MortarSteps ∧ Claims.BootSteps

/-! ## Encoding (R142, R143, R146 to R153) -/

/-- Words that the spec writes out: each decodes to the instruction that it is the word of, and the words that the spec
names as illegal encodings decode to none. -/
def Obligations.WordsDecode : Prop :=
  decodeTableWord 32 0x02014C11 = some (.add ⟨false, 0⟩ 1 2 3 .cio false .w32) ∧
  decodeTableWord 64 (0x02848000 + 0x100 * 2 ^ 32) = some (.addRL ⟨false, 0⟩ 4 4 .none false .w64 0x100) ∧
  decodeTableWord 32 0x0305A004 = some (.addRK ⟨false, 0⟩ 5 5 .w64 1) ∧
  decodeTableWord 32 0x0386DFFD = some (.addRI ⟨false, 0⟩ 6 6 0x1FFD) ∧
  decodeTableWord 64 (0x0484801C + 0x80000000 * 2 ^ 32) = some (.subRL ⟨false, 0⟩ 4 4 .sat true .w64 0x80000000) ∧
  decodeTableWord 64 (0x36838006 + 0x3E8 * 2 ^ 32) = some (.cmpRL ⟨false, 0⟩ 3 4 false .w64 .ltu 1000) ∧
  decodeTableWord 32 0x59832000 = some (.randRI ⟨false, 0⟩ 3 1 0) ∧
  decodeTableWord 32 0xE200000A = some (.call ⟨false, 0⟩ 10) ∧
  decodeTableWord 32 0xE6000040 = some (.ret ⟨false, 0⟩ false) ∧
  decodeTableWord 32 0x74022808 = some (.fcmp ⟨false, 0⟩ 2 1 2 .lt .f32) ∧
  decodeTableWord 64 (0x78823400 + 0xC2909 * 2 ^ 32) = some (.fcvtRL ⟨false, 0⟩ 2 1 5 0x000C2909) ∧
  decodeTableWord 32 0xFD13FC00 = some (.fmai 2 1 0x3FC00) ∧
  decodeTableWord 32 0x86032800 = some (.tadd ⟨false, 0⟩ 3 1 2 0 .rne false) ∧
  decodeTableWord 32 0xA0032A00 = some (.mxm ⟨false, 0⟩ 3 1 2 4 false false) ∧
  decodeTableWord 32 0xA8014C05 = some (.ld ⟨false, 0⟩ 1 2 3 none .g true .w32) ∧
  decodeTableWord 32 0xA9814010 = some (.ldRI ⟨false, 0⟩ 1 2 16) ∧
  decodeTableWord 32 0xC4014C00 = some (.amin ⟨false, 0⟩ 1 2 3 .none .w64) ∧
  decodeTableWord 32 0xD0000003 = some (.fence ⟨false, 0⟩ .die) ∧
  decodeTableWord 64 (0xD8814C05 + 0x1000 * 2 ^ 32) = some (.cpyRL ⟨false, 0⟩ 1 2 3 5 0x1000) ∧
  decodeTableWord 32 0xE8014E94 = some (.spawn ⟨false, 0⟩ 1 2 3 5 .clu 4) ∧
  decodeTableWord 32 0xEC000040 = some (.yield ⟨false, 0⟩) ∧
  decodeTableWord 32 0xF0010004 = some (.rsr ⟨false, 0⟩ 1 .cycle) ∧
  decodeTableWord 32 0xF4015063 = some (.pmig ⟨false, 0⟩ 1 2 4 3) ∧
  ∀ w ∈ [0x00000000, 0xE6000060, 0x3680000A, 0xA0032A04, 0xA8014C04, 0xAC034C00, 0xD0000005, 0xF2800020],
    decodeTableWord 64 (w + 2 ^ 32) = none

/-- R143, R146, R153: decoding the words of a well-formed instruction of an overlay gives the instruction back, whatever
word follows one that takes no literal; an RL form is the only one with two words. -/
def Obligations.EncodeThenDecode : Prop :=
  ∀ i : Instr, wellFormed i = true → isDeviceStep i = false →
    (∃ w, encode i = [w] ∧ takesLiteral w.toNat = false ∧ ∀ next, decodeWords w next = .ok i) ∨
    ∃ w lit, encode i = [w, lit] ∧ takesLiteral w.toNat = true ∧ decodeWords w lit = .ok i

/-- R146, R153: a word that decodes has one meaning and one encoding: the instruction is well-formed, it is none of the
steps that the device takes by itself, and its words are the word that was read, with the literal where it takes one. -/
def Obligations.DecodeThenEncode : Prop :=
  ∀ (w lit : BitVec 32) (i : Instr), decodeWords w lit = .ok i →
    wellFormed i = true ∧ isDeviceStep i = false ∧ encode i = if takesLiteral w.toNat then [w, lit] else [w]

/-! ## The step (R91, R142 to R145, R153) -/

/-- A step runs the decoded instruction: the latched context, RESIDENT and not on its way out, issues the instruction that
the word at its PC, which is not poisoned, decodes to, with the word after it as its literal; exec of that instruction acts on the context in the
barrel, and the line that it leaves goes back to its entry (R121, R142 to R144). -/
def Obligations.StepIssues : Prop :=
  ∀ (s : State) (core entry : Nat) (h : Held) (x : Slot) (i : Instr),
    s.latch = some (core, entry) → Table.get? (s.core core).entries entry = some (.held h) →
    h.line.inState .resident = true → h.draining = false →
    execSlot (s.core core) h.line.domain h.line.pcOverlay = some x →
    let base := slotBase core x
    let o := h.line.pcOffset
    let header := memNat s.mem (base + o / 64 * 64) 4
    let word := BitVec.ofNat 32 (memNat s.mem (base + o) 4)
    let lit := takesLiteral word.toNat
    h.overran = false → o < x.length → o % 64 ≠ 0 → s.isPoisoned (base + o) = false →
    headerValid header = true → bit header (o % 64 / 4) = false →
    (lit = true → o % 64 / 4 ≠ 15 ∧ bit header (o % 64 / 4 + 1) = true) →
    (lit = false → o % 64 / 4 ≠ 15 → bit header (o % 64 / 4 + 1) = false) →
    decodeWords word (BitVec.ofNat 32 (memNat s.mem (base + o + 4) 4)) = .ok i →
    let after := o + (if lit then 8 else 4)
    let t : State := ({ s with latch := none }).touchSlot core x
    let b : Barrel := { core := core, entry := entry, held := { h with issuedAt := s.cycle }, image := base,
                        length := x.length, constWords := x.constWords, word := word,
                        next := if after % 64 = 0 then after + 4 else after }
    (∀ u, exec i { t with barrel := some b } = .next u → step s = .next u.retire) ∧
    ∀ (u : State) (c : Barrel) (h' : Held), u.barrel = some c → Table.get? (u.core c.core).entries c.entry = some (.held h') →
      u.retire.barrel = none ∧ u.retire.mem = u.mem ∧
      ∃ g : Held, Table.get? (u.retire.core c.core).entries c.entry = some (.held g) ∧ g.line = c.held.line ∧ g.va = c.held.va

/-- R91, R144, R153, R341: a fetch that misses its overlay parks its context on the load; one of poisoned data takes the fault of
poisoned data, with the address as FAULT_VA (assumption 121); one that runs past the image, starts at a
header, starts at a literal or follows an overflow of the offset takes the bounds fault; a bad header, a broken pairing of
literals and a word that does not decode take the illegal-encoding fault. That the overflow of the offset is remembered, and
that a literal needs a valid header, are the model's choices (assumptions 25 and 26). -/
def Claims.FetchStops : Prop :=
  ∀ (s : State) (core entry : Nat) (h : Held),
    s.latch = some (core, entry) → Table.get? (s.core core).entries entry = some (.held h) →
    h.line.inState .resident = true → h.draining = false →
    let h1 : Held := { h with issuedAt := s.cycle }
    let b : Barrel := emptyBarrel core entry h1
    (execSlot (s.core core) h.line.domain h.line.pcOverlay = none → step s = .next
      ((({ s with latch := none, barrel := some b } : State).requestOverlay b h.line.pcOverlay true).park b 7
        h.line.pcOverlay).retire) ∧
    ∀ x, execSlot (s.core core) h.line.domain h.line.pcOverlay = some x →
      let base := slotBase core x
      let o := h.line.pcOffset
      let header := memNat s.mem (base + o / 64 * 64) 4
      let n := o % 64 / 4
      let word := BitVec.ofNat 32 (memNat s.mem (base + o) 4)
      let lit := takesLiteral word.toNat
      let bad := s.isPoisoned (base + o)
      let fault (code : FaultCode) (aux : BitVec 32) (fva : Nat) : Prop :=
        ∃ (t : State) (r : FaultRec) (g : Held), step s = .next t ∧ Table.get? (t.core core).entries entry = some (.held g) ∧
          g.line.inState .faulted = true ∧ g.draining = true ∧ g.line.regs = h.line.regs ∧ g.line.pc = h.line.pc ∧
          g.records = h.records ++ [r] ∧ r.code = code ∧ r.cls = .sync ∧ r.access = .none ∧ r.aux = aux ∧ r.va = fva ∧
          r.pc = h.line.pc ∧ r.ctx = h.va ∧ t.mem = s.mem
      (h.overran = true ∨ x.length ≤ o ∨ o % 64 = 0 ∨ (bad = false ∧ headerValid header = true ∧ 0 < n ∧ bit header n = true) →
        fault .bounds 0 0) ∧
      (h.overran = false → o < x.length → o % 64 ≠ 0 → bad = true → fault .poisonedData 0 ((base + o) % 2 ^ 56)) ∧
      (h.overran = false → o < x.length → o % 64 ≠ 0 → bad = false → (headerValid header = true → bit header n = false) → n ≠ 0 →
        headerValid header = false ∨ (lit = true ∧ (n = 15 ∨ bit header (n + 1) = false)) ∨
          (lit = false ∧ n ≠ 15 ∧ bit header (n + 1) = true) ∨
          (∃ e, decodeWords word (BitVec.ofNat 32 (memNat s.mem (base + o + 4) 4)) = .error e) →
        fault .illegalEncoding word 0)

/-- Without a latched context the device takes the next step of its agenda; with an empty agenda a cycle passes, and the steps
that are due form the next agenda. A latch whose context can no longer issue is given up. The agenda, which puts the device's
steps into one order, is the model's choice (assumption 1). -/
def Claims.StepOtherwise : Prop :=
  ∀ s : State,
    (∀ i rest, s.latch = none → s.agenda = i :: rest → step s = exec i { s with agenda := rest }) ∧
    (s.latch = none → s.agenda = [] → step s =
      .next { s with cycle := s.cycle + 1, agenda := ({ s with cycle := s.cycle + 1 } : State).due }) ∧
    ∀ core entry, s.latch = some (core, entry) →
      (∀ h, Table.get? (s.core core).entries entry = some (.held h) →
        h.line.inState .resident = false ∨ h.draining = true) →
      step s = .next { s with latch := none }

/-- Fetches that stop, and the steps between instructions. -/
def Obligations.FetchStopsAndAgenda : Prop := Claims.FetchStops ∧ Claims.StepOtherwise

/-! ## The whole machine -/

/-- Every step of the machine answers a next state: a step of the device always does, an instruction does whenever a context
has issued it, and so does the machine's own step in every state whose agenda holds steps of the device alone. -/
def Obligations.EveryStepAnswers : Prop :=
  (∀ (i : Instr) (s : State), isDeviceStep i = true ∨ s.barrel.isSome = true → ∃ t, exec i s = .next t) ∧
  ∀ s : State, (∀ i ∈ s.agenda, isDeviceStep i = true) → ∃ t, step s = .next t

/-- Every step keeps the canonical form of memory: keys rise strictly, and no cell holds the zero that an unlisted byte
reads as. -/
def Obligations.StepKeepsMemory : Prop := ∀ s t : State, s.MemoryOk → step s = .next t → t.MemoryOk

/-- R147, R148, R341: the guard reads one predicate, inverted when it negates; p0 reads 1, so the guard 0 always holds; an instruction
whose guard does not hold has no effect: its context completes it with every register and predicate as they were; no word
decodes to an instruction with the guard 1000. An encoding check goes before the guard: a constant index at or beyond the
constant bank takes the illegal-encoding fault whatever the guard. A constant in a poisoned unit, read by an instruction whose
guard holds, is poisoned data (R341); the ACCESS of its record is the model's choice (assumption 121). -/
def Obligations.GuardRule : Prop :=
  (∀ (l : Line) (g : Guard), guardHolds l g = true ↔ (if g.neg then l.predicate g.p = false else l.predicate g.p = true)) ∧
  (∀ l : Line, l.predicate 0 = true ∧ guardHolds l ⟨false, 0⟩ = true ∧ guardHolds l ⟨true, 0⟩ = false) ∧
  (∀ (i : Instr) (s : State) (b : Barrel) (g : Guard), i.guard = some g → s.barrel = some b →
    guardHolds b.held.line g = false → (∀ k, i.constIndex = some k → k.toNat < b.constWords) →
    (∀ v, i.specWord s b = some v → fcvtSpecValid v = true) → exec i s = .next (s.complete b b.held.line)) ∧
  (∀ (w lit : BitVec 32) (i : Instr) (g : Guard), decodeWords w lit = .ok i → i.guard = some g →
    bits w.toNat 22 19 ≠ 8 ∧ g.p.val = bits w.toNat 21 19 ∧ g.neg = bit w.toNat 22) ∧
  ∀ (i : Instr) (s : State) (b : Barrel) (k : BitVec 8), i.constIndex = some k → s.barrel = some b →
    (b.constWords ≤ k.toNat → exec i s = .next (s.illegal b)) ∧
    (k.toNat < b.constWords → s.isPoisoned (constAddr b k) = true → (∀ g, i.guard = some g → guardHolds b.held.line g = true) →
      exec i s = .next (s.takeFault b b.held.line .poisonedData .none 0 (constAddr b k)))

/-- R116, R171, R184, R188, R198: an instruction of the integer chapter other than a branch, and a scalar or lane
floating-point instruction, completes in the barrel, takes the illegal-encoding fault, or takes the fault of a poisoned constant
(R341, assumption 121); it changes nothing but the PC, its
destination register, its destination predicate, CARRY where it has a carry mode, and the sticky flags, which a
floating-point instruction can only set. -/
def Obligations.RegisterOnlyFrame : Prop :=
  ∀ (i : Instr) (s : State) (b : Barrel), i.registerOnly = true → s.barrel = some b →
    exec i s = .next (s.illegal b) ∨
    (∃ k, i.constIndex = some k ∧ s.isPoisoned (constAddr b k) = true ∧
      exec i s = .next (s.takeFault b b.held.line .poisonedData .none 0 (constAddr b k))) ∨
    ∃ l' : Line, exec i s = .next (s.complete b l') ∧
      { l' with regs := b.held.line.regs, pred := b.held.line.pred } = b.held.line ∧
      (∀ r, i.destReg ≠ some r → l'.reg r = b.held.line.reg r) ∧
      (i.writesPred = false → ∀ k < 32,
        (k < 8 → (∀ p, i.destPred = some p → p.val ≠ k) → l'.pred.getLsbD k = b.held.line.pred.getLsbD k) ∧
        (8 ≤ k ∧ k < 13 → (i.integer = true → l'.pred.getLsbD k = b.held.line.pred.getLsbD k) ∧
          (b.held.line.pred.getLsbD k = true → l'.pred.getLsbD k = true)) ∧
        (k = 13 → i.carries = false → l'.pred.getLsbD k = b.held.line.pred.getLsbD k) ∧
        (14 ≤ k → l'.pred.getLsbD k = b.held.line.pred.getLsbD k))

/-! ## Reset (R375) -/

/-- The registers right after reset, where the spec states a value: HBM_HASHED_SIZE, EXPAND_LOW and PKG_POWER_LIMIT; of every
core CTXL1_LIMIT, CODE_GRANULES and a slot table of POOL entries of class 0; of every cluster the limits and the hold limits; of
every brick the lease durations, with every brick LIVE; nothing is resident, every full/empty bit is EMPTY, and a byte of a CLM
or a TSP reads zero. The state of a brick before the cold boot is the model's choice (assumption 21), and so is that a byte of
HBM or of host memory that nothing has written reads zero (assumption 3). -/
def Obligations.ResetRegisters : Prop :=
  let s := State.reset
  s.regs.hashedSize = 24 ∧ s.regs.expandLow = 4096 ∧ s.regs.powerLimit = 3000 ∧ s.cycle = 0 ∧
  (∀ c, (s.core c).ctxl1Limit = 16 ∧ (s.core c).codeGranules = 2 ∧ (s.core c).entries = [] ∧ (s.core c).storeBuf = [] ∧
    (s.core c).slots = [] ∧ (s.core c).plb = [] ∧
    ∀ k, k < 16 → bits (s.core c).slotTab.toNat (8 * k + 7) (8 * k) = 0x40) ∧
  (∀ c, (s.cluster c).feLimit = 0x100000 ∧ (s.cluster c).barLimit = 0x1000000 ∧ (s.cluster c).holdLimit0 = 0 ∧
    (s.cluster c).holdLimit1 = 64 ∧ (s.cluster c).holdLimit2 = 256 ∧ (s.cluster c).holdLimit3 = 1024 ∧
    (s.cluster c).noHoldPriority = 28 ∧ (s.cluster c).jobs = [] ∧ (s.cluster c).waits = []) ∧
  (∀ d, d < 4 → (s.brick d).cohLease = 10000 ∧ (s.brick d).cohLeaseMin = 1024 ∧ (s.brick d).cohLeaseMax = 262144 ∧
    s.dieLive d = true ∧ (s.brick d).ready = []) ∧
  s.full = [] ∧ ∀ a, memByte s.mem a = 0

/-- Memory at reset has its canonical form. -/
def Obligations.ResetMemoryOk : Prop := State.reset.MemoryOk
end

