-- ==== Sys2Proof/Laws/State.lean ====
section
/-!
SUPPORT. Laws/State.lean: one lemma for each field of each update of the state, and what the accessors of a core, a
cluster and a brick read back.
-/
namespace Sys2Proof.Machine

/-! ## State.setLine -/

@[simp] theorem State.setLine_mem (s : State) (b : Barrel) (l : Line) : (s.setLine b l).mem = s.mem := rfl
@[simp] theorem State.setLine_full (s : State) (b : Barrel) (l : Line) : (s.setLine b l).full = s.full := rfl
@[simp] theorem State.setLine_poison (s : State) (b : Barrel) (l : Line) : (s.setLine b l).poison = s.poison := rfl
@[simp] theorem State.setLine_badCopies (s : State) (b : Barrel) (l : Line) : (s.setLine b l).badCopies = s.badCopies := rfl
@[simp] theorem State.setLine_badCtxs (s : State) (b : Barrel) (l : Line) : (s.setLine b l).badCtxs = s.badCtxs := rfl
@[simp] theorem State.setLine_cycle (s : State) (b : Barrel) (l : Line) : (s.setLine b l).cycle = s.cycle := rfl
@[simp] theorem State.setLine_draws (s : State) (b : Barrel) (l : Line) : (s.setLine b l).draws = s.draws := rfl
@[simp] theorem State.setLine_barrel (s : State) (b : Barrel) (l : Line) :
    (s.setLine b l).barrel = some { b with held := { b.held with line := l } } := rfl
@[simp] theorem State.setLine_latch (s : State) (b : Barrel) (l : Line) : (s.setLine b l).latch = s.latch := rfl
@[simp] theorem State.setLine_agenda (s : State) (b : Barrel) (l : Line) : (s.setLine b l).agenda = s.agenda := rfl
@[simp] theorem State.setLine_cores (s : State) (b : Barrel) (l : Line) : (s.setLine b l).cores = s.cores := rfl
@[simp] theorem State.setLine_clusters (s : State) (b : Barrel) (l : Line) : (s.setLine b l).clusters = s.clusters := rfl
@[simp] theorem State.setLine_bricks (s : State) (b : Barrel) (l : Line) : (s.setLine b l).bricks = s.bricks := rfl
@[simp] theorem State.setLine_l2 (s : State) (b : Barrel) (l : Line) : (s.setLine b l).l2 = s.l2 := rfl
@[simp] theorem State.setLine_dir (s : State) (b : Barrel) (l : Line) : (s.setLine b l).dir = s.dir := rfl
@[simp] theorem State.setLine_dca (s : State) (b : Barrel) (l : Line) : (s.setLine b l).dca = s.dca := rfl
@[simp] theorem State.setLine_dcaOwn (s : State) (b : Barrel) (l : Line) : (s.setLine b l).dcaOwn = s.dcaOwn := rfl
@[simp] theorem State.setLine_snoops (s : State) (b : Barrel) (l : Line) : (s.setLine b l).snoops = s.snoops := rfl
@[simp] theorem State.setLine_combine (s : State) (b : Barrel) (l : Line) : (s.setLine b l).combine = s.combine := rfl
@[simp] theorem State.setLine_tileSubs (s : State) (b : Barrel) (l : Line) : (s.setLine b l).tileSubs = s.tileSubs := rfl
@[simp] theorem State.setLine_reqs (s : State) (b : Barrel) (l : Line) : (s.setLine b l).reqs = s.reqs := rfl
@[simp] theorem State.setLine_bankQ (s : State) (b : Barrel) (l : Line) : (s.setLine b l).bankQ = s.bankQ := rfl
@[simp] theorem State.setLine_msgs (s : State) (b : Barrel) (l : Line) : (s.setLine b l).msgs = s.msgs := rfl
@[simp] theorem State.setLine_noents (s : State) (b : Barrel) (l : Line) : (s.setLine b l).noents = s.noents := rfl
@[simp] theorem State.setLine_nacks (s : State) (b : Barrel) (l : Line) : (s.setLine b l).nacks = s.nacks := rfl
@[simp] theorem State.setLine_joins (s : State) (b : Barrel) (l : Line) : (s.setLine b l).joins = s.joins := rfl
@[simp] theorem State.setLine_overruns (s : State) (b : Barrel) (l : Line) : (s.setLine b l).overruns = s.overruns := rfl
@[simp] theorem State.setLine_skips (s : State) (b : Barrel) (l : Line) : (s.setLine b l).skips = s.skips := rfl
@[simp] theorem State.setLine_gangOut (s : State) (b : Barrel) (l : Line) : (s.setLine b l).gangOut = s.gangOut := rfl
@[simp] theorem State.setLine_wakes (s : State) (b : Barrel) (l : Line) : (s.setLine b l).wakes = s.wakes := rfl
@[simp] theorem State.setLine_claims (s : State) (b : Barrel) (l : Line) : (s.setLine b l).claims = s.claims := rfl
@[simp] theorem State.setLine_claimsLost (s : State) (b : Barrel) (l : Line) : (s.setLine b l).claimsLost = s.claimsLost := rfl
@[simp] theorem State.setLine_transfers (s : State) (b : Barrel) (l : Line) : (s.setLine b l).transfers = s.transfers := rfl
@[simp] theorem State.setLine_chunks (s : State) (b : Barrel) (l : Line) : (s.setLine b l).chunks = s.chunks := rfl
@[simp] theorem State.setLine_steals (s : State) (b : Barrel) (l : Line) : (s.setLine b l).steals = s.steals := rfl
@[simp] theorem State.setLine_kills (s : State) (b : Barrel) (l : Line) : (s.setLine b l).kills = s.kills := rfl
@[simp] theorem State.setLine_resumes (s : State) (b : Barrel) (l : Line) : (s.setLine b l).resumes = s.resumes := rfl
@[simp] theorem State.setLine_timers (s : State) (b : Barrel) (l : Line) : (s.setLine b l).timers = s.timers := rfl
@[simp] theorem State.setLine_invs (s : State) (b : Barrel) (l : Line) : (s.setLine b l).invs = s.invs := rfl
@[simp] theorem State.setLine_fences (s : State) (b : Barrel) (l : Line) : (s.setLine b l).fences = s.fences := rfl
@[simp] theorem State.setLine_plbFills (s : State) (b : Barrel) (l : Line) : (s.setLine b l).plbFills = s.plbFills := rfl
@[simp] theorem State.setLine_migrations (s : State) (b : Barrel) (l : Line) : (s.setLine b l).migrations = s.migrations := rfl
@[simp] theorem State.setLine_jobReqs (s : State) (b : Barrel) (l : Line) : (s.setLine b l).jobReqs = s.jobReqs := rfl
@[simp] theorem State.setLine_tileArrivals (s : State) (b : Barrel) (l : Line) : (s.setLine b l).tileArrivals = s.tileArrivals := rfl
@[simp] theorem State.setLine_mxArrivals (s : State) (b : Barrel) (l : Line) : (s.setLine b l).mxArrivals = s.mxArrivals := rfl
@[simp] theorem State.setLine_mxRetries (s : State) (b : Barrel) (l : Line) : (s.setLine b l).mxRetries = s.mxRetries := rfl
@[simp] theorem State.setLine_discards (s : State) (b : Barrel) (l : Line) : (s.setLine b l).discards = s.discards := rfl
@[simp] theorem State.setLine_faultQ (s : State) (b : Barrel) (l : Line) : (s.setLine b l).faultQ = s.faultQ := rfl
@[simp] theorem State.setLine_elogQ (s : State) (b : Barrel) (l : Line) : (s.setLine b l).elogQ = s.elogQ := rfl
@[simp] theorem State.setLine_handlerWakes (s : State) (b : Barrel) (l : Line) : (s.setLine b l).handlerWakes = s.handlerWakes := rfl
@[simp] theorem State.setLine_outReqs (s : State) (b : Barrel) (l : Line) : (s.setLine b l).outReqs = s.outReqs := rfl
@[simp] theorem State.setLine_outers (s : State) (b : Barrel) (l : Line) : (s.setLine b l).outers = s.outers := rfl
@[simp] theorem State.setLine_inflow (s : State) (b : Barrel) (l : Line) : (s.setLine b l).inflow = s.inflow := rfl
@[simp] theorem State.setLine_outbox (s : State) (b : Barrel) (l : Line) : (s.setLine b l).outbox = s.outbox := rfl
@[simp] theorem State.setLine_quarantine (s : State) (b : Barrel) (l : Line) : (s.setLine b l).quarantine = s.quarantine := rfl
@[simp] theorem State.setLine_regs (s : State) (b : Barrel) (l : Line) : (s.setLine b l).regs = s.regs := rfl
@[simp] theorem State.setLine_mortar (s : State) (b : Barrel) (l : Line) : (s.setLine b l).mortar = s.mortar := rfl
@[simp] theorem State.setLine_att (s : State) (b : Barrel) (l : Line) : (s.setLine b l).att = s.att := rfl
@[simp] theorem State.setLine_boot (s : State) (b : Barrel) (l : Line) : (s.setLine b l).boot = s.boot := rfl

/-! ## State.complete -/

@[simp] theorem State.complete_mem (s : State) (b : Barrel) (l : Line) : (s.complete b l).mem = s.mem := rfl
@[simp] theorem State.complete_full (s : State) (b : Barrel) (l : Line) : (s.complete b l).full = s.full := rfl
@[simp] theorem State.complete_poison (s : State) (b : Barrel) (l : Line) : (s.complete b l).poison = s.poison := rfl
@[simp] theorem State.complete_badCopies (s : State) (b : Barrel) (l : Line) : (s.complete b l).badCopies = s.badCopies := rfl
@[simp] theorem State.complete_badCtxs (s : State) (b : Barrel) (l : Line) : (s.complete b l).badCtxs = s.badCtxs := rfl
@[simp] theorem State.complete_cycle (s : State) (b : Barrel) (l : Line) : (s.complete b l).cycle = s.cycle := rfl
@[simp] theorem State.complete_draws (s : State) (b : Barrel) (l : Line) : (s.complete b l).draws = s.draws := rfl
@[simp] theorem State.complete_barrel (s : State) (b : Barrel) (l : Line) :
    (s.complete b l).barrel = some { b with held := { b.held with
      line := { l with pc := b.nextPc }, overran := b.held.overran || decide (2 ^ 16 ≤ b.next) } } := rfl
@[simp] theorem State.complete_latch (s : State) (b : Barrel) (l : Line) : (s.complete b l).latch = s.latch := rfl
@[simp] theorem State.complete_agenda (s : State) (b : Barrel) (l : Line) : (s.complete b l).agenda = s.agenda := rfl
@[simp] theorem State.complete_cores (s : State) (b : Barrel) (l : Line) : (s.complete b l).cores = s.cores := rfl
@[simp] theorem State.complete_clusters (s : State) (b : Barrel) (l : Line) : (s.complete b l).clusters = s.clusters := rfl
@[simp] theorem State.complete_bricks (s : State) (b : Barrel) (l : Line) : (s.complete b l).bricks = s.bricks := rfl
@[simp] theorem State.complete_l2 (s : State) (b : Barrel) (l : Line) : (s.complete b l).l2 = s.l2 := rfl
@[simp] theorem State.complete_dir (s : State) (b : Barrel) (l : Line) : (s.complete b l).dir = s.dir := rfl
@[simp] theorem State.complete_dca (s : State) (b : Barrel) (l : Line) : (s.complete b l).dca = s.dca := rfl
@[simp] theorem State.complete_dcaOwn (s : State) (b : Barrel) (l : Line) : (s.complete b l).dcaOwn = s.dcaOwn := rfl
@[simp] theorem State.complete_snoops (s : State) (b : Barrel) (l : Line) : (s.complete b l).snoops = s.snoops := rfl
@[simp] theorem State.complete_combine (s : State) (b : Barrel) (l : Line) : (s.complete b l).combine = s.combine := rfl
@[simp] theorem State.complete_tileSubs (s : State) (b : Barrel) (l : Line) : (s.complete b l).tileSubs = s.tileSubs := rfl
@[simp] theorem State.complete_reqs (s : State) (b : Barrel) (l : Line) : (s.complete b l).reqs = s.reqs := rfl
@[simp] theorem State.complete_bankQ (s : State) (b : Barrel) (l : Line) : (s.complete b l).bankQ = s.bankQ := rfl
@[simp] theorem State.complete_msgs (s : State) (b : Barrel) (l : Line) : (s.complete b l).msgs = s.msgs := rfl
@[simp] theorem State.complete_noents (s : State) (b : Barrel) (l : Line) : (s.complete b l).noents = s.noents := rfl
@[simp] theorem State.complete_nacks (s : State) (b : Barrel) (l : Line) : (s.complete b l).nacks = s.nacks := rfl
@[simp] theorem State.complete_joins (s : State) (b : Barrel) (l : Line) : (s.complete b l).joins = s.joins := rfl
@[simp] theorem State.complete_overruns (s : State) (b : Barrel) (l : Line) : (s.complete b l).overruns = s.overruns := rfl
@[simp] theorem State.complete_skips (s : State) (b : Barrel) (l : Line) : (s.complete b l).skips = s.skips := rfl
@[simp] theorem State.complete_gangOut (s : State) (b : Barrel) (l : Line) : (s.complete b l).gangOut = s.gangOut := rfl
@[simp] theorem State.complete_wakes (s : State) (b : Barrel) (l : Line) : (s.complete b l).wakes = s.wakes := rfl
@[simp] theorem State.complete_claims (s : State) (b : Barrel) (l : Line) : (s.complete b l).claims = s.claims := rfl
@[simp] theorem State.complete_claimsLost (s : State) (b : Barrel) (l : Line) : (s.complete b l).claimsLost = s.claimsLost := rfl
@[simp] theorem State.complete_transfers (s : State) (b : Barrel) (l : Line) : (s.complete b l).transfers = s.transfers := rfl
@[simp] theorem State.complete_chunks (s : State) (b : Barrel) (l : Line) : (s.complete b l).chunks = s.chunks := rfl
@[simp] theorem State.complete_steals (s : State) (b : Barrel) (l : Line) : (s.complete b l).steals = s.steals := rfl
@[simp] theorem State.complete_kills (s : State) (b : Barrel) (l : Line) : (s.complete b l).kills = s.kills := rfl
@[simp] theorem State.complete_resumes (s : State) (b : Barrel) (l : Line) : (s.complete b l).resumes = s.resumes := rfl
@[simp] theorem State.complete_timers (s : State) (b : Barrel) (l : Line) : (s.complete b l).timers = s.timers := rfl
@[simp] theorem State.complete_invs (s : State) (b : Barrel) (l : Line) : (s.complete b l).invs = s.invs := rfl
@[simp] theorem State.complete_fences (s : State) (b : Barrel) (l : Line) : (s.complete b l).fences = s.fences := rfl
@[simp] theorem State.complete_plbFills (s : State) (b : Barrel) (l : Line) : (s.complete b l).plbFills = s.plbFills := rfl
@[simp] theorem State.complete_migrations (s : State) (b : Barrel) (l : Line) : (s.complete b l).migrations = s.migrations := rfl
@[simp] theorem State.complete_jobReqs (s : State) (b : Barrel) (l : Line) : (s.complete b l).jobReqs = s.jobReqs := rfl
@[simp] theorem State.complete_tileArrivals (s : State) (b : Barrel) (l : Line) : (s.complete b l).tileArrivals = s.tileArrivals := rfl
@[simp] theorem State.complete_mxArrivals (s : State) (b : Barrel) (l : Line) : (s.complete b l).mxArrivals = s.mxArrivals := rfl
@[simp] theorem State.complete_mxRetries (s : State) (b : Barrel) (l : Line) : (s.complete b l).mxRetries = s.mxRetries := rfl
@[simp] theorem State.complete_discards (s : State) (b : Barrel) (l : Line) : (s.complete b l).discards = s.discards := rfl
@[simp] theorem State.complete_faultQ (s : State) (b : Barrel) (l : Line) : (s.complete b l).faultQ = s.faultQ := rfl
@[simp] theorem State.complete_elogQ (s : State) (b : Barrel) (l : Line) : (s.complete b l).elogQ = s.elogQ := rfl
@[simp] theorem State.complete_handlerWakes (s : State) (b : Barrel) (l : Line) : (s.complete b l).handlerWakes = s.handlerWakes := rfl
@[simp] theorem State.complete_outReqs (s : State) (b : Barrel) (l : Line) : (s.complete b l).outReqs = s.outReqs := rfl
@[simp] theorem State.complete_outers (s : State) (b : Barrel) (l : Line) : (s.complete b l).outers = s.outers := rfl
@[simp] theorem State.complete_inflow (s : State) (b : Barrel) (l : Line) : (s.complete b l).inflow = s.inflow := rfl
@[simp] theorem State.complete_outbox (s : State) (b : Barrel) (l : Line) : (s.complete b l).outbox = s.outbox := rfl
@[simp] theorem State.complete_quarantine (s : State) (b : Barrel) (l : Line) : (s.complete b l).quarantine = s.quarantine := rfl
@[simp] theorem State.complete_regs (s : State) (b : Barrel) (l : Line) : (s.complete b l).regs = s.regs := rfl
@[simp] theorem State.complete_mortar (s : State) (b : Barrel) (l : Line) : (s.complete b l).mortar = s.mortar := rfl
@[simp] theorem State.complete_att (s : State) (b : Barrel) (l : Line) : (s.complete b l).att = s.att := rfl
@[simp] theorem State.complete_boot (s : State) (b : Barrel) (l : Line) : (s.complete b l).boot = s.boot := rfl

/-! ## State.jumpTo -/

@[simp] theorem State.jumpTo_mem (s : State) (b : Barrel) (l : Line) (pc : BitVec 32) : (s.jumpTo b l pc).mem = s.mem := rfl
@[simp] theorem State.jumpTo_full (s : State) (b : Barrel) (l : Line) (pc : BitVec 32) : (s.jumpTo b l pc).full = s.full := rfl
@[simp] theorem State.jumpTo_poison (s : State) (b : Barrel) (l : Line) (pc : BitVec 32) : (s.jumpTo b l pc).poison = s.poison := rfl
@[simp] theorem State.jumpTo_badCopies (s : State) (b : Barrel) (l : Line) (pc : BitVec 32) : (s.jumpTo b l pc).badCopies = s.badCopies := rfl
@[simp] theorem State.jumpTo_badCtxs (s : State) (b : Barrel) (l : Line) (pc : BitVec 32) : (s.jumpTo b l pc).badCtxs = s.badCtxs := rfl
@[simp] theorem State.jumpTo_cycle (s : State) (b : Barrel) (l : Line) (pc : BitVec 32) : (s.jumpTo b l pc).cycle = s.cycle := rfl
@[simp] theorem State.jumpTo_draws (s : State) (b : Barrel) (l : Line) (pc : BitVec 32) : (s.jumpTo b l pc).draws = s.draws := rfl
@[simp] theorem State.jumpTo_barrel (s : State) (b : Barrel) (l : Line) (pc : BitVec 32) :
    (s.jumpTo b l pc).barrel = some { b with held := { b.held with line := { l with pc := pc } } } := rfl
@[simp] theorem State.jumpTo_latch (s : State) (b : Barrel) (l : Line) (pc : BitVec 32) : (s.jumpTo b l pc).latch = s.latch := rfl
@[simp] theorem State.jumpTo_agenda (s : State) (b : Barrel) (l : Line) (pc : BitVec 32) : (s.jumpTo b l pc).agenda = s.agenda := rfl
@[simp] theorem State.jumpTo_cores (s : State) (b : Barrel) (l : Line) (pc : BitVec 32) : (s.jumpTo b l pc).cores = s.cores := rfl
@[simp] theorem State.jumpTo_clusters (s : State) (b : Barrel) (l : Line) (pc : BitVec 32) : (s.jumpTo b l pc).clusters = s.clusters := rfl
@[simp] theorem State.jumpTo_bricks (s : State) (b : Barrel) (l : Line) (pc : BitVec 32) : (s.jumpTo b l pc).bricks = s.bricks := rfl
@[simp] theorem State.jumpTo_l2 (s : State) (b : Barrel) (l : Line) (pc : BitVec 32) : (s.jumpTo b l pc).l2 = s.l2 := rfl
@[simp] theorem State.jumpTo_dir (s : State) (b : Barrel) (l : Line) (pc : BitVec 32) : (s.jumpTo b l pc).dir = s.dir := rfl
@[simp] theorem State.jumpTo_dca (s : State) (b : Barrel) (l : Line) (pc : BitVec 32) : (s.jumpTo b l pc).dca = s.dca := rfl
@[simp] theorem State.jumpTo_dcaOwn (s : State) (b : Barrel) (l : Line) (pc : BitVec 32) : (s.jumpTo b l pc).dcaOwn = s.dcaOwn := rfl
@[simp] theorem State.jumpTo_snoops (s : State) (b : Barrel) (l : Line) (pc : BitVec 32) : (s.jumpTo b l pc).snoops = s.snoops := rfl
@[simp] theorem State.jumpTo_combine (s : State) (b : Barrel) (l : Line) (pc : BitVec 32) : (s.jumpTo b l pc).combine = s.combine := rfl
@[simp] theorem State.jumpTo_tileSubs (s : State) (b : Barrel) (l : Line) (pc : BitVec 32) : (s.jumpTo b l pc).tileSubs = s.tileSubs := rfl
@[simp] theorem State.jumpTo_reqs (s : State) (b : Barrel) (l : Line) (pc : BitVec 32) : (s.jumpTo b l pc).reqs = s.reqs := rfl
@[simp] theorem State.jumpTo_bankQ (s : State) (b : Barrel) (l : Line) (pc : BitVec 32) : (s.jumpTo b l pc).bankQ = s.bankQ := rfl
@[simp] theorem State.jumpTo_msgs (s : State) (b : Barrel) (l : Line) (pc : BitVec 32) : (s.jumpTo b l pc).msgs = s.msgs := rfl
@[simp] theorem State.jumpTo_noents (s : State) (b : Barrel) (l : Line) (pc : BitVec 32) : (s.jumpTo b l pc).noents = s.noents := rfl
@[simp] theorem State.jumpTo_nacks (s : State) (b : Barrel) (l : Line) (pc : BitVec 32) : (s.jumpTo b l pc).nacks = s.nacks := rfl
@[simp] theorem State.jumpTo_joins (s : State) (b : Barrel) (l : Line) (pc : BitVec 32) : (s.jumpTo b l pc).joins = s.joins := rfl
@[simp] theorem State.jumpTo_overruns (s : State) (b : Barrel) (l : Line) (pc : BitVec 32) : (s.jumpTo b l pc).overruns = s.overruns := rfl
@[simp] theorem State.jumpTo_skips (s : State) (b : Barrel) (l : Line) (pc : BitVec 32) : (s.jumpTo b l pc).skips = s.skips := rfl
@[simp] theorem State.jumpTo_gangOut (s : State) (b : Barrel) (l : Line) (pc : BitVec 32) : (s.jumpTo b l pc).gangOut = s.gangOut := rfl
@[simp] theorem State.jumpTo_wakes (s : State) (b : Barrel) (l : Line) (pc : BitVec 32) : (s.jumpTo b l pc).wakes = s.wakes := rfl
@[simp] theorem State.jumpTo_claims (s : State) (b : Barrel) (l : Line) (pc : BitVec 32) : (s.jumpTo b l pc).claims = s.claims := rfl
@[simp] theorem State.jumpTo_claimsLost (s : State) (b : Barrel) (l : Line) (pc : BitVec 32) : (s.jumpTo b l pc).claimsLost = s.claimsLost := rfl
@[simp] theorem State.jumpTo_transfers (s : State) (b : Barrel) (l : Line) (pc : BitVec 32) : (s.jumpTo b l pc).transfers = s.transfers := rfl
@[simp] theorem State.jumpTo_chunks (s : State) (b : Barrel) (l : Line) (pc : BitVec 32) : (s.jumpTo b l pc).chunks = s.chunks := rfl
@[simp] theorem State.jumpTo_steals (s : State) (b : Barrel) (l : Line) (pc : BitVec 32) : (s.jumpTo b l pc).steals = s.steals := rfl
@[simp] theorem State.jumpTo_kills (s : State) (b : Barrel) (l : Line) (pc : BitVec 32) : (s.jumpTo b l pc).kills = s.kills := rfl
@[simp] theorem State.jumpTo_resumes (s : State) (b : Barrel) (l : Line) (pc : BitVec 32) : (s.jumpTo b l pc).resumes = s.resumes := rfl
@[simp] theorem State.jumpTo_timers (s : State) (b : Barrel) (l : Line) (pc : BitVec 32) : (s.jumpTo b l pc).timers = s.timers := rfl
@[simp] theorem State.jumpTo_invs (s : State) (b : Barrel) (l : Line) (pc : BitVec 32) : (s.jumpTo b l pc).invs = s.invs := rfl
@[simp] theorem State.jumpTo_fences (s : State) (b : Barrel) (l : Line) (pc : BitVec 32) : (s.jumpTo b l pc).fences = s.fences := rfl
@[simp] theorem State.jumpTo_plbFills (s : State) (b : Barrel) (l : Line) (pc : BitVec 32) : (s.jumpTo b l pc).plbFills = s.plbFills := rfl
@[simp] theorem State.jumpTo_migrations (s : State) (b : Barrel) (l : Line) (pc : BitVec 32) : (s.jumpTo b l pc).migrations = s.migrations := rfl
@[simp] theorem State.jumpTo_jobReqs (s : State) (b : Barrel) (l : Line) (pc : BitVec 32) : (s.jumpTo b l pc).jobReqs = s.jobReqs := rfl
@[simp] theorem State.jumpTo_tileArrivals (s : State) (b : Barrel) (l : Line) (pc : BitVec 32) : (s.jumpTo b l pc).tileArrivals = s.tileArrivals := rfl
@[simp] theorem State.jumpTo_mxArrivals (s : State) (b : Barrel) (l : Line) (pc : BitVec 32) : (s.jumpTo b l pc).mxArrivals = s.mxArrivals := rfl
@[simp] theorem State.jumpTo_mxRetries (s : State) (b : Barrel) (l : Line) (pc : BitVec 32) : (s.jumpTo b l pc).mxRetries = s.mxRetries := rfl
@[simp] theorem State.jumpTo_discards (s : State) (b : Barrel) (l : Line) (pc : BitVec 32) : (s.jumpTo b l pc).discards = s.discards := rfl
@[simp] theorem State.jumpTo_faultQ (s : State) (b : Barrel) (l : Line) (pc : BitVec 32) : (s.jumpTo b l pc).faultQ = s.faultQ := rfl
@[simp] theorem State.jumpTo_elogQ (s : State) (b : Barrel) (l : Line) (pc : BitVec 32) : (s.jumpTo b l pc).elogQ = s.elogQ := rfl
@[simp] theorem State.jumpTo_handlerWakes (s : State) (b : Barrel) (l : Line) (pc : BitVec 32) : (s.jumpTo b l pc).handlerWakes = s.handlerWakes := rfl
@[simp] theorem State.jumpTo_outReqs (s : State) (b : Barrel) (l : Line) (pc : BitVec 32) : (s.jumpTo b l pc).outReqs = s.outReqs := rfl
@[simp] theorem State.jumpTo_outers (s : State) (b : Barrel) (l : Line) (pc : BitVec 32) : (s.jumpTo b l pc).outers = s.outers := rfl
@[simp] theorem State.jumpTo_inflow (s : State) (b : Barrel) (l : Line) (pc : BitVec 32) : (s.jumpTo b l pc).inflow = s.inflow := rfl
@[simp] theorem State.jumpTo_outbox (s : State) (b : Barrel) (l : Line) (pc : BitVec 32) : (s.jumpTo b l pc).outbox = s.outbox := rfl
@[simp] theorem State.jumpTo_quarantine (s : State) (b : Barrel) (l : Line) (pc : BitVec 32) : (s.jumpTo b l pc).quarantine = s.quarantine := rfl
@[simp] theorem State.jumpTo_regs (s : State) (b : Barrel) (l : Line) (pc : BitVec 32) : (s.jumpTo b l pc).regs = s.regs := rfl
@[simp] theorem State.jumpTo_mortar (s : State) (b : Barrel) (l : Line) (pc : BitVec 32) : (s.jumpTo b l pc).mortar = s.mortar := rfl
@[simp] theorem State.jumpTo_att (s : State) (b : Barrel) (l : Line) (pc : BitVec 32) : (s.jumpTo b l pc).att = s.att := rfl
@[simp] theorem State.jumpTo_boot (s : State) (b : Barrel) (l : Line) (pc : BitVec 32) : (s.jumpTo b l pc).boot = s.boot := rfl

/-! ## State.park -/

@[simp] theorem State.park_mem (s : State) (b : Barrel) (k v : Nat) : (s.park b k v).mem = s.mem := rfl
@[simp] theorem State.park_full (s : State) (b : Barrel) (k v : Nat) : (s.park b k v).full = s.full := rfl
@[simp] theorem State.park_poison (s : State) (b : Barrel) (k v : Nat) : (s.park b k v).poison = s.poison := rfl
@[simp] theorem State.park_badCopies (s : State) (b : Barrel) (k v : Nat) : (s.park b k v).badCopies = s.badCopies := rfl
@[simp] theorem State.park_badCtxs (s : State) (b : Barrel) (k v : Nat) : (s.park b k v).badCtxs = s.badCtxs := rfl
@[simp] theorem State.park_cycle (s : State) (b : Barrel) (k v : Nat) : (s.park b k v).cycle = s.cycle := rfl
@[simp] theorem State.park_draws (s : State) (b : Barrel) (k v : Nat) : (s.park b k v).draws = s.draws := rfl
@[simp] theorem State.park_barrel (s : State) (b : Barrel) (k v : Nat) :
    (s.park b k v).barrel = some { b with held := { b.held with
      line := (b.held.line.setWait k v).setState .wait } } := rfl
@[simp] theorem State.park_latch (s : State) (b : Barrel) (k v : Nat) : (s.park b k v).latch = s.latch := rfl
@[simp] theorem State.park_agenda (s : State) (b : Barrel) (k v : Nat) : (s.park b k v).agenda = s.agenda := rfl
@[simp] theorem State.park_cores (s : State) (b : Barrel) (k v : Nat) : (s.park b k v).cores = s.cores := rfl
@[simp] theorem State.park_clusters (s : State) (b : Barrel) (k v : Nat) : (s.park b k v).clusters = s.clusters := rfl
@[simp] theorem State.park_bricks (s : State) (b : Barrel) (k v : Nat) : (s.park b k v).bricks = s.bricks := rfl
@[simp] theorem State.park_l2 (s : State) (b : Barrel) (k v : Nat) : (s.park b k v).l2 = s.l2 := rfl
@[simp] theorem State.park_dir (s : State) (b : Barrel) (k v : Nat) : (s.park b k v).dir = s.dir := rfl
@[simp] theorem State.park_dca (s : State) (b : Barrel) (k v : Nat) : (s.park b k v).dca = s.dca := rfl
@[simp] theorem State.park_dcaOwn (s : State) (b : Barrel) (k v : Nat) : (s.park b k v).dcaOwn = s.dcaOwn := rfl
@[simp] theorem State.park_snoops (s : State) (b : Barrel) (k v : Nat) : (s.park b k v).snoops = s.snoops := rfl
@[simp] theorem State.park_combine (s : State) (b : Barrel) (k v : Nat) : (s.park b k v).combine = s.combine := rfl
@[simp] theorem State.park_tileSubs (s : State) (b : Barrel) (k v : Nat) : (s.park b k v).tileSubs = s.tileSubs := rfl
@[simp] theorem State.park_reqs (s : State) (b : Barrel) (k v : Nat) : (s.park b k v).reqs = s.reqs := rfl
@[simp] theorem State.park_bankQ (s : State) (b : Barrel) (k v : Nat) : (s.park b k v).bankQ = s.bankQ := rfl
@[simp] theorem State.park_msgs (s : State) (b : Barrel) (k v : Nat) : (s.park b k v).msgs = s.msgs := rfl
@[simp] theorem State.park_noents (s : State) (b : Barrel) (k v : Nat) : (s.park b k v).noents = s.noents := rfl
@[simp] theorem State.park_nacks (s : State) (b : Barrel) (k v : Nat) : (s.park b k v).nacks = s.nacks := rfl
@[simp] theorem State.park_joins (s : State) (b : Barrel) (k v : Nat) : (s.park b k v).joins = s.joins := rfl
@[simp] theorem State.park_overruns (s : State) (b : Barrel) (k v : Nat) : (s.park b k v).overruns = s.overruns := rfl
@[simp] theorem State.park_skips (s : State) (b : Barrel) (k v : Nat) : (s.park b k v).skips = s.skips := rfl
@[simp] theorem State.park_gangOut (s : State) (b : Barrel) (k v : Nat) : (s.park b k v).gangOut = s.gangOut := rfl
@[simp] theorem State.park_wakes (s : State) (b : Barrel) (k v : Nat) : (s.park b k v).wakes = s.wakes := rfl
@[simp] theorem State.park_claims (s : State) (b : Barrel) (k v : Nat) : (s.park b k v).claims = s.claims := rfl
@[simp] theorem State.park_claimsLost (s : State) (b : Barrel) (k v : Nat) : (s.park b k v).claimsLost = s.claimsLost := rfl
@[simp] theorem State.park_transfers (s : State) (b : Barrel) (k v : Nat) : (s.park b k v).transfers = s.transfers := rfl
@[simp] theorem State.park_chunks (s : State) (b : Barrel) (k v : Nat) : (s.park b k v).chunks = s.chunks := rfl
@[simp] theorem State.park_steals (s : State) (b : Barrel) (k v : Nat) : (s.park b k v).steals = s.steals := rfl
@[simp] theorem State.park_kills (s : State) (b : Barrel) (k v : Nat) : (s.park b k v).kills = s.kills := rfl
@[simp] theorem State.park_resumes (s : State) (b : Barrel) (k v : Nat) : (s.park b k v).resumes = s.resumes := rfl
@[simp] theorem State.park_timers (s : State) (b : Barrel) (k v : Nat) : (s.park b k v).timers = s.timers := rfl
@[simp] theorem State.park_invs (s : State) (b : Barrel) (k v : Nat) : (s.park b k v).invs = s.invs := rfl
@[simp] theorem State.park_fences (s : State) (b : Barrel) (k v : Nat) : (s.park b k v).fences = s.fences := rfl
@[simp] theorem State.park_plbFills (s : State) (b : Barrel) (k v : Nat) : (s.park b k v).plbFills = s.plbFills := rfl
@[simp] theorem State.park_migrations (s : State) (b : Barrel) (k v : Nat) : (s.park b k v).migrations = s.migrations := rfl
@[simp] theorem State.park_jobReqs (s : State) (b : Barrel) (k v : Nat) : (s.park b k v).jobReqs = s.jobReqs := rfl
@[simp] theorem State.park_tileArrivals (s : State) (b : Barrel) (k v : Nat) : (s.park b k v).tileArrivals = s.tileArrivals := rfl
@[simp] theorem State.park_mxArrivals (s : State) (b : Barrel) (k v : Nat) : (s.park b k v).mxArrivals = s.mxArrivals := rfl
@[simp] theorem State.park_mxRetries (s : State) (b : Barrel) (k v : Nat) : (s.park b k v).mxRetries = s.mxRetries := rfl
@[simp] theorem State.park_discards (s : State) (b : Barrel) (k v : Nat) : (s.park b k v).discards = s.discards := rfl
@[simp] theorem State.park_faultQ (s : State) (b : Barrel) (k v : Nat) : (s.park b k v).faultQ = s.faultQ := rfl
@[simp] theorem State.park_elogQ (s : State) (b : Barrel) (k v : Nat) : (s.park b k v).elogQ = s.elogQ := rfl
@[simp] theorem State.park_handlerWakes (s : State) (b : Barrel) (k v : Nat) : (s.park b k v).handlerWakes = s.handlerWakes := rfl
@[simp] theorem State.park_outReqs (s : State) (b : Barrel) (k v : Nat) : (s.park b k v).outReqs = s.outReqs := rfl
@[simp] theorem State.park_outers (s : State) (b : Barrel) (k v : Nat) : (s.park b k v).outers = s.outers := rfl
@[simp] theorem State.park_inflow (s : State) (b : Barrel) (k v : Nat) : (s.park b k v).inflow = s.inflow := rfl
@[simp] theorem State.park_outbox (s : State) (b : Barrel) (k v : Nat) : (s.park b k v).outbox = s.outbox := rfl
@[simp] theorem State.park_quarantine (s : State) (b : Barrel) (k v : Nat) : (s.park b k v).quarantine = s.quarantine := rfl
@[simp] theorem State.park_regs (s : State) (b : Barrel) (k v : Nat) : (s.park b k v).regs = s.regs := rfl
@[simp] theorem State.park_mortar (s : State) (b : Barrel) (k v : Nat) : (s.park b k v).mortar = s.mortar := rfl
@[simp] theorem State.park_att (s : State) (b : Barrel) (k v : Nat) : (s.park b k v).att = s.att := rfl
@[simp] theorem State.park_boot (s : State) (b : Barrel) (k v : Nat) : (s.park b k v).boot = s.boot := rfl

/-! ## State.parkAdvance -/

@[simp] theorem State.parkAdvance_mem (s : State) (b : Barrel) (k v : Nat) : (s.parkAdvance b k v).mem = s.mem := rfl
@[simp] theorem State.parkAdvance_full (s : State) (b : Barrel) (k v : Nat) : (s.parkAdvance b k v).full = s.full := rfl
@[simp] theorem State.parkAdvance_poison (s : State) (b : Barrel) (k v : Nat) : (s.parkAdvance b k v).poison = s.poison := rfl
@[simp] theorem State.parkAdvance_badCopies (s : State) (b : Barrel) (k v : Nat) : (s.parkAdvance b k v).badCopies = s.badCopies := rfl
@[simp] theorem State.parkAdvance_badCtxs (s : State) (b : Barrel) (k v : Nat) : (s.parkAdvance b k v).badCtxs = s.badCtxs := rfl
@[simp] theorem State.parkAdvance_cycle (s : State) (b : Barrel) (k v : Nat) : (s.parkAdvance b k v).cycle = s.cycle := rfl
@[simp] theorem State.parkAdvance_draws (s : State) (b : Barrel) (k v : Nat) : (s.parkAdvance b k v).draws = s.draws := rfl
@[simp] theorem State.parkAdvance_latch (s : State) (b : Barrel) (k v : Nat) : (s.parkAdvance b k v).latch = s.latch := rfl
@[simp] theorem State.parkAdvance_agenda (s : State) (b : Barrel) (k v : Nat) : (s.parkAdvance b k v).agenda = s.agenda := rfl
@[simp] theorem State.parkAdvance_cores (s : State) (b : Barrel) (k v : Nat) : (s.parkAdvance b k v).cores = s.cores := rfl
@[simp] theorem State.parkAdvance_clusters (s : State) (b : Barrel) (k v : Nat) : (s.parkAdvance b k v).clusters = s.clusters := rfl
@[simp] theorem State.parkAdvance_bricks (s : State) (b : Barrel) (k v : Nat) : (s.parkAdvance b k v).bricks = s.bricks := rfl
@[simp] theorem State.parkAdvance_l2 (s : State) (b : Barrel) (k v : Nat) : (s.parkAdvance b k v).l2 = s.l2 := rfl
@[simp] theorem State.parkAdvance_dir (s : State) (b : Barrel) (k v : Nat) : (s.parkAdvance b k v).dir = s.dir := rfl
@[simp] theorem State.parkAdvance_dca (s : State) (b : Barrel) (k v : Nat) : (s.parkAdvance b k v).dca = s.dca := rfl
@[simp] theorem State.parkAdvance_dcaOwn (s : State) (b : Barrel) (k v : Nat) : (s.parkAdvance b k v).dcaOwn = s.dcaOwn := rfl
@[simp] theorem State.parkAdvance_snoops (s : State) (b : Barrel) (k v : Nat) : (s.parkAdvance b k v).snoops = s.snoops := rfl
@[simp] theorem State.parkAdvance_combine (s : State) (b : Barrel) (k v : Nat) : (s.parkAdvance b k v).combine = s.combine := rfl
@[simp] theorem State.parkAdvance_tileSubs (s : State) (b : Barrel) (k v : Nat) : (s.parkAdvance b k v).tileSubs = s.tileSubs := rfl
@[simp] theorem State.parkAdvance_reqs (s : State) (b : Barrel) (k v : Nat) : (s.parkAdvance b k v).reqs = s.reqs := rfl
@[simp] theorem State.parkAdvance_bankQ (s : State) (b : Barrel) (k v : Nat) : (s.parkAdvance b k v).bankQ = s.bankQ := rfl
@[simp] theorem State.parkAdvance_msgs (s : State) (b : Barrel) (k v : Nat) : (s.parkAdvance b k v).msgs = s.msgs := rfl
@[simp] theorem State.parkAdvance_noents (s : State) (b : Barrel) (k v : Nat) : (s.parkAdvance b k v).noents = s.noents := rfl
@[simp] theorem State.parkAdvance_nacks (s : State) (b : Barrel) (k v : Nat) : (s.parkAdvance b k v).nacks = s.nacks := rfl
@[simp] theorem State.parkAdvance_joins (s : State) (b : Barrel) (k v : Nat) : (s.parkAdvance b k v).joins = s.joins := rfl
@[simp] theorem State.parkAdvance_overruns (s : State) (b : Barrel) (k v : Nat) : (s.parkAdvance b k v).overruns = s.overruns := rfl
@[simp] theorem State.parkAdvance_skips (s : State) (b : Barrel) (k v : Nat) : (s.parkAdvance b k v).skips = s.skips := rfl
@[simp] theorem State.parkAdvance_gangOut (s : State) (b : Barrel) (k v : Nat) : (s.parkAdvance b k v).gangOut = s.gangOut := rfl
@[simp] theorem State.parkAdvance_wakes (s : State) (b : Barrel) (k v : Nat) : (s.parkAdvance b k v).wakes = s.wakes := rfl
@[simp] theorem State.parkAdvance_claims (s : State) (b : Barrel) (k v : Nat) : (s.parkAdvance b k v).claims = s.claims := rfl
@[simp] theorem State.parkAdvance_claimsLost (s : State) (b : Barrel) (k v : Nat) : (s.parkAdvance b k v).claimsLost = s.claimsLost := rfl
@[simp] theorem State.parkAdvance_transfers (s : State) (b : Barrel) (k v : Nat) : (s.parkAdvance b k v).transfers = s.transfers := rfl
@[simp] theorem State.parkAdvance_chunks (s : State) (b : Barrel) (k v : Nat) : (s.parkAdvance b k v).chunks = s.chunks := rfl
@[simp] theorem State.parkAdvance_steals (s : State) (b : Barrel) (k v : Nat) : (s.parkAdvance b k v).steals = s.steals := rfl
@[simp] theorem State.parkAdvance_kills (s : State) (b : Barrel) (k v : Nat) : (s.parkAdvance b k v).kills = s.kills := rfl
@[simp] theorem State.parkAdvance_resumes (s : State) (b : Barrel) (k v : Nat) : (s.parkAdvance b k v).resumes = s.resumes := rfl
@[simp] theorem State.parkAdvance_timers (s : State) (b : Barrel) (k v : Nat) : (s.parkAdvance b k v).timers = s.timers := rfl
@[simp] theorem State.parkAdvance_invs (s : State) (b : Barrel) (k v : Nat) : (s.parkAdvance b k v).invs = s.invs := rfl
@[simp] theorem State.parkAdvance_fences (s : State) (b : Barrel) (k v : Nat) : (s.parkAdvance b k v).fences = s.fences := rfl
@[simp] theorem State.parkAdvance_plbFills (s : State) (b : Barrel) (k v : Nat) : (s.parkAdvance b k v).plbFills = s.plbFills := rfl
@[simp] theorem State.parkAdvance_migrations (s : State) (b : Barrel) (k v : Nat) : (s.parkAdvance b k v).migrations = s.migrations := rfl
@[simp] theorem State.parkAdvance_jobReqs (s : State) (b : Barrel) (k v : Nat) : (s.parkAdvance b k v).jobReqs = s.jobReqs := rfl
@[simp] theorem State.parkAdvance_tileArrivals (s : State) (b : Barrel) (k v : Nat) : (s.parkAdvance b k v).tileArrivals = s.tileArrivals := rfl
@[simp] theorem State.parkAdvance_mxArrivals (s : State) (b : Barrel) (k v : Nat) : (s.parkAdvance b k v).mxArrivals = s.mxArrivals := rfl
@[simp] theorem State.parkAdvance_mxRetries (s : State) (b : Barrel) (k v : Nat) : (s.parkAdvance b k v).mxRetries = s.mxRetries := rfl
@[simp] theorem State.parkAdvance_discards (s : State) (b : Barrel) (k v : Nat) : (s.parkAdvance b k v).discards = s.discards := rfl
@[simp] theorem State.parkAdvance_faultQ (s : State) (b : Barrel) (k v : Nat) : (s.parkAdvance b k v).faultQ = s.faultQ := rfl
@[simp] theorem State.parkAdvance_elogQ (s : State) (b : Barrel) (k v : Nat) : (s.parkAdvance b k v).elogQ = s.elogQ := rfl
@[simp] theorem State.parkAdvance_handlerWakes (s : State) (b : Barrel) (k v : Nat) : (s.parkAdvance b k v).handlerWakes = s.handlerWakes := rfl
@[simp] theorem State.parkAdvance_outReqs (s : State) (b : Barrel) (k v : Nat) : (s.parkAdvance b k v).outReqs = s.outReqs := rfl
@[simp] theorem State.parkAdvance_outers (s : State) (b : Barrel) (k v : Nat) : (s.parkAdvance b k v).outers = s.outers := rfl
@[simp] theorem State.parkAdvance_inflow (s : State) (b : Barrel) (k v : Nat) : (s.parkAdvance b k v).inflow = s.inflow := rfl
@[simp] theorem State.parkAdvance_outbox (s : State) (b : Barrel) (k v : Nat) : (s.parkAdvance b k v).outbox = s.outbox := rfl
@[simp] theorem State.parkAdvance_quarantine (s : State) (b : Barrel) (k v : Nat) : (s.parkAdvance b k v).quarantine = s.quarantine := rfl
@[simp] theorem State.parkAdvance_regs (s : State) (b : Barrel) (k v : Nat) : (s.parkAdvance b k v).regs = s.regs := rfl
@[simp] theorem State.parkAdvance_mortar (s : State) (b : Barrel) (k v : Nat) : (s.parkAdvance b k v).mortar = s.mortar := rfl
@[simp] theorem State.parkAdvance_att (s : State) (b : Barrel) (k v : Nat) : (s.parkAdvance b k v).att = s.att := rfl
@[simp] theorem State.parkAdvance_boot (s : State) (b : Barrel) (k v : Nat) : (s.parkAdvance b k v).boot = s.boot := rfl

/-! ## State.takeFault -/

@[simp] theorem State.takeFault_mem (s : State) (b : Barrel) (l : Line) (c : FaultCode) (k : AccessKind) (x : BitVec 32) (a : Nat) : (s.takeFault b l c k x a).mem = s.mem := rfl
@[simp] theorem State.takeFault_full (s : State) (b : Barrel) (l : Line) (c : FaultCode) (k : AccessKind) (x : BitVec 32) (a : Nat) : (s.takeFault b l c k x a).full = s.full := rfl
@[simp] theorem State.takeFault_poison (s : State) (b : Barrel) (l : Line) (c : FaultCode) (k : AccessKind) (x : BitVec 32) (a : Nat) : (s.takeFault b l c k x a).poison = s.poison := rfl
@[simp] theorem State.takeFault_badCopies (s : State) (b : Barrel) (l : Line) (c : FaultCode) (k : AccessKind) (x : BitVec 32) (a : Nat) : (s.takeFault b l c k x a).badCopies = s.badCopies := rfl
@[simp] theorem State.takeFault_badCtxs (s : State) (b : Barrel) (l : Line) (c : FaultCode) (k : AccessKind) (x : BitVec 32) (a : Nat) : (s.takeFault b l c k x a).badCtxs = s.badCtxs := rfl
@[simp] theorem State.takeFault_cycle (s : State) (b : Barrel) (l : Line) (c : FaultCode) (k : AccessKind) (x : BitVec 32) (a : Nat) : (s.takeFault b l c k x a).cycle = s.cycle := rfl
@[simp] theorem State.takeFault_draws (s : State) (b : Barrel) (l : Line) (c : FaultCode) (k : AccessKind) (x : BitVec 32) (a : Nat) : (s.takeFault b l c k x a).draws = s.draws := rfl
@[simp] theorem State.takeFault_latch (s : State) (b : Barrel) (l : Line) (c : FaultCode) (k : AccessKind) (x : BitVec 32) (a : Nat) : (s.takeFault b l c k x a).latch = s.latch := rfl
@[simp] theorem State.takeFault_agenda (s : State) (b : Barrel) (l : Line) (c : FaultCode) (k : AccessKind) (x : BitVec 32) (a : Nat) : (s.takeFault b l c k x a).agenda = s.agenda := rfl
@[simp] theorem State.takeFault_cores (s : State) (b : Barrel) (l : Line) (c : FaultCode) (k : AccessKind) (x : BitVec 32) (a : Nat) : (s.takeFault b l c k x a).cores = s.cores := rfl
@[simp] theorem State.takeFault_clusters (s : State) (b : Barrel) (l : Line) (c : FaultCode) (k : AccessKind) (x : BitVec 32) (a : Nat) : (s.takeFault b l c k x a).clusters = s.clusters := rfl
@[simp] theorem State.takeFault_bricks (s : State) (b : Barrel) (l : Line) (c : FaultCode) (k : AccessKind) (x : BitVec 32) (a : Nat) : (s.takeFault b l c k x a).bricks = s.bricks := rfl
@[simp] theorem State.takeFault_l2 (s : State) (b : Barrel) (l : Line) (c : FaultCode) (k : AccessKind) (x : BitVec 32) (a : Nat) : (s.takeFault b l c k x a).l2 = s.l2 := rfl
@[simp] theorem State.takeFault_dir (s : State) (b : Barrel) (l : Line) (c : FaultCode) (k : AccessKind) (x : BitVec 32) (a : Nat) : (s.takeFault b l c k x a).dir = s.dir := rfl
@[simp] theorem State.takeFault_dca (s : State) (b : Barrel) (l : Line) (c : FaultCode) (k : AccessKind) (x : BitVec 32) (a : Nat) : (s.takeFault b l c k x a).dca = s.dca := rfl
@[simp] theorem State.takeFault_dcaOwn (s : State) (b : Barrel) (l : Line) (c : FaultCode) (k : AccessKind) (x : BitVec 32) (a : Nat) : (s.takeFault b l c k x a).dcaOwn = s.dcaOwn := rfl
@[simp] theorem State.takeFault_snoops (s : State) (b : Barrel) (l : Line) (c : FaultCode) (k : AccessKind) (x : BitVec 32) (a : Nat) : (s.takeFault b l c k x a).snoops = s.snoops := rfl
@[simp] theorem State.takeFault_combine (s : State) (b : Barrel) (l : Line) (c : FaultCode) (k : AccessKind) (x : BitVec 32) (a : Nat) : (s.takeFault b l c k x a).combine = s.combine := rfl
@[simp] theorem State.takeFault_tileSubs (s : State) (b : Barrel) (l : Line) (c : FaultCode) (k : AccessKind) (x : BitVec 32) (a : Nat) : (s.takeFault b l c k x a).tileSubs = s.tileSubs := rfl
@[simp] theorem State.takeFault_reqs (s : State) (b : Barrel) (l : Line) (c : FaultCode) (k : AccessKind) (x : BitVec 32) (a : Nat) : (s.takeFault b l c k x a).reqs = s.reqs := rfl
@[simp] theorem State.takeFault_bankQ (s : State) (b : Barrel) (l : Line) (c : FaultCode) (k : AccessKind) (x : BitVec 32) (a : Nat) : (s.takeFault b l c k x a).bankQ = s.bankQ := rfl
@[simp] theorem State.takeFault_msgs (s : State) (b : Barrel) (l : Line) (c : FaultCode) (k : AccessKind) (x : BitVec 32) (a : Nat) : (s.takeFault b l c k x a).msgs = s.msgs := rfl
@[simp] theorem State.takeFault_noents (s : State) (b : Barrel) (l : Line) (c : FaultCode) (k : AccessKind) (x : BitVec 32) (a : Nat) : (s.takeFault b l c k x a).noents = s.noents := rfl
@[simp] theorem State.takeFault_nacks (s : State) (b : Barrel) (l : Line) (c : FaultCode) (k : AccessKind) (x : BitVec 32) (a : Nat) : (s.takeFault b l c k x a).nacks = s.nacks := rfl
@[simp] theorem State.takeFault_joins (s : State) (b : Barrel) (l : Line) (c : FaultCode) (k : AccessKind) (x : BitVec 32) (a : Nat) : (s.takeFault b l c k x a).joins = s.joins := rfl
@[simp] theorem State.takeFault_overruns (s : State) (b : Barrel) (l : Line) (c : FaultCode) (k : AccessKind) (x : BitVec 32) (a : Nat) : (s.takeFault b l c k x a).overruns = s.overruns := rfl
@[simp] theorem State.takeFault_skips (s : State) (b : Barrel) (l : Line) (c : FaultCode) (k : AccessKind) (x : BitVec 32) (a : Nat) : (s.takeFault b l c k x a).skips = s.skips := rfl
@[simp] theorem State.takeFault_gangOut (s : State) (b : Barrel) (l : Line) (c : FaultCode) (k : AccessKind) (x : BitVec 32) (a : Nat) : (s.takeFault b l c k x a).gangOut = s.gangOut := rfl
@[simp] theorem State.takeFault_wakes (s : State) (b : Barrel) (l : Line) (c : FaultCode) (k : AccessKind) (x : BitVec 32) (a : Nat) : (s.takeFault b l c k x a).wakes = s.wakes := rfl
@[simp] theorem State.takeFault_claims (s : State) (b : Barrel) (l : Line) (c : FaultCode) (k : AccessKind) (x : BitVec 32) (a : Nat) : (s.takeFault b l c k x a).claims = s.claims := rfl
@[simp] theorem State.takeFault_claimsLost (s : State) (b : Barrel) (l : Line) (c : FaultCode) (k : AccessKind) (x : BitVec 32) (a : Nat) : (s.takeFault b l c k x a).claimsLost = s.claimsLost := rfl
@[simp] theorem State.takeFault_transfers (s : State) (b : Barrel) (l : Line) (c : FaultCode) (k : AccessKind) (x : BitVec 32) (a : Nat) : (s.takeFault b l c k x a).transfers = s.transfers := rfl
@[simp] theorem State.takeFault_chunks (s : State) (b : Barrel) (l : Line) (c : FaultCode) (k : AccessKind) (x : BitVec 32) (a : Nat) : (s.takeFault b l c k x a).chunks = s.chunks := rfl
@[simp] theorem State.takeFault_steals (s : State) (b : Barrel) (l : Line) (c : FaultCode) (k : AccessKind) (x : BitVec 32) (a : Nat) : (s.takeFault b l c k x a).steals = s.steals := rfl
@[simp] theorem State.takeFault_kills (s : State) (b : Barrel) (l : Line) (c : FaultCode) (k : AccessKind) (x : BitVec 32) (a : Nat) : (s.takeFault b l c k x a).kills = s.kills := rfl
@[simp] theorem State.takeFault_resumes (s : State) (b : Barrel) (l : Line) (c : FaultCode) (k : AccessKind) (x : BitVec 32) (a : Nat) : (s.takeFault b l c k x a).resumes = s.resumes := rfl
@[simp] theorem State.takeFault_timers (s : State) (b : Barrel) (l : Line) (c : FaultCode) (k : AccessKind) (x : BitVec 32) (a : Nat) : (s.takeFault b l c k x a).timers = s.timers := rfl
@[simp] theorem State.takeFault_invs (s : State) (b : Barrel) (l : Line) (c : FaultCode) (k : AccessKind) (x : BitVec 32) (a : Nat) : (s.takeFault b l c k x a).invs = s.invs := rfl
@[simp] theorem State.takeFault_fences (s : State) (b : Barrel) (l : Line) (c : FaultCode) (k : AccessKind) (x : BitVec 32) (a : Nat) : (s.takeFault b l c k x a).fences = s.fences := rfl
@[simp] theorem State.takeFault_plbFills (s : State) (b : Barrel) (l : Line) (c : FaultCode) (k : AccessKind) (x : BitVec 32) (a : Nat) : (s.takeFault b l c k x a).plbFills = s.plbFills := rfl
@[simp] theorem State.takeFault_migrations (s : State) (b : Barrel) (l : Line) (c : FaultCode) (k : AccessKind) (x : BitVec 32) (a : Nat) : (s.takeFault b l c k x a).migrations = s.migrations := rfl
@[simp] theorem State.takeFault_jobReqs (s : State) (b : Barrel) (l : Line) (c : FaultCode) (k : AccessKind) (x : BitVec 32) (a : Nat) : (s.takeFault b l c k x a).jobReqs = s.jobReqs := rfl
@[simp] theorem State.takeFault_tileArrivals (s : State) (b : Barrel) (l : Line) (c : FaultCode) (k : AccessKind) (x : BitVec 32) (a : Nat) : (s.takeFault b l c k x a).tileArrivals = s.tileArrivals := rfl
@[simp] theorem State.takeFault_mxArrivals (s : State) (b : Barrel) (l : Line) (c : FaultCode) (k : AccessKind) (x : BitVec 32) (a : Nat) : (s.takeFault b l c k x a).mxArrivals = s.mxArrivals := rfl
@[simp] theorem State.takeFault_mxRetries (s : State) (b : Barrel) (l : Line) (c : FaultCode) (k : AccessKind) (x : BitVec 32) (a : Nat) : (s.takeFault b l c k x a).mxRetries = s.mxRetries := rfl
@[simp] theorem State.takeFault_discards (s : State) (b : Barrel) (l : Line) (c : FaultCode) (k : AccessKind) (x : BitVec 32) (a : Nat) : (s.takeFault b l c k x a).discards = s.discards := rfl
@[simp] theorem State.takeFault_faultQ (s : State) (b : Barrel) (l : Line) (c : FaultCode) (k : AccessKind) (x : BitVec 32) (a : Nat) : (s.takeFault b l c k x a).faultQ = s.faultQ := rfl
@[simp] theorem State.takeFault_elogQ (s : State) (b : Barrel) (l : Line) (c : FaultCode) (k : AccessKind) (x : BitVec 32) (a : Nat) : (s.takeFault b l c k x a).elogQ = s.elogQ := rfl
@[simp] theorem State.takeFault_handlerWakes (s : State) (b : Barrel) (l : Line) (c : FaultCode) (k : AccessKind) (x : BitVec 32) (a : Nat) : (s.takeFault b l c k x a).handlerWakes = s.handlerWakes := rfl
@[simp] theorem State.takeFault_outReqs (s : State) (b : Barrel) (l : Line) (c : FaultCode) (k : AccessKind) (x : BitVec 32) (a : Nat) : (s.takeFault b l c k x a).outReqs = s.outReqs := rfl
@[simp] theorem State.takeFault_outers (s : State) (b : Barrel) (l : Line) (c : FaultCode) (k : AccessKind) (x : BitVec 32) (a : Nat) : (s.takeFault b l c k x a).outers = s.outers := rfl
@[simp] theorem State.takeFault_inflow (s : State) (b : Barrel) (l : Line) (c : FaultCode) (k : AccessKind) (x : BitVec 32) (a : Nat) : (s.takeFault b l c k x a).inflow = s.inflow := rfl
@[simp] theorem State.takeFault_outbox (s : State) (b : Barrel) (l : Line) (c : FaultCode) (k : AccessKind) (x : BitVec 32) (a : Nat) : (s.takeFault b l c k x a).outbox = s.outbox := rfl
@[simp] theorem State.takeFault_quarantine (s : State) (b : Barrel) (l : Line) (c : FaultCode) (k : AccessKind) (x : BitVec 32) (a : Nat) : (s.takeFault b l c k x a).quarantine = s.quarantine := rfl
@[simp] theorem State.takeFault_regs (s : State) (b : Barrel) (l : Line) (c : FaultCode) (k : AccessKind) (x : BitVec 32) (a : Nat) : (s.takeFault b l c k x a).regs = s.regs := rfl
@[simp] theorem State.takeFault_mortar (s : State) (b : Barrel) (l : Line) (c : FaultCode) (k : AccessKind) (x : BitVec 32) (a : Nat) : (s.takeFault b l c k x a).mortar = s.mortar := rfl
@[simp] theorem State.takeFault_att (s : State) (b : Barrel) (l : Line) (c : FaultCode) (k : AccessKind) (x : BitVec 32) (a : Nat) : (s.takeFault b l c k x a).att = s.att := rfl
@[simp] theorem State.takeFault_boot (s : State) (b : Barrel) (l : Line) (c : FaultCode) (k : AccessKind) (x : BitVec 32) (a : Nat) : (s.takeFault b l c k x a).boot = s.boot := rfl

/-! ## State.fault -/

@[simp] theorem State.fault_mem (s : State) (b : Barrel) (c : FaultCode) (k : AccessKind) (a : Nat) : (s.fault b c k a).mem = s.mem := rfl
@[simp] theorem State.fault_full (s : State) (b : Barrel) (c : FaultCode) (k : AccessKind) (a : Nat) : (s.fault b c k a).full = s.full := rfl
@[simp] theorem State.fault_poison (s : State) (b : Barrel) (c : FaultCode) (k : AccessKind) (a : Nat) : (s.fault b c k a).poison = s.poison := rfl
@[simp] theorem State.fault_badCopies (s : State) (b : Barrel) (c : FaultCode) (k : AccessKind) (a : Nat) : (s.fault b c k a).badCopies = s.badCopies := rfl
@[simp] theorem State.fault_badCtxs (s : State) (b : Barrel) (c : FaultCode) (k : AccessKind) (a : Nat) : (s.fault b c k a).badCtxs = s.badCtxs := rfl
@[simp] theorem State.fault_cycle (s : State) (b : Barrel) (c : FaultCode) (k : AccessKind) (a : Nat) : (s.fault b c k a).cycle = s.cycle := rfl
@[simp] theorem State.fault_draws (s : State) (b : Barrel) (c : FaultCode) (k : AccessKind) (a : Nat) : (s.fault b c k a).draws = s.draws := rfl
@[simp] theorem State.fault_latch (s : State) (b : Barrel) (c : FaultCode) (k : AccessKind) (a : Nat) : (s.fault b c k a).latch = s.latch := rfl
@[simp] theorem State.fault_agenda (s : State) (b : Barrel) (c : FaultCode) (k : AccessKind) (a : Nat) : (s.fault b c k a).agenda = s.agenda := rfl
@[simp] theorem State.fault_cores (s : State) (b : Barrel) (c : FaultCode) (k : AccessKind) (a : Nat) : (s.fault b c k a).cores = s.cores := rfl
@[simp] theorem State.fault_clusters (s : State) (b : Barrel) (c : FaultCode) (k : AccessKind) (a : Nat) : (s.fault b c k a).clusters = s.clusters := rfl
@[simp] theorem State.fault_bricks (s : State) (b : Barrel) (c : FaultCode) (k : AccessKind) (a : Nat) : (s.fault b c k a).bricks = s.bricks := rfl
@[simp] theorem State.fault_l2 (s : State) (b : Barrel) (c : FaultCode) (k : AccessKind) (a : Nat) : (s.fault b c k a).l2 = s.l2 := rfl
@[simp] theorem State.fault_dir (s : State) (b : Barrel) (c : FaultCode) (k : AccessKind) (a : Nat) : (s.fault b c k a).dir = s.dir := rfl
@[simp] theorem State.fault_dca (s : State) (b : Barrel) (c : FaultCode) (k : AccessKind) (a : Nat) : (s.fault b c k a).dca = s.dca := rfl
@[simp] theorem State.fault_dcaOwn (s : State) (b : Barrel) (c : FaultCode) (k : AccessKind) (a : Nat) : (s.fault b c k a).dcaOwn = s.dcaOwn := rfl
@[simp] theorem State.fault_snoops (s : State) (b : Barrel) (c : FaultCode) (k : AccessKind) (a : Nat) : (s.fault b c k a).snoops = s.snoops := rfl
@[simp] theorem State.fault_combine (s : State) (b : Barrel) (c : FaultCode) (k : AccessKind) (a : Nat) : (s.fault b c k a).combine = s.combine := rfl
@[simp] theorem State.fault_tileSubs (s : State) (b : Barrel) (c : FaultCode) (k : AccessKind) (a : Nat) : (s.fault b c k a).tileSubs = s.tileSubs := rfl
@[simp] theorem State.fault_reqs (s : State) (b : Barrel) (c : FaultCode) (k : AccessKind) (a : Nat) : (s.fault b c k a).reqs = s.reqs := rfl
@[simp] theorem State.fault_bankQ (s : State) (b : Barrel) (c : FaultCode) (k : AccessKind) (a : Nat) : (s.fault b c k a).bankQ = s.bankQ := rfl
@[simp] theorem State.fault_msgs (s : State) (b : Barrel) (c : FaultCode) (k : AccessKind) (a : Nat) : (s.fault b c k a).msgs = s.msgs := rfl
@[simp] theorem State.fault_noents (s : State) (b : Barrel) (c : FaultCode) (k : AccessKind) (a : Nat) : (s.fault b c k a).noents = s.noents := rfl
@[simp] theorem State.fault_nacks (s : State) (b : Barrel) (c : FaultCode) (k : AccessKind) (a : Nat) : (s.fault b c k a).nacks = s.nacks := rfl
@[simp] theorem State.fault_joins (s : State) (b : Barrel) (c : FaultCode) (k : AccessKind) (a : Nat) : (s.fault b c k a).joins = s.joins := rfl
@[simp] theorem State.fault_overruns (s : State) (b : Barrel) (c : FaultCode) (k : AccessKind) (a : Nat) : (s.fault b c k a).overruns = s.overruns := rfl
@[simp] theorem State.fault_skips (s : State) (b : Barrel) (c : FaultCode) (k : AccessKind) (a : Nat) : (s.fault b c k a).skips = s.skips := rfl
@[simp] theorem State.fault_gangOut (s : State) (b : Barrel) (c : FaultCode) (k : AccessKind) (a : Nat) : (s.fault b c k a).gangOut = s.gangOut := rfl
@[simp] theorem State.fault_wakes (s : State) (b : Barrel) (c : FaultCode) (k : AccessKind) (a : Nat) : (s.fault b c k a).wakes = s.wakes := rfl
@[simp] theorem State.fault_claims (s : State) (b : Barrel) (c : FaultCode) (k : AccessKind) (a : Nat) : (s.fault b c k a).claims = s.claims := rfl
@[simp] theorem State.fault_claimsLost (s : State) (b : Barrel) (c : FaultCode) (k : AccessKind) (a : Nat) : (s.fault b c k a).claimsLost = s.claimsLost := rfl
@[simp] theorem State.fault_transfers (s : State) (b : Barrel) (c : FaultCode) (k : AccessKind) (a : Nat) : (s.fault b c k a).transfers = s.transfers := rfl
@[simp] theorem State.fault_chunks (s : State) (b : Barrel) (c : FaultCode) (k : AccessKind) (a : Nat) : (s.fault b c k a).chunks = s.chunks := rfl
@[simp] theorem State.fault_steals (s : State) (b : Barrel) (c : FaultCode) (k : AccessKind) (a : Nat) : (s.fault b c k a).steals = s.steals := rfl
@[simp] theorem State.fault_kills (s : State) (b : Barrel) (c : FaultCode) (k : AccessKind) (a : Nat) : (s.fault b c k a).kills = s.kills := rfl
@[simp] theorem State.fault_resumes (s : State) (b : Barrel) (c : FaultCode) (k : AccessKind) (a : Nat) : (s.fault b c k a).resumes = s.resumes := rfl
@[simp] theorem State.fault_timers (s : State) (b : Barrel) (c : FaultCode) (k : AccessKind) (a : Nat) : (s.fault b c k a).timers = s.timers := rfl
@[simp] theorem State.fault_invs (s : State) (b : Barrel) (c : FaultCode) (k : AccessKind) (a : Nat) : (s.fault b c k a).invs = s.invs := rfl
@[simp] theorem State.fault_fences (s : State) (b : Barrel) (c : FaultCode) (k : AccessKind) (a : Nat) : (s.fault b c k a).fences = s.fences := rfl
@[simp] theorem State.fault_plbFills (s : State) (b : Barrel) (c : FaultCode) (k : AccessKind) (a : Nat) : (s.fault b c k a).plbFills = s.plbFills := rfl
@[simp] theorem State.fault_migrations (s : State) (b : Barrel) (c : FaultCode) (k : AccessKind) (a : Nat) : (s.fault b c k a).migrations = s.migrations := rfl
@[simp] theorem State.fault_jobReqs (s : State) (b : Barrel) (c : FaultCode) (k : AccessKind) (a : Nat) : (s.fault b c k a).jobReqs = s.jobReqs := rfl
@[simp] theorem State.fault_tileArrivals (s : State) (b : Barrel) (c : FaultCode) (k : AccessKind) (a : Nat) : (s.fault b c k a).tileArrivals = s.tileArrivals := rfl
@[simp] theorem State.fault_mxArrivals (s : State) (b : Barrel) (c : FaultCode) (k : AccessKind) (a : Nat) : (s.fault b c k a).mxArrivals = s.mxArrivals := rfl
@[simp] theorem State.fault_mxRetries (s : State) (b : Barrel) (c : FaultCode) (k : AccessKind) (a : Nat) : (s.fault b c k a).mxRetries = s.mxRetries := rfl
@[simp] theorem State.fault_discards (s : State) (b : Barrel) (c : FaultCode) (k : AccessKind) (a : Nat) : (s.fault b c k a).discards = s.discards := rfl
@[simp] theorem State.fault_faultQ (s : State) (b : Barrel) (c : FaultCode) (k : AccessKind) (a : Nat) : (s.fault b c k a).faultQ = s.faultQ := rfl
@[simp] theorem State.fault_elogQ (s : State) (b : Barrel) (c : FaultCode) (k : AccessKind) (a : Nat) : (s.fault b c k a).elogQ = s.elogQ := rfl
@[simp] theorem State.fault_handlerWakes (s : State) (b : Barrel) (c : FaultCode) (k : AccessKind) (a : Nat) : (s.fault b c k a).handlerWakes = s.handlerWakes := rfl
@[simp] theorem State.fault_outReqs (s : State) (b : Barrel) (c : FaultCode) (k : AccessKind) (a : Nat) : (s.fault b c k a).outReqs = s.outReqs := rfl
@[simp] theorem State.fault_outers (s : State) (b : Barrel) (c : FaultCode) (k : AccessKind) (a : Nat) : (s.fault b c k a).outers = s.outers := rfl
@[simp] theorem State.fault_inflow (s : State) (b : Barrel) (c : FaultCode) (k : AccessKind) (a : Nat) : (s.fault b c k a).inflow = s.inflow := rfl
@[simp] theorem State.fault_outbox (s : State) (b : Barrel) (c : FaultCode) (k : AccessKind) (a : Nat) : (s.fault b c k a).outbox = s.outbox := rfl
@[simp] theorem State.fault_quarantine (s : State) (b : Barrel) (c : FaultCode) (k : AccessKind) (a : Nat) : (s.fault b c k a).quarantine = s.quarantine := rfl
@[simp] theorem State.fault_regs (s : State) (b : Barrel) (c : FaultCode) (k : AccessKind) (a : Nat) : (s.fault b c k a).regs = s.regs := rfl
@[simp] theorem State.fault_mortar (s : State) (b : Barrel) (c : FaultCode) (k : AccessKind) (a : Nat) : (s.fault b c k a).mortar = s.mortar := rfl
@[simp] theorem State.fault_att (s : State) (b : Barrel) (c : FaultCode) (k : AccessKind) (a : Nat) : (s.fault b c k a).att = s.att := rfl
@[simp] theorem State.fault_boot (s : State) (b : Barrel) (c : FaultCode) (k : AccessKind) (a : Nat) : (s.fault b c k a).boot = s.boot := rfl

/-! ## State.illegal -/

@[simp] theorem State.illegal_mem (s : State) (b : Barrel) : (s.illegal b).mem = s.mem := rfl
@[simp] theorem State.illegal_full (s : State) (b : Barrel) : (s.illegal b).full = s.full := rfl
@[simp] theorem State.illegal_poison (s : State) (b : Barrel) : (s.illegal b).poison = s.poison := rfl
@[simp] theorem State.illegal_badCopies (s : State) (b : Barrel) : (s.illegal b).badCopies = s.badCopies := rfl
@[simp] theorem State.illegal_badCtxs (s : State) (b : Barrel) : (s.illegal b).badCtxs = s.badCtxs := rfl
@[simp] theorem State.illegal_cycle (s : State) (b : Barrel) : (s.illegal b).cycle = s.cycle := rfl
@[simp] theorem State.illegal_draws (s : State) (b : Barrel) : (s.illegal b).draws = s.draws := rfl
@[simp] theorem State.illegal_latch (s : State) (b : Barrel) : (s.illegal b).latch = s.latch := rfl
@[simp] theorem State.illegal_agenda (s : State) (b : Barrel) : (s.illegal b).agenda = s.agenda := rfl
@[simp] theorem State.illegal_cores (s : State) (b : Barrel) : (s.illegal b).cores = s.cores := rfl
@[simp] theorem State.illegal_clusters (s : State) (b : Barrel) : (s.illegal b).clusters = s.clusters := rfl
@[simp] theorem State.illegal_bricks (s : State) (b : Barrel) : (s.illegal b).bricks = s.bricks := rfl
@[simp] theorem State.illegal_l2 (s : State) (b : Barrel) : (s.illegal b).l2 = s.l2 := rfl
@[simp] theorem State.illegal_dir (s : State) (b : Barrel) : (s.illegal b).dir = s.dir := rfl
@[simp] theorem State.illegal_dca (s : State) (b : Barrel) : (s.illegal b).dca = s.dca := rfl
@[simp] theorem State.illegal_dcaOwn (s : State) (b : Barrel) : (s.illegal b).dcaOwn = s.dcaOwn := rfl
@[simp] theorem State.illegal_snoops (s : State) (b : Barrel) : (s.illegal b).snoops = s.snoops := rfl
@[simp] theorem State.illegal_combine (s : State) (b : Barrel) : (s.illegal b).combine = s.combine := rfl
@[simp] theorem State.illegal_tileSubs (s : State) (b : Barrel) : (s.illegal b).tileSubs = s.tileSubs := rfl
@[simp] theorem State.illegal_reqs (s : State) (b : Barrel) : (s.illegal b).reqs = s.reqs := rfl
@[simp] theorem State.illegal_bankQ (s : State) (b : Barrel) : (s.illegal b).bankQ = s.bankQ := rfl
@[simp] theorem State.illegal_msgs (s : State) (b : Barrel) : (s.illegal b).msgs = s.msgs := rfl
@[simp] theorem State.illegal_noents (s : State) (b : Barrel) : (s.illegal b).noents = s.noents := rfl
@[simp] theorem State.illegal_nacks (s : State) (b : Barrel) : (s.illegal b).nacks = s.nacks := rfl
@[simp] theorem State.illegal_joins (s : State) (b : Barrel) : (s.illegal b).joins = s.joins := rfl
@[simp] theorem State.illegal_overruns (s : State) (b : Barrel) : (s.illegal b).overruns = s.overruns := rfl
@[simp] theorem State.illegal_skips (s : State) (b : Barrel) : (s.illegal b).skips = s.skips := rfl
@[simp] theorem State.illegal_gangOut (s : State) (b : Barrel) : (s.illegal b).gangOut = s.gangOut := rfl
@[simp] theorem State.illegal_wakes (s : State) (b : Barrel) : (s.illegal b).wakes = s.wakes := rfl
@[simp] theorem State.illegal_claims (s : State) (b : Barrel) : (s.illegal b).claims = s.claims := rfl
@[simp] theorem State.illegal_claimsLost (s : State) (b : Barrel) : (s.illegal b).claimsLost = s.claimsLost := rfl
@[simp] theorem State.illegal_transfers (s : State) (b : Barrel) : (s.illegal b).transfers = s.transfers := rfl
@[simp] theorem State.illegal_chunks (s : State) (b : Barrel) : (s.illegal b).chunks = s.chunks := rfl
@[simp] theorem State.illegal_steals (s : State) (b : Barrel) : (s.illegal b).steals = s.steals := rfl
@[simp] theorem State.illegal_kills (s : State) (b : Barrel) : (s.illegal b).kills = s.kills := rfl
@[simp] theorem State.illegal_resumes (s : State) (b : Barrel) : (s.illegal b).resumes = s.resumes := rfl
@[simp] theorem State.illegal_timers (s : State) (b : Barrel) : (s.illegal b).timers = s.timers := rfl
@[simp] theorem State.illegal_invs (s : State) (b : Barrel) : (s.illegal b).invs = s.invs := rfl
@[simp] theorem State.illegal_fences (s : State) (b : Barrel) : (s.illegal b).fences = s.fences := rfl
@[simp] theorem State.illegal_plbFills (s : State) (b : Barrel) : (s.illegal b).plbFills = s.plbFills := rfl
@[simp] theorem State.illegal_migrations (s : State) (b : Barrel) : (s.illegal b).migrations = s.migrations := rfl
@[simp] theorem State.illegal_jobReqs (s : State) (b : Barrel) : (s.illegal b).jobReqs = s.jobReqs := rfl
@[simp] theorem State.illegal_tileArrivals (s : State) (b : Barrel) : (s.illegal b).tileArrivals = s.tileArrivals := rfl
@[simp] theorem State.illegal_mxArrivals (s : State) (b : Barrel) : (s.illegal b).mxArrivals = s.mxArrivals := rfl
@[simp] theorem State.illegal_mxRetries (s : State) (b : Barrel) : (s.illegal b).mxRetries = s.mxRetries := rfl
@[simp] theorem State.illegal_discards (s : State) (b : Barrel) : (s.illegal b).discards = s.discards := rfl
@[simp] theorem State.illegal_faultQ (s : State) (b : Barrel) : (s.illegal b).faultQ = s.faultQ := rfl
@[simp] theorem State.illegal_elogQ (s : State) (b : Barrel) : (s.illegal b).elogQ = s.elogQ := rfl
@[simp] theorem State.illegal_handlerWakes (s : State) (b : Barrel) : (s.illegal b).handlerWakes = s.handlerWakes := rfl
@[simp] theorem State.illegal_outReqs (s : State) (b : Barrel) : (s.illegal b).outReqs = s.outReqs := rfl
@[simp] theorem State.illegal_outers (s : State) (b : Barrel) : (s.illegal b).outers = s.outers := rfl
@[simp] theorem State.illegal_inflow (s : State) (b : Barrel) : (s.illegal b).inflow = s.inflow := rfl
@[simp] theorem State.illegal_outbox (s : State) (b : Barrel) : (s.illegal b).outbox = s.outbox := rfl
@[simp] theorem State.illegal_quarantine (s : State) (b : Barrel) : (s.illegal b).quarantine = s.quarantine := rfl
@[simp] theorem State.illegal_regs (s : State) (b : Barrel) : (s.illegal b).regs = s.regs := rfl
@[simp] theorem State.illegal_mortar (s : State) (b : Barrel) : (s.illegal b).mortar = s.mortar := rfl
@[simp] theorem State.illegal_att (s : State) (b : Barrel) : (s.illegal b).att = s.att := rfl
@[simp] theorem State.illegal_boot (s : State) (b : Barrel) : (s.illegal b).boot = s.boot := rfl

/-! ## State.setCore -/

@[simp] theorem State.setCore_mem (s : State) (c : Nat) (x : CoreState) : (s.setCore c x).mem = s.mem := rfl
@[simp] theorem State.setCore_full (s : State) (c : Nat) (x : CoreState) : (s.setCore c x).full = s.full := rfl
@[simp] theorem State.setCore_poison (s : State) (c : Nat) (x : CoreState) : (s.setCore c x).poison = s.poison := rfl
@[simp] theorem State.setCore_badCopies (s : State) (c : Nat) (x : CoreState) : (s.setCore c x).badCopies = s.badCopies := rfl
@[simp] theorem State.setCore_badCtxs (s : State) (c : Nat) (x : CoreState) : (s.setCore c x).badCtxs = s.badCtxs := rfl
@[simp] theorem State.setCore_cycle (s : State) (c : Nat) (x : CoreState) : (s.setCore c x).cycle = s.cycle := rfl
@[simp] theorem State.setCore_draws (s : State) (c : Nat) (x : CoreState) : (s.setCore c x).draws = s.draws := rfl
@[simp] theorem State.setCore_barrel (s : State) (c : Nat) (x : CoreState) : (s.setCore c x).barrel = s.barrel := rfl
@[simp] theorem State.setCore_latch (s : State) (c : Nat) (x : CoreState) : (s.setCore c x).latch = s.latch := rfl
@[simp] theorem State.setCore_agenda (s : State) (c : Nat) (x : CoreState) : (s.setCore c x).agenda = s.agenda := rfl
@[simp] theorem State.setCore_cores (s : State) (c : Nat) (x : CoreState) :
    (s.setCore c x).cores = Table.set s.cores c x := rfl
@[simp] theorem State.setCore_clusters (s : State) (c : Nat) (x : CoreState) : (s.setCore c x).clusters = s.clusters := rfl
@[simp] theorem State.setCore_bricks (s : State) (c : Nat) (x : CoreState) : (s.setCore c x).bricks = s.bricks := rfl
@[simp] theorem State.setCore_l2 (s : State) (c : Nat) (x : CoreState) : (s.setCore c x).l2 = s.l2 := rfl
@[simp] theorem State.setCore_dir (s : State) (c : Nat) (x : CoreState) : (s.setCore c x).dir = s.dir := rfl
@[simp] theorem State.setCore_dca (s : State) (c : Nat) (x : CoreState) : (s.setCore c x).dca = s.dca := rfl
@[simp] theorem State.setCore_dcaOwn (s : State) (c : Nat) (x : CoreState) : (s.setCore c x).dcaOwn = s.dcaOwn := rfl
@[simp] theorem State.setCore_snoops (s : State) (c : Nat) (x : CoreState) : (s.setCore c x).snoops = s.snoops := rfl
@[simp] theorem State.setCore_combine (s : State) (c : Nat) (x : CoreState) : (s.setCore c x).combine = s.combine := rfl
@[simp] theorem State.setCore_tileSubs (s : State) (c : Nat) (x : CoreState) : (s.setCore c x).tileSubs = s.tileSubs := rfl
@[simp] theorem State.setCore_reqs (s : State) (c : Nat) (x : CoreState) : (s.setCore c x).reqs = s.reqs := rfl
@[simp] theorem State.setCore_bankQ (s : State) (c : Nat) (x : CoreState) : (s.setCore c x).bankQ = s.bankQ := rfl
@[simp] theorem State.setCore_msgs (s : State) (c : Nat) (x : CoreState) : (s.setCore c x).msgs = s.msgs := rfl
@[simp] theorem State.setCore_noents (s : State) (c : Nat) (x : CoreState) : (s.setCore c x).noents = s.noents := rfl
@[simp] theorem State.setCore_nacks (s : State) (c : Nat) (x : CoreState) : (s.setCore c x).nacks = s.nacks := rfl
@[simp] theorem State.setCore_joins (s : State) (c : Nat) (x : CoreState) : (s.setCore c x).joins = s.joins := rfl
@[simp] theorem State.setCore_overruns (s : State) (c : Nat) (x : CoreState) : (s.setCore c x).overruns = s.overruns := rfl
@[simp] theorem State.setCore_skips (s : State) (c : Nat) (x : CoreState) : (s.setCore c x).skips = s.skips := rfl
@[simp] theorem State.setCore_gangOut (s : State) (c : Nat) (x : CoreState) : (s.setCore c x).gangOut = s.gangOut := rfl
@[simp] theorem State.setCore_wakes (s : State) (c : Nat) (x : CoreState) : (s.setCore c x).wakes = s.wakes := rfl
@[simp] theorem State.setCore_claims (s : State) (c : Nat) (x : CoreState) : (s.setCore c x).claims = s.claims := rfl
@[simp] theorem State.setCore_claimsLost (s : State) (c : Nat) (x : CoreState) : (s.setCore c x).claimsLost = s.claimsLost := rfl
@[simp] theorem State.setCore_transfers (s : State) (c : Nat) (x : CoreState) : (s.setCore c x).transfers = s.transfers := rfl
@[simp] theorem State.setCore_chunks (s : State) (c : Nat) (x : CoreState) : (s.setCore c x).chunks = s.chunks := rfl
@[simp] theorem State.setCore_steals (s : State) (c : Nat) (x : CoreState) : (s.setCore c x).steals = s.steals := rfl
@[simp] theorem State.setCore_kills (s : State) (c : Nat) (x : CoreState) : (s.setCore c x).kills = s.kills := rfl
@[simp] theorem State.setCore_resumes (s : State) (c : Nat) (x : CoreState) : (s.setCore c x).resumes = s.resumes := rfl
@[simp] theorem State.setCore_timers (s : State) (c : Nat) (x : CoreState) : (s.setCore c x).timers = s.timers := rfl
@[simp] theorem State.setCore_invs (s : State) (c : Nat) (x : CoreState) : (s.setCore c x).invs = s.invs := rfl
@[simp] theorem State.setCore_fences (s : State) (c : Nat) (x : CoreState) : (s.setCore c x).fences = s.fences := rfl
@[simp] theorem State.setCore_plbFills (s : State) (c : Nat) (x : CoreState) : (s.setCore c x).plbFills = s.plbFills := rfl
@[simp] theorem State.setCore_migrations (s : State) (c : Nat) (x : CoreState) : (s.setCore c x).migrations = s.migrations := rfl
@[simp] theorem State.setCore_jobReqs (s : State) (c : Nat) (x : CoreState) : (s.setCore c x).jobReqs = s.jobReqs := rfl
@[simp] theorem State.setCore_tileArrivals (s : State) (c : Nat) (x : CoreState) : (s.setCore c x).tileArrivals = s.tileArrivals := rfl
@[simp] theorem State.setCore_mxArrivals (s : State) (c : Nat) (x : CoreState) : (s.setCore c x).mxArrivals = s.mxArrivals := rfl
@[simp] theorem State.setCore_mxRetries (s : State) (c : Nat) (x : CoreState) : (s.setCore c x).mxRetries = s.mxRetries := rfl
@[simp] theorem State.setCore_discards (s : State) (c : Nat) (x : CoreState) : (s.setCore c x).discards = s.discards := rfl
@[simp] theorem State.setCore_faultQ (s : State) (c : Nat) (x : CoreState) : (s.setCore c x).faultQ = s.faultQ := rfl
@[simp] theorem State.setCore_elogQ (s : State) (c : Nat) (x : CoreState) : (s.setCore c x).elogQ = s.elogQ := rfl
@[simp] theorem State.setCore_handlerWakes (s : State) (c : Nat) (x : CoreState) : (s.setCore c x).handlerWakes = s.handlerWakes := rfl
@[simp] theorem State.setCore_outReqs (s : State) (c : Nat) (x : CoreState) : (s.setCore c x).outReqs = s.outReqs := rfl
@[simp] theorem State.setCore_outers (s : State) (c : Nat) (x : CoreState) : (s.setCore c x).outers = s.outers := rfl
@[simp] theorem State.setCore_inflow (s : State) (c : Nat) (x : CoreState) : (s.setCore c x).inflow = s.inflow := rfl
@[simp] theorem State.setCore_outbox (s : State) (c : Nat) (x : CoreState) : (s.setCore c x).outbox = s.outbox := rfl
@[simp] theorem State.setCore_quarantine (s : State) (c : Nat) (x : CoreState) : (s.setCore c x).quarantine = s.quarantine := rfl
@[simp] theorem State.setCore_regs (s : State) (c : Nat) (x : CoreState) : (s.setCore c x).regs = s.regs := rfl
@[simp] theorem State.setCore_mortar (s : State) (c : Nat) (x : CoreState) : (s.setCore c x).mortar = s.mortar := rfl
@[simp] theorem State.setCore_att (s : State) (c : Nat) (x : CoreState) : (s.setCore c x).att = s.att := rfl
@[simp] theorem State.setCore_boot (s : State) (c : Nat) (x : CoreState) : (s.setCore c x).boot = s.boot := rfl

/-! ## State.setCluster -/

@[simp] theorem State.setCluster_mem (s : State) (c : Nat) (x : ClusterState) : (s.setCluster c x).mem = s.mem := rfl
@[simp] theorem State.setCluster_full (s : State) (c : Nat) (x : ClusterState) : (s.setCluster c x).full = s.full := rfl
@[simp] theorem State.setCluster_poison (s : State) (c : Nat) (x : ClusterState) : (s.setCluster c x).poison = s.poison := rfl
@[simp] theorem State.setCluster_badCopies (s : State) (c : Nat) (x : ClusterState) : (s.setCluster c x).badCopies = s.badCopies := rfl
@[simp] theorem State.setCluster_badCtxs (s : State) (c : Nat) (x : ClusterState) : (s.setCluster c x).badCtxs = s.badCtxs := rfl
@[simp] theorem State.setCluster_cycle (s : State) (c : Nat) (x : ClusterState) : (s.setCluster c x).cycle = s.cycle := rfl
@[simp] theorem State.setCluster_draws (s : State) (c : Nat) (x : ClusterState) : (s.setCluster c x).draws = s.draws := rfl
@[simp] theorem State.setCluster_barrel (s : State) (c : Nat) (x : ClusterState) : (s.setCluster c x).barrel = s.barrel := rfl
@[simp] theorem State.setCluster_latch (s : State) (c : Nat) (x : ClusterState) : (s.setCluster c x).latch = s.latch := rfl
@[simp] theorem State.setCluster_agenda (s : State) (c : Nat) (x : ClusterState) : (s.setCluster c x).agenda = s.agenda := rfl
@[simp] theorem State.setCluster_cores (s : State) (c : Nat) (x : ClusterState) : (s.setCluster c x).cores = s.cores := rfl
@[simp] theorem State.setCluster_clusters (s : State) (c : Nat) (x : ClusterState) :
    (s.setCluster c x).clusters = Table.set s.clusters c x := rfl
@[simp] theorem State.setCluster_bricks (s : State) (c : Nat) (x : ClusterState) : (s.setCluster c x).bricks = s.bricks := rfl
@[simp] theorem State.setCluster_l2 (s : State) (c : Nat) (x : ClusterState) : (s.setCluster c x).l2 = s.l2 := rfl
@[simp] theorem State.setCluster_dir (s : State) (c : Nat) (x : ClusterState) : (s.setCluster c x).dir = s.dir := rfl
@[simp] theorem State.setCluster_dca (s : State) (c : Nat) (x : ClusterState) : (s.setCluster c x).dca = s.dca := rfl
@[simp] theorem State.setCluster_dcaOwn (s : State) (c : Nat) (x : ClusterState) : (s.setCluster c x).dcaOwn = s.dcaOwn := rfl
@[simp] theorem State.setCluster_snoops (s : State) (c : Nat) (x : ClusterState) : (s.setCluster c x).snoops = s.snoops := rfl
@[simp] theorem State.setCluster_combine (s : State) (c : Nat) (x : ClusterState) : (s.setCluster c x).combine = s.combine := rfl
@[simp] theorem State.setCluster_tileSubs (s : State) (c : Nat) (x : ClusterState) : (s.setCluster c x).tileSubs = s.tileSubs := rfl
@[simp] theorem State.setCluster_reqs (s : State) (c : Nat) (x : ClusterState) : (s.setCluster c x).reqs = s.reqs := rfl
@[simp] theorem State.setCluster_bankQ (s : State) (c : Nat) (x : ClusterState) : (s.setCluster c x).bankQ = s.bankQ := rfl
@[simp] theorem State.setCluster_msgs (s : State) (c : Nat) (x : ClusterState) : (s.setCluster c x).msgs = s.msgs := rfl
@[simp] theorem State.setCluster_noents (s : State) (c : Nat) (x : ClusterState) : (s.setCluster c x).noents = s.noents := rfl
@[simp] theorem State.setCluster_nacks (s : State) (c : Nat) (x : ClusterState) : (s.setCluster c x).nacks = s.nacks := rfl
@[simp] theorem State.setCluster_joins (s : State) (c : Nat) (x : ClusterState) : (s.setCluster c x).joins = s.joins := rfl
@[simp] theorem State.setCluster_overruns (s : State) (c : Nat) (x : ClusterState) : (s.setCluster c x).overruns = s.overruns := rfl
@[simp] theorem State.setCluster_skips (s : State) (c : Nat) (x : ClusterState) : (s.setCluster c x).skips = s.skips := rfl
@[simp] theorem State.setCluster_gangOut (s : State) (c : Nat) (x : ClusterState) : (s.setCluster c x).gangOut = s.gangOut := rfl
@[simp] theorem State.setCluster_wakes (s : State) (c : Nat) (x : ClusterState) : (s.setCluster c x).wakes = s.wakes := rfl
@[simp] theorem State.setCluster_claims (s : State) (c : Nat) (x : ClusterState) : (s.setCluster c x).claims = s.claims := rfl
@[simp] theorem State.setCluster_claimsLost (s : State) (c : Nat) (x : ClusterState) : (s.setCluster c x).claimsLost = s.claimsLost := rfl
@[simp] theorem State.setCluster_transfers (s : State) (c : Nat) (x : ClusterState) : (s.setCluster c x).transfers = s.transfers := rfl
@[simp] theorem State.setCluster_chunks (s : State) (c : Nat) (x : ClusterState) : (s.setCluster c x).chunks = s.chunks := rfl
@[simp] theorem State.setCluster_steals (s : State) (c : Nat) (x : ClusterState) : (s.setCluster c x).steals = s.steals := rfl
@[simp] theorem State.setCluster_kills (s : State) (c : Nat) (x : ClusterState) : (s.setCluster c x).kills = s.kills := rfl
@[simp] theorem State.setCluster_resumes (s : State) (c : Nat) (x : ClusterState) : (s.setCluster c x).resumes = s.resumes := rfl
@[simp] theorem State.setCluster_timers (s : State) (c : Nat) (x : ClusterState) : (s.setCluster c x).timers = s.timers := rfl
@[simp] theorem State.setCluster_invs (s : State) (c : Nat) (x : ClusterState) : (s.setCluster c x).invs = s.invs := rfl
@[simp] theorem State.setCluster_fences (s : State) (c : Nat) (x : ClusterState) : (s.setCluster c x).fences = s.fences := rfl
@[simp] theorem State.setCluster_plbFills (s : State) (c : Nat) (x : ClusterState) : (s.setCluster c x).plbFills = s.plbFills := rfl
@[simp] theorem State.setCluster_migrations (s : State) (c : Nat) (x : ClusterState) : (s.setCluster c x).migrations = s.migrations := rfl
@[simp] theorem State.setCluster_jobReqs (s : State) (c : Nat) (x : ClusterState) : (s.setCluster c x).jobReqs = s.jobReqs := rfl
@[simp] theorem State.setCluster_tileArrivals (s : State) (c : Nat) (x : ClusterState) : (s.setCluster c x).tileArrivals = s.tileArrivals := rfl
@[simp] theorem State.setCluster_mxArrivals (s : State) (c : Nat) (x : ClusterState) : (s.setCluster c x).mxArrivals = s.mxArrivals := rfl
@[simp] theorem State.setCluster_mxRetries (s : State) (c : Nat) (x : ClusterState) : (s.setCluster c x).mxRetries = s.mxRetries := rfl
@[simp] theorem State.setCluster_discards (s : State) (c : Nat) (x : ClusterState) : (s.setCluster c x).discards = s.discards := rfl
@[simp] theorem State.setCluster_faultQ (s : State) (c : Nat) (x : ClusterState) : (s.setCluster c x).faultQ = s.faultQ := rfl
@[simp] theorem State.setCluster_elogQ (s : State) (c : Nat) (x : ClusterState) : (s.setCluster c x).elogQ = s.elogQ := rfl
@[simp] theorem State.setCluster_handlerWakes (s : State) (c : Nat) (x : ClusterState) : (s.setCluster c x).handlerWakes = s.handlerWakes := rfl
@[simp] theorem State.setCluster_outReqs (s : State) (c : Nat) (x : ClusterState) : (s.setCluster c x).outReqs = s.outReqs := rfl
@[simp] theorem State.setCluster_outers (s : State) (c : Nat) (x : ClusterState) : (s.setCluster c x).outers = s.outers := rfl
@[simp] theorem State.setCluster_inflow (s : State) (c : Nat) (x : ClusterState) : (s.setCluster c x).inflow = s.inflow := rfl
@[simp] theorem State.setCluster_outbox (s : State) (c : Nat) (x : ClusterState) : (s.setCluster c x).outbox = s.outbox := rfl
@[simp] theorem State.setCluster_quarantine (s : State) (c : Nat) (x : ClusterState) : (s.setCluster c x).quarantine = s.quarantine := rfl
@[simp] theorem State.setCluster_regs (s : State) (c : Nat) (x : ClusterState) : (s.setCluster c x).regs = s.regs := rfl
@[simp] theorem State.setCluster_mortar (s : State) (c : Nat) (x : ClusterState) : (s.setCluster c x).mortar = s.mortar := rfl
@[simp] theorem State.setCluster_att (s : State) (c : Nat) (x : ClusterState) : (s.setCluster c x).att = s.att := rfl
@[simp] theorem State.setCluster_boot (s : State) (c : Nat) (x : ClusterState) : (s.setCluster c x).boot = s.boot := rfl

/-! ## State.setBrick -/

@[simp] theorem State.setBrick_mem (s : State) (d : Nat) (x : Brick) : (s.setBrick d x).mem = s.mem := rfl
@[simp] theorem State.setBrick_full (s : State) (d : Nat) (x : Brick) : (s.setBrick d x).full = s.full := rfl
@[simp] theorem State.setBrick_poison (s : State) (d : Nat) (x : Brick) : (s.setBrick d x).poison = s.poison := rfl
@[simp] theorem State.setBrick_badCopies (s : State) (d : Nat) (x : Brick) : (s.setBrick d x).badCopies = s.badCopies := rfl
@[simp] theorem State.setBrick_badCtxs (s : State) (d : Nat) (x : Brick) : (s.setBrick d x).badCtxs = s.badCtxs := rfl
@[simp] theorem State.setBrick_cycle (s : State) (d : Nat) (x : Brick) : (s.setBrick d x).cycle = s.cycle := rfl
@[simp] theorem State.setBrick_draws (s : State) (d : Nat) (x : Brick) : (s.setBrick d x).draws = s.draws := rfl
@[simp] theorem State.setBrick_barrel (s : State) (d : Nat) (x : Brick) : (s.setBrick d x).barrel = s.barrel := rfl
@[simp] theorem State.setBrick_latch (s : State) (d : Nat) (x : Brick) : (s.setBrick d x).latch = s.latch := rfl
@[simp] theorem State.setBrick_agenda (s : State) (d : Nat) (x : Brick) : (s.setBrick d x).agenda = s.agenda := rfl
@[simp] theorem State.setBrick_cores (s : State) (d : Nat) (x : Brick) : (s.setBrick d x).cores = s.cores := rfl
@[simp] theorem State.setBrick_clusters (s : State) (d : Nat) (x : Brick) : (s.setBrick d x).clusters = s.clusters := rfl
@[simp] theorem State.setBrick_bricks (s : State) (d : Nat) (x : Brick) :
    (s.setBrick d x).bricks = s.bricks.set d x := rfl
@[simp] theorem State.setBrick_l2 (s : State) (d : Nat) (x : Brick) : (s.setBrick d x).l2 = s.l2 := rfl
@[simp] theorem State.setBrick_dir (s : State) (d : Nat) (x : Brick) : (s.setBrick d x).dir = s.dir := rfl
@[simp] theorem State.setBrick_dca (s : State) (d : Nat) (x : Brick) : (s.setBrick d x).dca = s.dca := rfl
@[simp] theorem State.setBrick_dcaOwn (s : State) (d : Nat) (x : Brick) : (s.setBrick d x).dcaOwn = s.dcaOwn := rfl
@[simp] theorem State.setBrick_snoops (s : State) (d : Nat) (x : Brick) : (s.setBrick d x).snoops = s.snoops := rfl
@[simp] theorem State.setBrick_combine (s : State) (d : Nat) (x : Brick) : (s.setBrick d x).combine = s.combine := rfl
@[simp] theorem State.setBrick_tileSubs (s : State) (d : Nat) (x : Brick) : (s.setBrick d x).tileSubs = s.tileSubs := rfl
@[simp] theorem State.setBrick_reqs (s : State) (d : Nat) (x : Brick) : (s.setBrick d x).reqs = s.reqs := rfl
@[simp] theorem State.setBrick_bankQ (s : State) (d : Nat) (x : Brick) : (s.setBrick d x).bankQ = s.bankQ := rfl
@[simp] theorem State.setBrick_msgs (s : State) (d : Nat) (x : Brick) : (s.setBrick d x).msgs = s.msgs := rfl
@[simp] theorem State.setBrick_noents (s : State) (d : Nat) (x : Brick) : (s.setBrick d x).noents = s.noents := rfl
@[simp] theorem State.setBrick_nacks (s : State) (d : Nat) (x : Brick) : (s.setBrick d x).nacks = s.nacks := rfl
@[simp] theorem State.setBrick_joins (s : State) (d : Nat) (x : Brick) : (s.setBrick d x).joins = s.joins := rfl
@[simp] theorem State.setBrick_overruns (s : State) (d : Nat) (x : Brick) : (s.setBrick d x).overruns = s.overruns := rfl
@[simp] theorem State.setBrick_skips (s : State) (d : Nat) (x : Brick) : (s.setBrick d x).skips = s.skips := rfl
@[simp] theorem State.setBrick_gangOut (s : State) (d : Nat) (x : Brick) : (s.setBrick d x).gangOut = s.gangOut := rfl
@[simp] theorem State.setBrick_wakes (s : State) (d : Nat) (x : Brick) : (s.setBrick d x).wakes = s.wakes := rfl
@[simp] theorem State.setBrick_claims (s : State) (d : Nat) (x : Brick) : (s.setBrick d x).claims = s.claims := rfl
@[simp] theorem State.setBrick_claimsLost (s : State) (d : Nat) (x : Brick) : (s.setBrick d x).claimsLost = s.claimsLost := rfl
@[simp] theorem State.setBrick_transfers (s : State) (d : Nat) (x : Brick) : (s.setBrick d x).transfers = s.transfers := rfl
@[simp] theorem State.setBrick_chunks (s : State) (d : Nat) (x : Brick) : (s.setBrick d x).chunks = s.chunks := rfl
@[simp] theorem State.setBrick_steals (s : State) (d : Nat) (x : Brick) : (s.setBrick d x).steals = s.steals := rfl
@[simp] theorem State.setBrick_kills (s : State) (d : Nat) (x : Brick) : (s.setBrick d x).kills = s.kills := rfl
@[simp] theorem State.setBrick_resumes (s : State) (d : Nat) (x : Brick) : (s.setBrick d x).resumes = s.resumes := rfl
@[simp] theorem State.setBrick_timers (s : State) (d : Nat) (x : Brick) : (s.setBrick d x).timers = s.timers := rfl
@[simp] theorem State.setBrick_invs (s : State) (d : Nat) (x : Brick) : (s.setBrick d x).invs = s.invs := rfl
@[simp] theorem State.setBrick_fences (s : State) (d : Nat) (x : Brick) : (s.setBrick d x).fences = s.fences := rfl
@[simp] theorem State.setBrick_plbFills (s : State) (d : Nat) (x : Brick) : (s.setBrick d x).plbFills = s.plbFills := rfl
@[simp] theorem State.setBrick_migrations (s : State) (d : Nat) (x : Brick) : (s.setBrick d x).migrations = s.migrations := rfl
@[simp] theorem State.setBrick_jobReqs (s : State) (d : Nat) (x : Brick) : (s.setBrick d x).jobReqs = s.jobReqs := rfl
@[simp] theorem State.setBrick_tileArrivals (s : State) (d : Nat) (x : Brick) : (s.setBrick d x).tileArrivals = s.tileArrivals := rfl
@[simp] theorem State.setBrick_mxArrivals (s : State) (d : Nat) (x : Brick) : (s.setBrick d x).mxArrivals = s.mxArrivals := rfl
@[simp] theorem State.setBrick_mxRetries (s : State) (d : Nat) (x : Brick) : (s.setBrick d x).mxRetries = s.mxRetries := rfl
@[simp] theorem State.setBrick_discards (s : State) (d : Nat) (x : Brick) : (s.setBrick d x).discards = s.discards := rfl
@[simp] theorem State.setBrick_faultQ (s : State) (d : Nat) (x : Brick) : (s.setBrick d x).faultQ = s.faultQ := rfl
@[simp] theorem State.setBrick_elogQ (s : State) (d : Nat) (x : Brick) : (s.setBrick d x).elogQ = s.elogQ := rfl
@[simp] theorem State.setBrick_handlerWakes (s : State) (d : Nat) (x : Brick) : (s.setBrick d x).handlerWakes = s.handlerWakes := rfl
@[simp] theorem State.setBrick_outReqs (s : State) (d : Nat) (x : Brick) : (s.setBrick d x).outReqs = s.outReqs := rfl
@[simp] theorem State.setBrick_outers (s : State) (d : Nat) (x : Brick) : (s.setBrick d x).outers = s.outers := rfl
@[simp] theorem State.setBrick_inflow (s : State) (d : Nat) (x : Brick) : (s.setBrick d x).inflow = s.inflow := rfl
@[simp] theorem State.setBrick_outbox (s : State) (d : Nat) (x : Brick) : (s.setBrick d x).outbox = s.outbox := rfl
@[simp] theorem State.setBrick_quarantine (s : State) (d : Nat) (x : Brick) : (s.setBrick d x).quarantine = s.quarantine := rfl
@[simp] theorem State.setBrick_regs (s : State) (d : Nat) (x : Brick) : (s.setBrick d x).regs = s.regs := rfl
@[simp] theorem State.setBrick_mortar (s : State) (d : Nat) (x : Brick) : (s.setBrick d x).mortar = s.mortar := rfl
@[simp] theorem State.setBrick_att (s : State) (d : Nat) (x : Brick) : (s.setBrick d x).att = s.att := rfl
@[simp] theorem State.setBrick_boot (s : State) (d : Nat) (x : Brick) : (s.setBrick d x).boot = s.boot := rfl

/-! ## State.draw -/

@[simp] theorem State.draw_mem (s : State) : (s.draw.2).mem = s.mem := rfl
@[simp] theorem State.draw_full (s : State) : (s.draw.2).full = s.full := rfl
@[simp] theorem State.draw_poison (s : State) : (s.draw.2).poison = s.poison := rfl
@[simp] theorem State.draw_badCopies (s : State) : (s.draw.2).badCopies = s.badCopies := rfl
@[simp] theorem State.draw_badCtxs (s : State) : (s.draw.2).badCtxs = s.badCtxs := rfl
@[simp] theorem State.draw_cycle (s : State) : (s.draw.2).cycle = s.cycle := rfl
@[simp] theorem State.draw_draws (s : State) :
    (s.draw.2).draws = s.draws + 1 := rfl
@[simp] theorem State.draw_barrel (s : State) : (s.draw.2).barrel = s.barrel := rfl
@[simp] theorem State.draw_latch (s : State) : (s.draw.2).latch = s.latch := rfl
@[simp] theorem State.draw_agenda (s : State) : (s.draw.2).agenda = s.agenda := rfl
@[simp] theorem State.draw_cores (s : State) : (s.draw.2).cores = s.cores := rfl
@[simp] theorem State.draw_clusters (s : State) : (s.draw.2).clusters = s.clusters := rfl
@[simp] theorem State.draw_bricks (s : State) : (s.draw.2).bricks = s.bricks := rfl
@[simp] theorem State.draw_l2 (s : State) : (s.draw.2).l2 = s.l2 := rfl
@[simp] theorem State.draw_dir (s : State) : (s.draw.2).dir = s.dir := rfl
@[simp] theorem State.draw_dca (s : State) : (s.draw.2).dca = s.dca := rfl
@[simp] theorem State.draw_dcaOwn (s : State) : (s.draw.2).dcaOwn = s.dcaOwn := rfl
@[simp] theorem State.draw_snoops (s : State) : (s.draw.2).snoops = s.snoops := rfl
@[simp] theorem State.draw_combine (s : State) : (s.draw.2).combine = s.combine := rfl
@[simp] theorem State.draw_tileSubs (s : State) : (s.draw.2).tileSubs = s.tileSubs := rfl
@[simp] theorem State.draw_reqs (s : State) : (s.draw.2).reqs = s.reqs := rfl
@[simp] theorem State.draw_bankQ (s : State) : (s.draw.2).bankQ = s.bankQ := rfl
@[simp] theorem State.draw_msgs (s : State) : (s.draw.2).msgs = s.msgs := rfl
@[simp] theorem State.draw_noents (s : State) : (s.draw.2).noents = s.noents := rfl
@[simp] theorem State.draw_nacks (s : State) : (s.draw.2).nacks = s.nacks := rfl
@[simp] theorem State.draw_joins (s : State) : (s.draw.2).joins = s.joins := rfl
@[simp] theorem State.draw_overruns (s : State) : (s.draw.2).overruns = s.overruns := rfl
@[simp] theorem State.draw_skips (s : State) : (s.draw.2).skips = s.skips := rfl
@[simp] theorem State.draw_gangOut (s : State) : (s.draw.2).gangOut = s.gangOut := rfl
@[simp] theorem State.draw_wakes (s : State) : (s.draw.2).wakes = s.wakes := rfl
@[simp] theorem State.draw_claims (s : State) : (s.draw.2).claims = s.claims := rfl
@[simp] theorem State.draw_claimsLost (s : State) : (s.draw.2).claimsLost = s.claimsLost := rfl
@[simp] theorem State.draw_transfers (s : State) : (s.draw.2).transfers = s.transfers := rfl
@[simp] theorem State.draw_chunks (s : State) : (s.draw.2).chunks = s.chunks := rfl
@[simp] theorem State.draw_steals (s : State) : (s.draw.2).steals = s.steals := rfl
@[simp] theorem State.draw_kills (s : State) : (s.draw.2).kills = s.kills := rfl
@[simp] theorem State.draw_resumes (s : State) : (s.draw.2).resumes = s.resumes := rfl
@[simp] theorem State.draw_timers (s : State) : (s.draw.2).timers = s.timers := rfl
@[simp] theorem State.draw_invs (s : State) : (s.draw.2).invs = s.invs := rfl
@[simp] theorem State.draw_fences (s : State) : (s.draw.2).fences = s.fences := rfl
@[simp] theorem State.draw_plbFills (s : State) : (s.draw.2).plbFills = s.plbFills := rfl
@[simp] theorem State.draw_migrations (s : State) : (s.draw.2).migrations = s.migrations := rfl
@[simp] theorem State.draw_jobReqs (s : State) : (s.draw.2).jobReqs = s.jobReqs := rfl
@[simp] theorem State.draw_tileArrivals (s : State) : (s.draw.2).tileArrivals = s.tileArrivals := rfl
@[simp] theorem State.draw_mxArrivals (s : State) : (s.draw.2).mxArrivals = s.mxArrivals := rfl
@[simp] theorem State.draw_mxRetries (s : State) : (s.draw.2).mxRetries = s.mxRetries := rfl
@[simp] theorem State.draw_discards (s : State) : (s.draw.2).discards = s.discards := rfl
@[simp] theorem State.draw_faultQ (s : State) : (s.draw.2).faultQ = s.faultQ := rfl
@[simp] theorem State.draw_elogQ (s : State) : (s.draw.2).elogQ = s.elogQ := rfl
@[simp] theorem State.draw_handlerWakes (s : State) : (s.draw.2).handlerWakes = s.handlerWakes := rfl
@[simp] theorem State.draw_outReqs (s : State) : (s.draw.2).outReqs = s.outReqs := rfl
@[simp] theorem State.draw_outers (s : State) : (s.draw.2).outers = s.outers := rfl
@[simp] theorem State.draw_inflow (s : State) : (s.draw.2).inflow = s.inflow := rfl
@[simp] theorem State.draw_outbox (s : State) : (s.draw.2).outbox = s.outbox := rfl
@[simp] theorem State.draw_quarantine (s : State) : (s.draw.2).quarantine = s.quarantine := rfl
@[simp] theorem State.draw_regs (s : State) : (s.draw.2).regs = s.regs := rfl
@[simp] theorem State.draw_mortar (s : State) : (s.draw.2).mortar = s.mortar := rfl
@[simp] theorem State.draw_att (s : State) : (s.draw.2).att = s.att := rfl
@[simp] theorem State.draw_boot (s : State) : (s.draw.2).boot = s.boot := rfl

/-! ## Reading back -/

theorem tableGet_set_same {α : Type} (k : Nat) (v : α) : ∀ t : Table α, Table.get? (Table.set t k v) k = some v
  | [] => by simp [Table.set, Table.get?]
  | (j, x) :: t => by
    by_cases h1 : k = j
    · simp [Table.set, Table.get?, h1]
    · by_cases h2 : k < j
      · simp [Table.set, Table.get?, h1, h2]
      · simpa [Table.set, Table.get?, h1, h2] using tableGet_set_same k v t

@[simp] theorem State.core_setCore (s : State) (c : Nat) (x : CoreState) : (s.setCore c x).core c = x := by
  simp [State.core, tableGet_set_same]

@[simp] theorem State.cluster_setCluster (s : State) (c : Nat) (x : ClusterState) : (s.setCluster c x).cluster c = x := by
  simp [State.cluster, tableGet_set_same]

@[simp] theorem State.core_setLine (s : State) (b : Barrel) (l : Line) (c : Nat) : (s.setLine b l).core c = s.core c := rfl

@[simp] theorem State.cluster_setLine (s : State) (b : Barrel) (l : Line) (c : Nat) :
    (s.setLine b l).cluster c = s.cluster c := rfl

@[simp] theorem State.core_complete (s : State) (b : Barrel) (l : Line) (c : Nat) : (s.complete b l).core c = s.core c := rfl

@[simp] theorem State.cluster_complete (s : State) (b : Barrel) (l : Line) (c : Nat) :
    (s.complete b l).cluster c = s.cluster c := rfl

end Sys2Proof.Machine
end

