-- ==== Sys2Proof/Laws/Banks.lean ====
section
/-!
SUPPORT. Laws/Banks.lean: what the arbitration of the banks of a TSP can do to a state (R99), and what a waiting thread is told (R96).
-/
namespace Sys2Proof.Laws

open Sys2Proof.Machine

/-- A grant to a request changes nothing but its cluster's arbitration. -/
theorem grantBank_some {s t : State} {cl off n port : Nat} {es : List BankReq} (h : s.grantBank cl off n port es = some t) :
    ∃ a, t = s.setCluster cl { s.cluster cl with arb := a } := by
  unfold State.grantBank at h
  dsimp only at h
  split at h
  · cases h
  · cases h; exact ⟨_, rfl⟩

/-- Whether a unit has its banks or waits for them, nothing but the cluster's arbitration changes. -/
theorem grantUnit_state (s : State) (cl port : Nat) (banks : List Nat) :
    ∃ a, (s.grantUnit cl port banks).1 = s.setCluster cl { s.cluster cl with arb := a } := by
  unfold State.grantUnit
  dsimp only
  split <;> exact ⟨_, rfl⟩

/-- A step of a unit goes on in the state of the grant, or is that state. -/
theorem withBanks_eq (s : State) (cl port : Nat) (runs : List (Nat × Nat)) (go : State → State) :
    s.withBanks cl port runs go =
      if (s.grantUnit cl port (banksOf runs)).2 then go (s.grantUnit cl port (banksOf runs)).1
      else (s.grantUnit cl port (banksOf runs)).1 := by
  unfold State.withBanks
  split <;> simp_all

/-- The router of a unit that a context may reach takes its request. -/
theorem routerRefuses_none {s : State} {w : Who} {cl : Nat}
    (h : s.dieLive (dieOfCluster cl) = true ∨ dieOfCluster cl = dieOfCore w.core) (hp : s.inPartition w.part.toNat cl = true) :
    s.routerRefuses w cl = none := by
  rcases h with h | h <;> simp [State.routerRefuses, h, hp]

/-- A waiter that finds an entry is enlisted there. -/
theorem bankWait_enlisted {s : State} {r : BankReq} {c : WaitCond} {i : Nat}
    (h : freeIndex (s.cluster (clusterAt r.addr)).waits 256 0 = some i) :
    s.bankWait r c =
      (let k := s.cluster (clusterAt r.addr)
       let e : WaitEntry := { who := r.who, addr := r.addr, cond := c, since := s.cycle, limit := waitLimit k c }
       (s.setCluster (clusterAt r.addr) { k with waits := Table.set k.waits i e }).retag r.who c.kind
         (waitValue (clusterAt r.addr) (some i)) (c.kind != 5)) := by
  simp only [State.bankWait, State.enlist, h]

/-- A waiter that finds the table full looks again later. -/
theorem bankWait_full {s : State} {r : BankReq} {c : WaitCond} (h : freeIndex (s.cluster (clusterAt r.addr)).waits 256 0 = none) :
    s.bankWait r c = ({ s with noents := s.noents ++ [(r.who, c.kind, s.cycle)] } : State).retag r.who c.kind
      (waitValue (clusterAt r.addr) none) true := by
  simp only [State.bankWait, State.enlist, h]

end Sys2Proof.Laws
end

