-- ==== Sys2Proof/Laws/Boot.lean ====
section
/-!
SUPPORT. Laws/Boot.lean: what the register writes of the firmware leave as it is while no work stands on the device (R373, R401).
-/
namespace Sys2Proof.Laws

open Sys2Proof.Machine

/-- What a quad reads after a write; a number above 3 names the last place. -/
theorem quad_get_set {α : Type} (q : Quad α) (d k : Nat) (x : α) :
    (q.set d x).get k = if min d 3 = min k 3 then x else q.get k := by
  rcases d with _ | _ | _ | d <;> rcases k with _ | _ | _ | k <;> simp [Quad.get, Quad.set] <;> omega

/-- No work of any context, job or migration stands on the device, and the boot state is b. -/
structure Unused (b : BootState) (s : State) : Prop where
  boot : s.boot = b
  cores : s.cores = []
  clusters : s.clusters = []
  chunks : s.chunks = []
  migrations : s.migrations = []
  ready : ∀ d, (s.brick d).ready = []
  gangs : ∀ d, (s.brick d).gangs = []

theorem Unused.setBrick {b : BootState} {s : State} (h : Unused b s) (d : Nat) (x : Brick) (hr : x.ready = []) (hg : x.gangs = []) :
    Unused b (s.setBrick d x) := by
  obtain ⟨h0, h1, h2, h3, h4, h5, h6⟩ := h
  refine ⟨h0, h1, h2, h3, h4, fun k => ?_, fun k => ?_⟩ <;>
    simp only [State.brick, State.setBrick, quad_get_set] at * <;> split <;> simp_all

/-- Nothing of a quiesced brick has to go elsewhere. -/
theorem disposeWork_unused {b : BootState} {s : State} (d : Nat) (h : Unused b s) : Unused b (s.disposeWork d) := by
  have e1 : Unused b (s.endExpansion d) := by
    obtain ⟨h0, h1, h2, h3, h4, h5, h6⟩ := h
    have hg : ({ s with chunks := [], steals := s.steals.filter fun r => r.thief != d } : State).brick d = s.brick d := rfl
    simp only [State.endExpansion, h3, List.filter_nil, List.foldl_nil, hg, h6]
    exact ⟨h0, h1, h2, rfl, h4, h5, h6⟩
  have e2 : Unused b ((s.endExpansion d).moveReady d) := by
    have hr := e1.ready d
    simp only [State.moveReady, hr, List.foldl_nil, List.filter_nil]
    exact e1.setBrick d _ rfl (e1.gangs d)
  generalize hu : (s.endExpansion d).moveReady d = u at e2
  obtain ⟨h0, h1, h2, h3, h4, h5, h6⟩ := e2
  have n1 : u.moveDeques d = u := by simp [State.moveDeques, State.dieCores, onDie, h1]
  have n2 : u.evictAll d = u := by simp [State.evictAll, State.dieCores, onDie, h1]
  have n3 : u.endWaits d = u := by simp [State.endWaits, State.dieClusters, onDie, h2]
  have n4 : u.endJobs d = u := by
    have : ({ u with clusters := u.clusters.map fun (c, k) =>
        (c, if dieOfCluster c = d then ClusterState.leaveRefreshes k else k) } : State) = u := by
      rw [h2]; simp only [List.map_nil]; rw [← h2]
    simp only [State.endJobs, this]
    simp [State.endMigrations, State.dieClusters, onDie, h2, h4]
  have n5 : u.endLoads d = u := by simp [State.endLoads, State.dieClusters, onDie, h2]
  have n6 : u.endUnserved d = u := by simp [State.endUnserved, State.dieClusters, onDie, h2]
  simp only [State.disposeWork, hu, n1, n2, n3, n4, n5, n6]
  exact ⟨h0, h1, h2, h3, h4, h5, h6⟩

/-- What the effect of a firmware write may answer. -/
def OutUnused (b : BootState) (o : WriteOut) : Prop := ∀ t, o = some t → Unused b t

theorem regWrite_unused {b : BootState} {s : State} (w : RegAccess) (f : State → WriteOut) (hw : w.src = .host) (h : Unused b s)
    (hf : OutUnused b (f s)) : Unused b (s.regWrite w f) := by
  have step : Unused b (match f s with | some s => s | none => s.logRefused w) := by
    split
    · exact hf _ ‹_›
    · obtain ⟨h0, h1, h2, h3, h4, h5, h6⟩ := h
      exact ⟨h0, h1, h2, h3, h4, h5, h6⟩
  simp only [State.regWrite, hw]
  repeat' first | exact h | exact step | split

theorem ownWrite_unused {b : BootState} {s : State} (w : RegAccess) (row : OwnRow) (f : State → Nat → WriteOut) (hw : w.src = .host)
    (h : Unused b s) (hf : OutUnused b (f s w.value.toNat)) : Unused b (s.ownWrite w row f) := by
  unfold State.ownWrite; split
  · exact regWrite_unused w _ hw h hf
  · exact h

theorem withBrick_unused {b : BootState} {s : State} (d : Nat) (f : Brick → Brick) (h : Unused b s)
    (hr : ∀ x, (f x).ready = x.ready) (hg : ∀ x, (f x).gangs = x.gangs) : OutUnused b (s.withBrick d f) := by
  rintro t ⟨⟩
  exact h.setBrick d _ (by rw [hr, h.ready]) (by rw [hg, h.gangs])

theorem withRegs_unused {b : BootState} {s : State} (f : DevRegs → DevRegs) (h : Unused b s) : OutUnused b (s.withRegs f) := by
  rintro t ⟨⟩
  obtain ⟨h0, h1, h2, h3, h4, h5, h6⟩ := h
  exact ⟨h0, h1, h2, h3, h4, h5, h6⟩

theorem none_unused {b : BootState} : OutUnused b none := by rintro t ⟨⟩

theorem some_unused {b : BootState} {t : State} (h : Unused b t) : OutUnused b (some t) := by rintro _ ⟨⟩; exact h

theorem writeRegister_unused {b : BootState} {s : State} (die : Nat) (k : Block) (o v : Nat) (h : Unused b s) :
    OutUnused b (s.writeRegister die k o v) := by
  have hm : ∀ m, Unused b { s with mortar := m } := fun m => by
    obtain ⟨h0, h1, h2, h3, h4, h5, h6⟩ := h
    exact ⟨h0, h1, h2, h3, h4, h5, h6⟩
  have ha : ∀ m, Unused b { s with att := m } := fun m => by
    obtain ⟨h0, h1, h2, h3, h4, h5, h6⟩ := h
    exact ⟨h0, h1, h2, h3, h4, h5, h6⟩
  cases k <;> simp only [State.writeRegister, State.writeTranslation, State.writeCoherence, State.writeContext,
    State.writeScheduling, State.writeFault, State.writeMortar] <;>
  repeat' first
    | exact none_unused
    | exact withRegs_unused _ h
    | exact withBrick_unused _ _ h (fun _ => rfl) (fun _ => rfl)
    | exact some_unused (hm _)
    | exact some_unused (ha _)
    | split

theorem bootWrite_unused {b : BootState} {s : State} (w : RegAccess) (h : Unused b s) : Unused b (s.bootWrite w) := by
  have hm : ∀ m o, Unused b { s with mortar := m, outbox := o } := fun m o => by
    obtain ⟨h0, h1, h2, h3, h4, h5, h6⟩ := h
    exact ⟨h0, h1, h2, h3, h4, h5, h6⟩
  have hd : ∀ m n, Unused b { s with mortar := m, draws := n } := fun m n => by
    obtain ⟨h0, h1, h2, h3, h4, h5, h6⟩ := h
    exact ⟨h0, h1, h2, h3, h4, h5, h6⟩
  have ha : ∀ m, Unused b { s with att := m } := fun m => by
    obtain ⟨h0, h1, h2, h3, h4, h5, h6⟩ := h
    exact ⟨h0, h1, h2, h3, h4, h5, h6⟩
  have hl : Unused b s.lockLaunch := by
    unfold State.lockLaunch
    obtain ⟨h0, h1, h2, h3, h4, h5, h6⟩ := h
    repeat' first | exact ⟨h0, h1, h2, h3, h4, h5, h6⟩ | split
  unfold State.bootWrite
  generalize hw : ({ w with src := .host } : RegAccess) = v
  have hv : v.src = .host := by rw [← hw]
  dsimp only
  split
  · unfold execRegisterWrite; split
    · exact h
    · exact regWrite_unused v (fun s => s.writeRegister v.die.val v.block v.offset v.value.toNat) hv h (writeRegister_unused _ _ _ _ h)
  all_goals simp only [State.after, execLaunchQueueTailWrite, execPfqHeadWrite, execElogLostClear, execPartRectWrite,
    execCtCommit, execBrickQuiesce, execAttGo]
  all_goals refine ownWrite_unused v _ _ hv h ?_

  · split
    · exact none_unused
    · exact withRegs_unused _ hl
  · exact withRegs_unused _ h
  · split
    · exact withBrick_unused _ _ h (fun _ => rfl) (fun _ => rfl)
    · exact some_unused h
  · split
    · exact withBrick_unused _ _ h (fun _ => rfl) (fun _ => rfl)
    · exact none_unused
  · split
    · exact none_unused
    · split
      · refine some_unused ?_
        unfold State.refuseTable State.draw
        split
        next n s' hx => split at hx <;> cases hx <;> first | exact hd _ _ | exact hm _ s.outbox
      · exact some_unused (hm _ s.outbox)
  · split
    · exact none_unused
    · refine some_unused (disposeWork_unused _ ?_)
      exact hm _ _
  · split
    · exact some_unused (ha _)
    · exact some_unused h

/-- The register writes of a firmware image leave the boot state, and no work on the device. -/
theorem bootWrites_unused {b : BootState} (ws : List RegAccess) {s : State} (h : Unused b s) : Unused b (ws.foldl State.bootWrite s) := by
  induction ws generalizing s with
  | nil => exact h
  | cons w ws ih => exact ih (bootWrite_unused w h)

end Sys2Proof.Laws
end

