-- ==== Sys2Proof/Laws/Exec.lean ====
section
/-!
SUPPORT. Laws/Exec.lean: one lemma for each shared operation of an instruction: its frame, its branch target, the checks
of an access, a fence with nothing to wait for, and the store buffer.
-/
namespace Sys2Proof.Laws

open Sys2Proof.Machine

/-! ## The frame of an instruction -/

theorem issue_run {s : State} {b : Barrel} {g : Guard} (t : Tail) (body : Barrel → Result) (h : Runs s b g)
    (ht : t.indexBad b = false) (hp : t.poisonAt s b = none) : issue g t s body = body b := by
  simp [issue, withBarrel, h.1, h.2, ht, hp]

theorem issue_poisoned {s : State} {b : Barrel} {g : Guard} (t : Tail) (body : Barrel → Result) (h : Runs s b g)
    (ht : t.indexBad b = false) {a : Nat} (hp : t.poisonAt s b = some a) :
    issue g t s body = .next (s.takeFault b b.held.line .poisonedData .none 0 a) := by
  simp [issue, withBarrel, h.1, h.2, ht, hp]

theorem issue0_run {s : State} {b : Barrel} {g : Guard} (body : Barrel → Result) (h : Runs s b g) :
    issue0 g s body = body b := by
  simp [issue0, withBarrel, h.1, h.2]

theorem issue_guard_false {s : State} {b : Barrel} {g : Guard} (t : Tail) (body : Barrel → Result)
    (hb : s.barrel = some b) (hg : guardHolds b.held.line g = false) (ht : t.indexBad b = false) :
    issue g t s body = .next (s.complete b b.held.line) := by
  simp [issue, withBarrel, hb, hg, ht]

theorem issue_index_bad {s : State} {b : Barrel} (g : Guard) (t : Tail) (body : Barrel → Result)
    (hb : s.barrel = some b) (ht : t.indexBad b = true) : issue g t s body = .next (s.illegal b) := by
  simp [issue, withBarrel, hb, ht]

theorem issue0_guard_false {s : State} {b : Barrel} {g : Guard} (body : Barrel → Result) (hb : s.barrel = some b)
    (hg : guardHolds b.held.line g = false) : issue0 g s body = .next (s.complete b b.held.line) := by
  simp [issue0, withBarrel, hb, hg]

theorem const_in_bank {s : State} {b : Barrel} {k : BitVec 8} (h : InBank s b k) : (Tail.const k).indexBad b = false := by
  simpa [Tail.indexBad] using h.1

theorem const_not_poisoned {s : State} {b : Barrel} {k : BitVec 8} (h : InBank s b k) :
    (Tail.const k).poisonAt s b = none := by
  simp [Tail.poisonAt, h.2]

theorem const_out_of_bank {b : Barrel} {k : BitVec 8} (h : b.constWords ≤ k.toNat) : (Tail.const k).indexBad b = true := by
  simpa [Tail.indexBad] using h

/-! ## Branch targets -/

theorem litBit_eq_bit (h n : Nat) (h4 : n % 4 = 0) (h64 : n % 64 ≠ 0) :
    litBit h (n % 64 / 4) = bit h (n % 64 / 4) := by
  have h1 : 0 < n % 64 / 4 := by omega
  have h2 : n % 64 / 4 < 16 := by omega
  simp [litBit, h1, h2]

theorem withTarget_eq (s : State) (b : Barrel) (ov : Nat) (o : Int) (go : BitVec 32 → Result) :
    withTarget s b ov o go = match branchStop s b ov o with
      | some t => .next t
      | none => go (pcAt ov o) := by
  unfold withTarget branchStop State.branchFault State.overlayMiss targetPc pcAt
  by_cases h4 : o % 4 = 0
  · simp only [h4, ne_eq, not_true_eq_false, if_false]
    cases hx : execSlot (s.core b.core) b.held.line.domain ov with
    | none => rfl
    | some x =>
      by_cases hr : o < 0 ∨ (x.length : Int) ≤ o
      · simp only [hr, if_true]
      · simp only [hr, if_false]
        by_cases h64 : o % 64 = 0
        · simp only [h64, if_true]
        · simp only [h64, if_false]
          have ho : 0 ≤ o := by omega
          rw [litBit_eq_bit _ _ (by omega) (by omega)]
          by_cases hb : bit (lineHeader s (slotBase b.core x) o.toNat) (o.toNat % 64 / 4) = true <;> simp [hb]
  · simp only [h4, ne_eq, not_false_eq_true, if_true]

theorem takes_branch {s : State} {b : Barrel} {ov : Nat} {o : Int} {i : Instr} {go : BitVec 32 → Result}
    (h : exec i s = withTarget s b ov o go) : TakesBranch s b ov o i (go (pcAt ov o)) := by
  rw [withTarget_eq] at h
  exact ⟨fun h' => by rw [h, h'], fun t h' => by rw [h, h']⟩

theorem pcOffset_eq (l : Line) : l.pcOffset = l.pc.toNat % 2 ^ 16 := by simp [Line.pcOffset, bits]

theorem pcOverlay_eq (l : Line) : l.pcOverlay = l.pc.toNat / 2 ^ 16 := by
  have := l.pc.isLt
  simp [Line.pcOverlay, bits]; omega

theorem pcAt_eq (v : Nat) : pcAt (v / 2 ^ 16) (v % 2 ^ 16 : Nat) = BitVec.ofNat 32 v := by
  simp only [pcAt]; congr 1; omega

theorem withRegTarget_eq (s : State) (b : Barrel) (v : Word64) (go : BitVec 32 → Result) (h : v.toNat < 2 ^ 32) :
    withRegTarget s b v go = withTarget s b (v.toNat / 2 ^ 16) (v.toNat % 2 ^ 16 : Nat) go := by
  have h1 : v.toNat / 2 ^ 32 = 0 := by omega
  have h2 : bits v.toNat 31 16 = v.toNat / 2 ^ 16 := by simp [bits]; omega
  have h3 : bits v.toNat 15 0 = v.toNat % 2 ^ 16 := by simp [bits]
  simp only [withRegTarget, h1, ne_eq, not_true_eq_false, if_false, h2, h3]

/-! ## Access at the core -/

theorem withRights_of_allowed {s : State} {b : Barrel} {va : Nat} {n : Rights} (acc : AccessKind) (go : State → Result)
    (h : Allowed s b va n) : withRights s b va n acc go = go s := by
  unfold withRights
  rw [Allowed] at h; rw [h]

theorem withAccess_of_reaches {s : State} {b : Barrel} {y : Space} {ea n va : Nat} {r : Rights} (c : AccClass)
    (acc : AccessKind) (go : State → Nat → Target → Result) (h : Reaches s b y ea n va r)
    (hv : targetVerdict c n (targetOf va) = .ok) : withAccess s b y ea n c r acc go = go s va (targetOf va) := by
  obtain ⟨h1, h2, h3⟩ := h
  simp only [withAccess, h1, h2, ne_eq, not_true_eq_false, and_false, if_false, withRights_of_allowed _ _ h3, hv]

theorem line_raise_none (l : Line) : l.raise .none = l := by
  cases l; simp [Line.raise, FpFlags.mask, FpFlags.none, boolBit]

theorem line_setTouched_zero (l : Line) (h : l.touched = 0) : l.setTouched 0 = l := by
  cases l with
  | mk regs pc pred waitTag status control link parent joinCount deferredPc user tag gen rsvd =>
    simp only [Line.touched] at h
    simp only [Line.setTouched, setBits, h]
    simp

theorem touched_zero (l : Line) (h : ∀ g, g < 16 → bit l.touched g = false) : l.touched = 0 := by
  have hlt : l.touched < 2 ^ 16 := by simp only [Line.touched, bits]; omega
  refine Nat.eq_of_testBit_eq fun i => ?_
  by_cases hi : i < 16
  · have := h i hi
    simp only [bit] at this
    simp [Nat.testBit, Nat.shiftRight_eq_div_pow]
    simpa [Nat.testBit, Nat.shiftRight_eq_div_pow] using this
  · simp [Nat.testBit_lt_two_pow (Nat.lt_of_lt_of_le hlt (Nat.pow_le_pow_right (by omega) (by omega : 16 ≤ i)))]

theorem fence_touched {b : Barrel} {sc : Scope} (h : fenceProbes b sc = []) (hs : 3 ≤ scopeRank sc) :
    b.held.line.touched = 0 := by
  apply touched_zero
  intro g hg
  cases hb : bit b.held.line.touched g with
  | false => rfl
  | true =>
    have : (0, g) ∈ fenceProbes b sc := by
      have h2 : scopeRank sc ≠ 2 := by omega
      have h3 : 2 < scopeRank sc := by omega
      simp [fenceProbes, h2, h3, hb, hg]
    simp [h] at this

theorem fence_ports {b : Barrel} (h : fenceProbes b .sys = []) : b.held.ports = [] := by
  simp [fenceProbes] at h
  exact h.2.2

theorem fence_observed {b : Barrel} {sc : Scope} (h : fenceProbes b sc = []) (hs : 3 ≤ scopeRank sc) :
    b.held.observed = [] := by
  simp only [fenceProbes, if_pos hs, List.append_eq_nil_iff, List.map_eq_nil_iff] at h
  exact h.1.2

/-- A fence that has nothing to wait for is a step over nothing (R263). -/
theorem withFence_of_settled {s : State} {b : Barrel} {sc : Scope} (check : Bool) (go : State → Barrel → Result)
    (hb : s.barrel = some b) (h : Settled s b sc) (hd : check = false ∨ b.held.line.deferredPc = 0) :
    withFence s b sc check go = go s b := by
  obtain ⟨h1, h2⟩ := h
  have h1' : s.buffered b.core b.held.va = false := h1
  have hl : (if 3 ≤ scopeRank sc then b.held.line.setTouched 0 else b.held.line) = b.held.line := by
    split
    · next hs => exact line_setTouched_zero _ (fence_touched h2 hs)
    · rfl
  have hp : (if sc = .sys then [] else b.held.ports) = b.held.ports := by
    split
    · next hs => subst hs; exact (fence_ports h2).symm
    · rfl
  have ho : (if 3 ≤ scopeRank sc then [] else b.held.observed) = b.held.observed := by
    split
    · next hs => exact (fence_observed h2 hs).symm
    · rfl
  have hc : (check && b.held.line.deferredPc != 0) = false := by rcases hd with h | h <;> simp [h]
  unfold withFence
  simp only [h1', Bool.false_eq_true, if_false, h2, List.isEmpty_nil, Bool.not_true, Bool.and_false, hl, hp, ho, hc]
  rw [← hb]

theorem withFence_of_released {s : State} {b : Barrel} {sc : Scope} (check : Bool) (go : State → Barrel → Result)
    (hb : s.barrel = some b) (h : Released s b sc) : withFence s b sc check go = go s b :=
  withFence_of_settled check go hb h.1 (.inr h.2)

/-- At core or cluster scope only the buffer and DEFERRED_PC count (R263). -/
theorem released_of_drained {s : State} {b : Barrel} {sc : Scope} (hs : sc = .core ∨ sc = .clu) (h : Drained s b)
    (hd : b.held.line.deferredPc = 0) : Released s b sc := by
  refine ⟨⟨h, ?_⟩, hd⟩
  rcases hs with rfl | rfl <;> simp [fenceProbes, scopeRank]

theorem enqueue_of_room {s : State} {b : Barrel} (e : SbEntry) (go : State → State) (h : HasRoom s b) :
    s.enqueue b e go = go (s.buffer b e) := by
  have h' : (s.core b.core).storeBuf.length < sbSize := h
  simp only [State.enqueue, if_pos h']; rfl

end Sys2Proof.Laws
end

