-- ==== Sys2Proof/Laws/Memory.lean ====
section
/-!
SUPPORT. Laws/Memory.lean: the laws of the memory list: reading after a write, and the canonical form that every write
keeps.
-/
namespace Sys2Proof.Laws

open Sys2Proof.Machine

theorem memWfFrom_mono {lo lo' : Nat} (h : lo' ≤ lo) : ∀ {m : List Host.Cell}, memWfFrom lo m = true → memWfFrom lo' m = true
  | [], _ => rfl
  | (k, v) :: m, hw => by
    simp only [memWfFrom, Bool.and_eq_true, decide_eq_true_eq] at hw ⊢
    exact ⟨⟨by omega, hw.1.2⟩, hw.2⟩

/-- A key below every listed key reads zero. -/
theorem memByte_below {lo : Nat} : ∀ {m : List Host.Cell}, memWfFrom lo m = true → ∀ {a}, a < lo → memByte m a = 0
  | [], _, _, _ => rfl
  | (k, v) :: m, hw, a, ha => by
    simp only [memWfFrom, Bool.and_eq_true, decide_eq_true_eq] at hw
    simp only [memByte, if_neg (show ¬ a = k by omega), if_pos (show a < k by omega)]

/-- A write reads back. -/
theorem memByte_memPut_same (b : Byte) : ∀ {lo : Nat} {m : List Host.Cell}, memWfFrom lo m = true → ∀ a,
    memByte (memPut m a b) a = b
  | lo, [], _, a => by
    by_cases hb : b = 0#8 <;> simp [memPut, memByte, hb]
  | lo, (k, v) :: m, hw, a => by
    simp only [memWfFrom, Bool.and_eq_true, decide_eq_true_eq] at hw
    by_cases h1 : a = k
    · subst h1
      by_cases hb : b = 0#8
      · simp [memPut, hb, memByte_below hw.2 (Nat.lt_succ_self _)]
      · simp [memPut, hb, memByte]
    · by_cases h2 : a < k
      · by_cases hb : b = 0#8 <;> simp [memPut, memByte, h1, h2, hb]
      · simp only [memPut, h1, if_false, h2, memByte]
        exact memByte_memPut_same b hw.2 a

/-- A write leaves every other byte. -/
theorem memByte_memPut_other (b : Byte) {a x : Nat} (hx : x ≠ a) : ∀ {lo : Nat} {m : List Host.Cell},
    memWfFrom lo m = true → memByte (memPut m a b) x = memByte m x
  | lo, [], _ => by
    by_cases hb : b = 0#8
    · simp [memPut, hb]
    · simp [memPut, hb, memByte, hx]
  | lo, (k, v) :: m, hw => by
    simp only [memWfFrom, Bool.and_eq_true, decide_eq_true_eq] at hw
    by_cases h1 : a = k
    · subst h1
      by_cases hb : b = 0#8
      · simp only [memPut, if_true, if_pos (show b = 0 from hb), memByte, if_neg hx]
        by_cases h2 : x < a
        · rw [if_pos h2, memByte_below hw.2 (by omega)]
        · rw [if_neg h2]
      · simp [memPut, hb, memByte, hx]
    · by_cases h2 : a < k
      · by_cases hb : b = 0#8
        · simp [memPut, h1, h2, hb]
        · simp only [memPut, if_neg h1, if_pos h2, if_neg (show ¬ b = 0 from hb), memByte, if_neg hx]
          by_cases h3 : x < a
          · rw [if_pos h3, if_neg (show ¬ x = k by omega), if_pos (show x < k by omega)]
          · rw [if_neg h3]
      · simp only [memPut, if_neg h1, if_neg h2, memByte]
        rw [memByte_memPut_other b hx hw.2]

theorem memPut_wf (b : Byte) {a : Nat} : ∀ {lo : Nat} {m : List Host.Cell}, lo ≤ a → memWfFrom lo m = true →
    memWfFrom lo (memPut m a b) = true
  | lo, [], ha, _ => by
    by_cases hb : b = 0#8
    · simp [memPut, hb, memWfFrom]
    · simp [memPut, hb, memWfFrom, ha]
  | lo, (k, v) :: m, ha, hw => by
    simp only [memWfFrom, Bool.and_eq_true, decide_eq_true_eq] at hw
    obtain ⟨⟨h0, hv⟩, hm⟩ := hw
    by_cases h1 : a = k
    · subst h1
      by_cases hb : b = 0#8
      · simp only [memPut, if_true, if_pos (show b = 0 from hb)]; exact memWfFrom_mono (by omega) hm
      · simp [memPut, hb, memWfFrom, h0, hm]
    · by_cases h2 : a < k
      · by_cases hb : b = 0#8
        · have hv' : ¬ v = 0#8 := hv
          simp [memPut, h1, h2, hb, memWfFrom, h0, hv', hm]
        · simp only [memPut, if_neg h1, if_pos h2, if_neg (show ¬ b = 0 from hb), memWfFrom, Bool.and_eq_true, decide_eq_true_eq]
          exact ⟨⟨ha, hb⟩, ⟨by omega, hv⟩, hm⟩
      · simp only [memPut, if_neg h1, if_neg h2, memWfFrom, Bool.and_eq_true, decide_eq_true_eq]
        exact ⟨⟨h0, hv⟩, memPut_wf b (by omega) hm⟩

/-- Every write of bytes keeps the canonical form. -/
theorem memPuts_wf : ∀ (bs : List Byte) (a : Nat) {m : List Host.Cell}, Memory.wf m = true →
    Memory.wf (memPuts m a bs) = true
  | [], _, _, h => h
  | b :: bs, a, _, h => memPuts_wf bs (a + 1) (memPut_wf b (Nat.zero_le a) h)

theorem filter_wf (p : Host.Cell → Bool) : ∀ {lo : Nat} {m : List Host.Cell}, memWfFrom lo m = true →
    memWfFrom lo (m.filter p) = true
  | lo, [], _ => rfl
  | lo, (k, v) :: m, hw => by
    simp only [memWfFrom, Bool.and_eq_true, decide_eq_true_eq] at hw
    by_cases hp : p (k, v) = true
    · simp only [List.filter, hp, memWfFrom, Bool.and_eq_true, decide_eq_true_eq]
      exact ⟨hw.1, filter_wf p hw.2⟩
    · simp only [List.filter, hp]
      exact memWfFrom_mono (by omega) (filter_wf p hw.2)

/-- Zeroing a run keeps the canonical form. -/
theorem memZero_wf (m : List Host.Cell) (a n : Nat) (h : Memory.wf m = true) : Memory.wf (memZero m a n) = true :=
  filter_wf _ h

/-- A run of bytes reads back, and every other byte stays. -/
theorem memByte_memPuts : ∀ (bs : List Byte) (a : Nat) {m : List Host.Cell}, Memory.wf m = true → ∀ x,
    memByte (memPuts m a bs) x = if a ≤ x ∧ x < a + bs.length then bs.getD (x - a) 0 else memByte m x
  | [], a, m, _, x => by
    simp only [memPuts, List.length_nil, Nat.add_zero]
    rw [if_neg (by omega)]
  | b :: bs, a, m, h, x => by
    have hw : Memory.wf (memPut m a b) = true := memPut_wf b (Nat.zero_le a) h
    simp only [memPuts]
    rw [memByte_memPuts bs (a + 1) hw]
    simp only [List.length_cons]
    by_cases hx : x = a
    · subst hx
      rw [if_neg (by omega), if_pos (by omega), memByte_memPut_same b h]
      simp
    · by_cases hr : a + 1 ≤ x ∧ x < a + 1 + bs.length
      · rw [if_pos hr, if_pos (by omega), show x - a = (x - (a + 1)) + 1 by omega]
        simp
      · rw [if_neg hr, if_neg (by omega), memByte_memPut_other b hx h]

theorem toBytes_length : ∀ n x, (toBytes n x).length = n
  | 0, _ => rfl
  | n + 1, x => by simp [toBytes, toBytes_length n]

/-- Byte k of a number. -/
theorem toBytes_getD : ∀ (n k x : Nat), k < n → (toBytes n x).getD k 0 = BitVec.ofNat 8 (x / 2 ^ (8 * k))
  | n + 1, 0, x, _ => by simp [toBytes]
  | n + 1, k + 1, x, h => by
    simp only [toBytes, List.getD_cons_succ]
    rw [toBytes_getD n k _ (by omega), Nat.div_div_eq_div_mul]
    congr 2
    rw [show 8 * (k + 1) = 8 + 8 * k by omega, Nat.pow_add]

/-- Freeing a latch leaves memory as it is, and does not look at it. -/
theorem spoil_withMem (s : State) (m : List Host.Cell) (a n : Nat) :
    ({ s with mem := m } : State).spoil a n = { s.spoil a n with mem := m } := by
  unfold State.spoil
  split
  · dsimp only [State.cluster, State.setCluster]
    split <;> rfl
  all_goals rfl

@[simp] theorem spoil_mem (s : State) (a n : Nat) : (s.spoil a n).mem = s.mem := by
  unfold State.spoil
  split
  · dsimp only [State.cluster, State.setCluster]
    split <;> rfl
  all_goals rfl

/-- Writing the bytes of a number is a store of it. -/
theorem stores_memPuts {s : State} (h : s.MemoryOk) (va n v : Nat) :
    Stores s va n v (({ s with mem := memPuts s.mem va (toBytes n v) } : State).spoil va n) := by
  refine ⟨fun k hk => ?_, fun a ha => ?_, ?_⟩
  · rw [spoil_mem]
    show memByte (memPuts s.mem va (toBytes n v)) (va + k) = _
    rw [memByte_memPuts _ _ h, toBytes_length, if_pos (by omega), show va + k - va = k by omega, toBytes_getD n k v hk]
  · rw [spoil_mem]
    show memByte (memPuts s.mem va (toBytes n v)) a = _
    rw [memByte_memPuts _ _ h, toBytes_length, if_neg (by omega)]
  · rw [spoil_withMem, ← spoil_mem s va n]

end Sys2Proof.Laws
end

