-- ==== Sys2Proof/Tests/Slice0.lean ====
section
/-!
SUPPORT. Tests/Slice0.lean: the ill-formed terms that WellFormed refuses; words written out from the tables of encodings,
with the instructions that they decode to; concrete states that meet the hypotheses of each obligation; single instructions
with results worked out by hand from the rules. No expected result comes from a run of the model.
-/
namespace Sys2Proof.Machine

set_option Elab.async false

/-! ## Ill-formed terms: one for each check of `wellFormed`, with the same term made well-formed beside it -/

theorem test_guard_1000 : wellFormed (.add ⟨true, 0⟩ 1 2 3 .none false .w64) = false ∧
    wellFormed (.add ⟨true, 1⟩ 1 2 3 .none false .w64) = true ∧ wellFormed (.ld ⟨true, 0⟩ 1 2 3 none .g false .w32) = false ∧
    wellFormed (.b ⟨true, 0⟩ 0) = false ∧ wellFormed (.trap ⟨true, 0⟩ 0) = false := by decide +kernel

theorem test_ill_formed_1 :
    [.bswap ⟨false, 0⟩ 0 0 false .w8,
      .sext ⟨false, 0⟩ 0 0 .w64,
      .zext ⟨false, 0⟩ 0 0 .w64,
      .cmpRK ⟨false, 0⟩ 0 0 .le 0,
      .vpack ⟨false, 0⟩ 0 0 0 false false .l8,
      .vpackRL ⟨false, 0⟩ 0 0 false false .l8 0,
      .fadd ⟨false, 0⟩ 0 0 0 .rsto .f32,
      .faddRL ⟨false, 0⟩ 0 0 .rsto .f32 0].map wellFormed = List.replicate 8 false ∧
    [.bswap ⟨false, 0⟩ 0 0 false .w32,
      .sext ⟨false, 0⟩ 0 0 .w32,
      .zext ⟨false, 0⟩ 0 0 .w32,
      .cmpRK ⟨false, 0⟩ 0 0 .eq 0,
      .vpack ⟨false, 0⟩ 0 0 0 false false .l16,
      .vpackRL ⟨false, 0⟩ 0 0 false false .l16 0,
      .fadd ⟨false, 0⟩ 0 0 0 .rne .f32,
      .faddRL ⟨false, 0⟩ 0 0 .rne .f32 0].map wellFormed = List.replicate 8 true := by decide +kernel

theorem test_ill_formed_2 :
    [.fsub ⟨false, 0⟩ 0 0 0 .rsto .f32,
      .fsubRL ⟨false, 0⟩ 0 0 .rsto .f32 0,
      .fmul ⟨false, 0⟩ 0 0 0 .rsto .f32,
      .fmulRL ⟨false, 0⟩ 0 0 .rsto .f32 0,
      .fdiv ⟨false, 0⟩ 0 0 0 .rsto .f32,
      .fdivRL ⟨false, 0⟩ 0 0 .rsto .f32 0,
      .fma ⟨false, 0⟩ 0 0 0 0 .rsto .f32,
      .fmaRL ⟨false, 0⟩ 0 0 0 .rsto .f32 0].map wellFormed = List.replicate 8 false ∧
    [.fsub ⟨false, 0⟩ 0 0 0 .rne .f32,
      .fsubRL ⟨false, 0⟩ 0 0 .rne .f32 0,
      .fmul ⟨false, 0⟩ 0 0 0 .rne .f32,
      .fmulRL ⟨false, 0⟩ 0 0 .rne .f32 0,
      .fdiv ⟨false, 0⟩ 0 0 0 .rne .f32,
      .fdivRL ⟨false, 0⟩ 0 0 .rne .f32 0,
      .fma ⟨false, 0⟩ 0 0 0 0 .rne .f32,
      .fmaRL ⟨false, 0⟩ 0 0 0 .rne .f32 0].map wellFormed = List.replicate 8 true := by decide +kernel

theorem test_ill_formed_3 :
    [.fsqrt ⟨false, 0⟩ 0 0 .rsto .f32,
      .fround ⟨false, 0⟩ 0 0 .rsto .f32,
      .vfma ⟨false, 0⟩ 0 0 0 0 .rsto .f32,
      .vfmaRL ⟨false, 0⟩ 0 0 0 .rsto .f32 0,
      .tfma ⟨false, 0⟩ 0 0 0 0 .rsto false,
      .tredmax ⟨false, 0⟩ 0 0 false false .rsto,
      .tredsum ⟨false, 0⟩ 0 0 false .rsto,
      .ttrans ⟨false, 0⟩ 0 0 .rsto false].map wellFormed = List.replicate 8 false ∧
    [.fsqrt ⟨false, 0⟩ 0 0 .rne .f32,
      .fround ⟨false, 0⟩ 0 0 .rne .f32,
      .vfma ⟨false, 0⟩ 0 0 0 0 .rne .f32,
      .vfmaRL ⟨false, 0⟩ 0 0 0 .rne .f32 0,
      .tfma ⟨false, 0⟩ 0 0 0 0 .rne false,
      .tredmax ⟨false, 0⟩ 0 0 false false .rne,
      .tredsum ⟨false, 0⟩ 0 0 false .rne,
      .ttrans ⟨false, 0⟩ 0 0 .rne false].map wellFormed = List.replicate 8 true := by decide +kernel

theorem test_ill_formed_4 :
    [.tfill ⟨false, 0⟩ 0 0 false .rsto false,
      .tfillRL ⟨false, 0⟩ 0 false .rsto false 0,
      .tfillRK ⟨false, 0⟩ 0 .rsto false 0,
      .vfma ⟨false, 0⟩ 0 0 0 0 .rne .f64,
      .vfmaRL ⟨false, 0⟩ 0 0 0 .rne .f64 0,
      .vfmaRK ⟨false, 0⟩ 0 0 0 .f64 0,
      .fcvtRL ⟨false, 0⟩ 0 0 0 0x100000,
      .xcvt ⟨false, 0⟩ 0 1].map wellFormed = List.replicate 8 false ∧
    [.tfill ⟨false, 0⟩ 0 0 false .rne false,
      .tfillRL ⟨false, 0⟩ 0 false .rne false 0,
      .tfillRK ⟨false, 0⟩ 0 .rne false 0,
      .vfma ⟨false, 0⟩ 0 0 0 0 .rne .f32,
      .vfmaRL ⟨false, 0⟩ 0 0 0 .rne .f32 0,
      .vfmaRK ⟨false, 0⟩ 0 0 0 .f32 0,
      .fcvtRL ⟨false, 0⟩ 0 0 0 0,
      .xcvt ⟨false, 0⟩ 0 0].map wellFormed = List.replicate 8 true := by decide +kernel

theorem test_ill_formed_5 :
    [.tdescRK ⟨false, 0⟩ 0 0 4 0,
      .tadd ⟨false, 0⟩ 0 0 0 1 .rne false,
      .tsub ⟨false, 0⟩ 0 0 0 1 .rne false,
      .tmul ⟨false, 0⟩ 0 0 0 1 .rne false,
      .tmax ⟨false, 0⟩ 0 0 0 1 .rne false,
      .tmin ⟨false, 0⟩ 0 0 0 1 .rne false,
      .tscale ⟨false, 0⟩ 0 0 1 0 .rne false,
      .tscaleRL ⟨false, 0⟩ 0 0 1 .rne false 0].map wellFormed = List.replicate 8 false ∧
    [.tdescRK ⟨false, 0⟩ 0 0 0 0,
      .tadd ⟨false, 0⟩ 0 0 0 0 .rne false,
      .tsub ⟨false, 0⟩ 0 0 0 0 .rne false,
      .tmul ⟨false, 0⟩ 0 0 0 0 .rne false,
      .tmax ⟨false, 0⟩ 0 0 0 0 .rne false,
      .tmin ⟨false, 0⟩ 0 0 0 0 .rne false,
      .tscale ⟨false, 0⟩ 0 0 0 0 .rne false,
      .tscaleRL ⟨false, 0⟩ 0 0 0 .rne false 0].map wellFormed = List.replicate 8 true := by decide +kernel

theorem test_ill_formed_6 :
    [.tcvt ⟨false, 0⟩ 0 0 1 .rne false,
      .tscaleRK ⟨false, 0⟩ 0 0 1 .rne false 0,
      .tscaleRK ⟨false, 0⟩ 0 0 0 .rup false 0,
      .tfillRK ⟨false, 0⟩ 0 .rup false 0,
      .ld ⟨false, 0⟩ 0 0 0 none .g true .w64,
      .ldRL ⟨false, 0⟩ 0 0 none .g true .w64 0,
      .ldb ⟨false, 0⟩ 0 0 0 0 .g true .w64,
      .ldbRL ⟨false, 0⟩ 0 0 0 .g true .w64 0].map wellFormed = List.replicate 8 false ∧
    [.tcvt ⟨false, 0⟩ 0 0 0 .rne false,
      .tscaleRK ⟨false, 0⟩ 0 0 0 .rne false 0,
      .tscaleRK ⟨false, 0⟩ 0 0 0 .rne false 0,
      .tfillRK ⟨false, 0⟩ 0 .rne false 0,
      .ld ⟨false, 0⟩ 0 0 0 none .g false .w32,
      .ldRL ⟨false, 0⟩ 0 0 none .g false .w32 0,
      .ldb ⟨false, 0⟩ 0 0 0 0 .g false .w32,
      .ldbRL ⟨false, 0⟩ 0 0 0 .g false .w32 0].map wellFormed = List.replicate 8 true := by decide +kernel

theorem test_ill_formed_7 :
    [.ld2 ⟨false, 0⟩ 1 0 0 none .g,
      .ld2RL ⟨false, 0⟩ 1 0 none .g 0,
      .ld2RK ⟨false, 0⟩ 1 0 0,
      .ld2RI ⟨false, 0⟩ 1 0 0,
      .st2 ⟨false, 0⟩ 1 0 0 none .g,
      .st2RL ⟨false, 0⟩ 1 0 none .g 0,
      .st2RK ⟨false, 0⟩ 1 0 0,
      .st2RI ⟨false, 0⟩ 1 0 0].map wellFormed = List.replicate 8 false ∧
    [.ld2 ⟨false, 0⟩ 0 0 0 none .g,
      .ld2RL ⟨false, 0⟩ 0 0 none .g 0,
      .ld2RK ⟨false, 0⟩ 0 0 0,
      .ld2RI ⟨false, 0⟩ 0 0 0,
      .st2 ⟨false, 0⟩ 0 0 0 none .g,
      .st2RL ⟨false, 0⟩ 0 0 none .g 0,
      .st2RK ⟨false, 0⟩ 0 0 0,
      .st2RI ⟨false, 0⟩ 0 0 0].map wellFormed = List.replicate 8 true := by decide +kernel

theorem test_ill_formed_8 :
    [.axadd ⟨false, 0⟩ 1 0 0 .none .f32,
      .axaddRL ⟨false, 0⟩ 1 0 .none .f32 0,
      .ldq ⟨false, 0⟩ 0 0 0 none false .i8,
      .ldq ⟨false, 0⟩ 0 0 0 none false .acc,
      .ldqRL ⟨false, 0⟩ 0 0 none false .i8 0,
      .ldqRL ⟨false, 0⟩ 0 0 none false .acc 0,
      .acas ⟨false, 0⟩ 1 0 0 0 .none .w128,
      .acas ⟨false, 0⟩ 0 0 1 0 .none .w128].map wellFormed = List.replicate 8 false ∧
    [.axadd ⟨false, 0⟩ 0 0 0 .none .f32,
      .axaddRL ⟨false, 0⟩ 0 0 .none .f32 0,
      .ldq ⟨false, 0⟩ 0 0 0 none false .f16,
      .ldq ⟨false, 0⟩ 0 0 0 none false .f16,
      .ldqRL ⟨false, 0⟩ 0 0 none false .f16 0,
      .ldqRL ⟨false, 0⟩ 0 0 none false .f16 0,
      .acas ⟨false, 0⟩ 0 0 0 0 .none .w32,
      .acas ⟨false, 0⟩ 0 0 0 0 .none .w32].map wellFormed = List.replicate 8 true := by decide +kernel

theorem test_ill_formed_9 :
    [.acas ⟨false, 0⟩ 0 0 0 1 .none .w128,
      .acasRL ⟨false, 0⟩ 0 0 0 .none .w128 0,
      .sarm ⟨false, 0⟩ 0 0 1 0 .g true 0,
      .sarm ⟨false, 0⟩ 0 0 0 1 .g true 0,
      .sarmRL ⟨false, 0⟩ 0 0 1 .g true 0 0,
      .cpyg ⟨false, 0⟩ 0 0 0 1 0,
      .tload ⟨false, 0⟩ 0 0 1 0 true 0,
      .tload ⟨false, 0⟩ 0 0 0 1 true 0].map wellFormed = List.replicate 8 false ∧
    [.acas ⟨false, 0⟩ 0 0 0 0 .none .w32,
      .acasRL ⟨false, 0⟩ 0 0 0 .none .w32 0,
      .sarm ⟨false, 0⟩ 0 0 0 0 .g false 0,
      .sarm ⟨false, 0⟩ 0 0 0 0 .g false 0,
      .sarmRL ⟨false, 0⟩ 0 0 0 .g false 0 0,
      .cpyg ⟨false, 0⟩ 0 0 0 0 0,
      .tload ⟨false, 0⟩ 0 0 0 0 false 0,
      .tload ⟨false, 0⟩ 0 0 0 0 false 0].map wellFormed = List.replicate 8 true := by decide +kernel

theorem test_ill_formed_10 :
    [.tloadRL ⟨false, 0⟩ 0 0 1 true 0 0,
      .halt ⟨false, 0⟩ 1 false,
      .wsr ⟨false, 0⟩ 0 .cycle,
      .wsrRL ⟨false, 0⟩ .slottab0 0].map wellFormed = List.replicate 4 false ∧
    [.tloadRL ⟨false, 0⟩ 0 0 0 false 0 0,
      .halt ⟨false, 0⟩ 0 false,
      .wsr ⟨false, 0⟩ 0 .feLimit,
      .wsrRL ⟨false, 0⟩ .feLimit 0].map wellFormed = List.replicate 4 true := by decide +kernel

/-! ## Words that the spec writes out (chapters 6 to 11, 13, 14 and the programs) -/

theorem test_words_1 :
    decodeTableWord 32 0x02014C11 = some (.add ⟨false, 0⟩ 1 2 3 .cio false .w32) ∧
    decodeTableWord 64 (0x02848000 + 0x100 * 2 ^ 32) = some (.addRL ⟨false, 0⟩ 4 4 .none false .w64 0x100) ∧
    decodeTableWord 32 0x0305A004 = some (.addRK ⟨false, 0⟩ 5 5 .w64 1) ∧
    decodeTableWord 32 0x0386DFFD = some (.addRI ⟨false, 0⟩ 6 6 0x1FFD) ∧
    decodeTableWord 64 (0x0484801C + 0x80000000 * 2 ^ 32) = some (.subRL ⟨false, 0⟩ 4 4 .sat true .w64 0x80000000) ∧
    decodeTableWord 64 (0x36838006 + 0x3E8 * 2 ^ 32) = some (.cmpRL ⟨false, 0⟩ 3 4 false .w64 .ltu 1000) ∧
    decodeTableWord 32 0x3005CC01 = some (.popc ⟨false, 0⟩ 5 6 .w32) ∧
    decodeTableWord 32 0x338151C8 = some (.extRI ⟨false, 0⟩ 1 2 0x11C8) := by decide +kernel

theorem test_words_2 :
    decodeTableWord 64 (0x3A814181 + 0x5 * 2 ^ 32) = some (.selRL ⟨false, 0⟩ 1 2 3 true 5) ∧
    decodeTableWord 32 0x4E014E02 = some (.vdot ⟨false, 0⟩ 1 2 3 4 false .l8) ∧
    decodeTableWord 32 0x59832000 = some (.randRI ⟨false, 0⟩ 3 1 0) ∧
    decodeTableWord 32 0xE200000A = some (.call ⟨false, 0⟩ 10) ∧
    decodeTableWord 32 0xE405FFFA = some (.dbnz ⟨false, 0⟩ 5 0xFFFA) ∧
    decodeTableWord 32 0xE6000040 = some (.ret ⟨false, 0⟩ false) ∧
    decodeTableWord 32 0xE6000041 = some (.ret ⟨false, 0⟩ true) ∧
    decodeTableWord 32 0x60014C00 = some (.fadd ⟨false, 0⟩ 1 2 3 .rne .f32) := by decide +kernel

theorem test_words_3 :
    decodeTableWord 32 0x60014C05 = some (.fadd ⟨false, 0⟩ 1 2 3 .rtz .f64) ∧
    decodeTableWord 64 (0x66842800 + 0x3F800000 * 2 ^ 32) = some (.fmaRL ⟨false, 0⟩ 4 1 2 .rne .f32 0x3F800000) ∧
    decodeTableWord 32 0x74022808 = some (.fcmp ⟨false, 0⟩ 2 1 2 .lt .f32) ∧
    decodeTableWord 64 (0x78823400 + 0xC2909 * 2 ^ 32) = some (.fcvtRL ⟨false, 0⟩ 2 1 5 0x000C2909) ∧
    decodeTableWord 32 0xFD13FC00 = some (.fmai 2 1 0x3FC00) ∧
    decodeTableWord 32 0x86032800 = some (.tadd ⟨false, 0⟩ 3 1 2 0 .rne false) ∧
    decodeTableWord 32 0xA0032A00 = some (.mxm ⟨false, 0⟩ 3 1 2 4 false false) ∧
    decodeTableWord 64 (0xA0832800 + 0x302 * 2 ^ 32) = some (.mxmRL ⟨false, 0⟩ 3 1 2 false false 0x302) := by decide +kernel

theorem test_words_4 :
    decodeTableWord 32 0xA2052A02 = some (.mxmz ⟨false, 0⟩ 5 1 2 4 true false) ∧
    decodeTableWord 32 0xA4004001 = some (.mxflush ⟨false, 0⟩ 2 true) ∧
    decodeTableWord 64 (0xA6866000 + 0xFFFFFFEC * 2 ^ 32) = some (.mxnormRL ⟨false, 0⟩ 6 3 0xFFFFFFEC) ∧
    decodeTableWord 32 0xA6076041 = some (.mxexp ⟨false, 0⟩ 7 3 true) ∧
    decodeTableWord 32 0xA8014C05 = some (.ld ⟨false, 0⟩ 1 2 3 none .g true .w32) ∧
    decodeTableWord 32 0xA9814010 = some (.ldRI ⟨false, 0⟩ 1 2 16) ∧
    decodeTableWord 32 0xAB814010 = some (.stRI ⟨false, 0⟩ 1 2 16) ∧
    decodeTableWord 64 (0xAA844200 + 0x100 * 2 ^ 32) = some (.stRL ⟨false, 0⟩ 4 2 (some .dev) .g .w64 0x100) := by decide +kernel

theorem test_words_5 :
    decodeTableWord 32 0xB002380C = some (.ldq ⟨false, 0⟩ 2 1 6 none false .e4m3) ∧
    decodeTableWord 64 (0xB2814C01 + 0x3E8 * 2 ^ 32) = some (.ldbRL ⟨false, 0⟩ 1 2 3 .g false .w32 0x3E8) ∧
    decodeTableWord 64 (0xB4838001 + 0x8 * 2 ^ 32) = some (.ldfeRL ⟨false, 0⟩ 3 4 false .l 8) ∧
    decodeTableWord 32 0xC4014C00 = some (.amin ⟨false, 0⟩ 1 2 3 .none .w64) ∧
    decodeTableWord 32 0xC4014C40 = some (.amax ⟨false, 0⟩ 1 2 3 .none .w64) ∧
    decodeTableWord 32 0xCA023302 = some (.acas ⟨false, 0⟩ 2 1 4 6 .none .w128) ∧
    decodeTableWord 32 0xCE045801 = some (.axadd ⟨false, 0⟩ 4 2 6 .none .f32) ∧
    decodeTableWord 32 0xD0000003 = some (.fence ⟨false, 0⟩ .die) := by decide +kernel

theorem test_words_6 :
    decodeTableWord 32 0xD2035040 = some (.barc ⟨false, 0⟩ 3 2 4) ∧
    decodeTableWord 32 0xD4023400 = some (.swait ⟨false, 0⟩ 2 1 5) ∧
    decodeTableWord 64 (0xD4822000 + 0x9 * 2 ^ 32) = some (.swaitRL ⟨false, 0⟩ 2 1 9) ∧
    decodeTableWord 64 (0xD8814C05 + 0x1000 * 2 ^ 32) = some (.cpyRL ⟨false, 0⟩ 1 2 3 5 0x1000) ∧
    decodeTableWord 32 0xDC032040 = some (.jwait ⟨false, 0⟩ 3 1) ∧
    decodeTableWord 32 0xDE032000 = some (.jcancel ⟨false, 0⟩ 3 1) ∧
    decodeTableWord 64 (0xE8814C14 + 0x120044 * 2 ^ 32) = some (.spawnRL ⟨false, 0⟩ 1 2 3 .clu 4 0x00120044) ∧
    decodeTableWord 32 0xE8014E94 = some (.spawn ⟨false, 0⟩ 1 2 3 5 .clu 4) := by decide +kernel

theorem test_words_7 :
    decodeTableWord 64 (0xE885C042 + 0x1 * 2 ^ 32) = some (.launchRL ⟨false, 0⟩ 5 6 2 1) ∧
    decodeTableWord 32 0xEA027001 = some (.qpush ⟨false, 0⟩ 2 3 4 1) ∧
    decodeTableWord 32 0xEA026041 = some (.qpop ⟨false, 0⟩ 2 3 1) ∧
    decodeTableWord 32 0xEC000000 = some (.done ⟨false, 0⟩) ∧
    decodeTableWord 32 0xEC000020 = some (.waitc ⟨false, 0⟩) ∧
    decodeTableWord 32 0xEC000040 = some (.yield ⟨false, 0⟩) ∧
    decodeTableWord 32 0xEC000060 = some (.halt ⟨false, 0⟩ 0 false) ∧
    decodeTableWord 32 0xEC006061 = some (.halt ⟨false, 0⟩ 3 true) := by decide +kernel

theorem test_words_8 :
    decodeTableWord 64 (0xEE800000 + 0x3E8 * 2 ^ 32) = some (.sleepRL ⟨false, 0⟩ 1000) ∧
    decodeTableWord 64 (0xEE810040 + 0x14 * 2 ^ 32) = some (.prioRL ⟨false, 0⟩ 1 20) ∧
    decodeTableWord 32 0xF0010004 = some (.rsr ⟨false, 0⟩ 1 .cycle) ∧
    decodeTableWord 32 0xF0000848 = some (.wsr ⟨false, 0⟩ 2 .ctxl1Limit) ∧
    decodeTableWord 64 (0xF080004A + 0x100000 * 2 ^ 32) = some (.wsrRL ⟨false, 0⟩ .feLimit 0x00100000) ∧
    decodeTableWord 64 (0xF2800000 + 0x7 * 2 ^ 32) = some (.trapRL ⟨false, 0⟩ 7) ∧
    decodeTableWord 32 0xF2006020 = some (.wake ⟨false, 0⟩ 3) ∧
    decodeTableWord 32 0xF2016040 = some (.kill ⟨false, 0⟩ 1 3) := by decide +kernel

theorem test_words_9 :
    decodeTableWord 32 0xF2016060 = some (.resume ⟨false, 0⟩ 1 3) ∧
    decodeTableWord 32 0xF4004C00 = some (.slotw ⟨false, 0⟩ 2 3) ∧
    decodeTableWord 32 0xF4004C20 = some (.plbi ⟨false, 0⟩ 2 3) ∧
    decodeTableWord 32 0xF4000C40 = some (.tlbi ⟨false, 0⟩ 3) ∧
    decodeTableWord 32 0xF4015063 = some (.pmig ⟨false, 0⟩ 1 2 4 3) ∧
    decodeTableWord 32 0xF6004001 = some (.ovl ⟨false, 0⟩ 2 true) ∧
    decodeTableWord 64 (0xF6850040 + 0x2 * 2 ^ 32) = some (.ovlqRL ⟨false, 0⟩ 5 2) := by decide +kernel

theorem test_illegal_words : ∀ w ∈ [0x00000000, 0xE6000060, 0x3680000A, 0xA0032A04, 0xA8014C04, 0xAC034C00, 0xD0000005, 0xF2800020],
    decodeTableWord 64 (w + 2 ^ 32) = none := by decide +kernel

/-! ## Concrete states

`tLine r` is a RESIDENT context of domain 0 in partition 0 with general registers r; `tBarrel l` issues an instruction from
entry 0 of core 0, with four words of constants; `tState l` holds that barrel, a PLB entry with every right on every
address, and a pool of 64 contexts at 0x100000, of which the issuing one is the first. -/

def tRights : PlbEntry := 0x000000FC0000001F0000000000000000#128

def tLine (r : Regs) : Line :=
  { regs := r, pc := 4, pred := 0, waitTag := 0, status := 2, control := 0xF000000#64, link := 0, parent := 0,
    joinCount := 0, deferredPc := 0, user := 0, tag := 0, gen := 0, rsvd := 0 }

def tHeld (l : Line) : Held :=
  { va := 0x100000, line := l, parkedAt := 0, issuedAt := 0, draining := false, ending := .toReady, records := [],
    fenced := none, overran := false, skip := false, gang := false, ports := [], popped := none, kept := none, observed := [] }

def tBarrel (l : Line) : Barrel :=
  { core := 0, entry := 0, held := tHeld l, image := 0x00FE000000000000, length := 1024, constWords := 4, word := 0, next := 8 }

/-- Overlay 0 in granule 0. -/
def tSlot : Slot :=
  { domain := 0, overlay := 0, count := 1, first := 0, state := .executable, length := 1024, constWords := 4, lastFetch := 0 }

def tCore : CoreState := { CoreState.reset with plb := [(0, tRights)], slots := [(0, tSlot)] }

def tState (l : Line) : State :=
  { State.reset with barrel := some (tBarrel l), cores := [(0, tCore)],
                     regs := { DevRegs.reset with ctxPoolBase := 0x100000, ctxPoolCount := 64 } }

/-- A register file with one register set. -/
def tReg0 (v : Word64) : Regs := ⟨v, 0, 0, 0, 0, 0, 0, 0⟩

/-- The guard that always holds. -/
def tAlways : Guard := ⟨false, 0⟩

/-- Registers of a memory access: g0 a CLM address of the own core past the code partition, g1 of a TSP data word, g2 of
the paged space, g3 of a hole, g4 of the register window, g5 a misaligned CLM address, g6 a descriptor of a TSP, g7 beyond
the address space. -/
def tMem : Line :=
  tLine ⟨0x00FE000000010000, 0x00FD000000000040, 0x200000, 0x00FDF00000000000, 0x00FC000000000000, 0x00FE000000010001,
    0x00FD000000078000, 0x0100000000000000⟩

/-! ## Witnesses: register instructions (IntegerArithmetic to FloatLaws, RegisterOnlyFrame, GuardRule) -/

/-- An instruction runs, with the last constant of its bank; the first index past it is out of the bank. -/
theorem witness_register_instructions :
    Runs (tState (tLine (tReg0 5))) (tBarrel (tLine (tReg0 5))) tAlways ∧ InBank (tState (tLine (tReg0 5))) (tBarrel (tLine (tReg0 5))) 3 ∧
    (tBarrel (tLine (tReg0 5))).constWords ≤ (4#8).toNat ∧ (tState (tLine (tReg0 5))).barrel = some (tBarrel (tLine (tReg0 5))) ∧
    guardHolds (tLine (tReg0 5)) ⟨true, 1⟩ = true ∧ guardHolds (tLine (tReg0 5)) ⟨false, 1⟩ = false ∧
    (Instr.addRK tAlways 1 2 .w64 4).constIndex = some 4 ∧ (Instr.add tAlways 1 2 3 .none false .w64).registerOnly = true := by
  (try simp only [Runs, InBank]) <;> decide +kernel

/-- A conversion specification in a register and in the word, and an invalid one (ConvertResult, ConvertIllegal). -/
theorem witness_convert :
    Runs (tState (tLine (tReg0 0x000C2909))) (tBarrel (tLine (tReg0 0x000C2909))) tAlways ∧ Fmt.f32 ≠ .acc ∧
    ((tLine (tReg0 0x000C2909)).reg 0).setWidth 32 = BitVec.ofNat 32 (Fmt.f32.code + (Fmt.b8 2 false true).code * 2 ^ 8 +
      Rm.code .rsto * 2 ^ 16 + 1 * 2 ^ 19) ∧ fcvtSpecValid 0x000C2909 = true ∧ fcvtSpecValid 0x00100000 = false ∧
    constWord (tState (tLine (tReg0 0))) (tBarrel (tLine (tReg0 0))) 0 = BitVec.ofNat 32 (Fmt.i8.code + Fmt.i8.code * 2 ^ 8) := by
  (try simp only [Runs]) <;> decide +kernel

/-- Rounding of the largest code of binary16 that is no NaN (FloatLaws). -/
theorem witness_rounding : (0x7C00 : Nat) < 2 ^ FFmt.f16.fmt.params.size ∧
    decodeFloat FFmt.f16.fmt.params 0x7C00 ≠ .nan ∧
    roundF FFmt.f16.fmt.params (decodeFloat FFmt.f16.fmt.params 0x7C00) .rtz true 0 = (0x7C00, FpFlags.none) := by decide +kernel

/-- Writing p7 (PredicateWrite). -/
theorem witness_predicate : (7 : PReg) ≠ 0 ∧ (6 : PReg) ≠ 7 ∧ ((tLine (tReg0 0)).setPredicate 7 true).predicate 7 = true := by
  decide +kernel

/-! ## Witnesses: branches, calls and returns -/

/-- JumpResult and LoopResult: a target that stands and one that stops at each check; a register above and below 2^32; a
loop counter of 1 and another. -/
theorem witness_branches :
    let l := tLine ⟨1, 0xFFFFFFFF, 0x100000000, 8, 2, 0, 0, 0⟩
    let s := { tState l with mem := memPuts [] 0x00FE000000000000 [1] }
    Runs s (tBarrel l) tAlways ∧ l.reg 0 = 1 ∧ l.reg 4 ≠ 1 ∧ (l.reg 1).toNat < 2 ^ 32 ∧ 2 ^ 32 ≤ (l.reg 2).toNat ∧
    branchStop s (tBarrel l) 0 4 = none ∧ branchStop s (tBarrel l) 0 1020 = none ∧
    (branchStop s (tBarrel l) 0 6).isSome = true ∧ (branchStop s (tBarrel l) 1 4).isSome = true ∧
    (branchStop s (tBarrel l) 0 (-4)).isSome = true ∧ (branchStop s (tBarrel l) 0 1024).isSome = true ∧
    (branchStop s (tBarrel l) 0 64).isSome = true := by
  (try simp only [Runs]) <;> decide +kernel

/-- CallResult and ReturnResult: LINK in the own CLM; a misaligned LINK. -/
theorem witness_call_near :
    let l := { tLine (tReg0 0) with link := 0x00FE000000010008 }
    let s := tState l
    Runs s (tBarrel l) tAlways ∧ s.MemoryOk ∧ Drained s (tBarrel l) ∧ l.link.toNat % 8 = 0 ∧
    Reaches s (tBarrel l) .g 0x00FE000000010000 8 0x00FE000000010000 rightsW ∧ OwnWord s (tBarrel l) 0x00FE000000010000 ∧
    Reaches s (tBarrel l) .g l.link.toNat 8 l.link.toNat rightsR ∧ targetOf l.link.toNat = .clm 0 0x10008 ∧
    s.anyPoison l.link.toNat 8 = false ∧ forwardFrom 0x100000 l.link.toNat 8 (s.core 0).storeBuf = .none ∧
    ({ l with link := l.link + 4 }).link.toNat % 8 ≠ 0 := by
  refine ⟨?_, ?_, ?_, ?_, ?_, ⟨0x10000, ?_⟩, ?_, ?_⟩ <;>
    (try simp only [Runs, State.MemoryOk, Drained, Reaches, Allowed]) <;> decide +kernel

/-- CallParks and CallFaults: LINK in the paged space, in a register block, in the own CLM with an undrained buffer and in its
code partition; a full store buffer whose head waits for no page, and one whose head a page holds. -/
theorem witness_call_parks :
    let l := fun (k : Word64) => { tLine ⟨0x100000004, 0, 0, 0, 0, 0, 0, 0⟩ with link := k }
    let b := fun (k : Word64) => tBarrel (l k)
    let near := 0x00FE000000010008#64
    let e : SbEntry := { who := (b near).who, va := 0x200000, size := 8, op := .load, reply := .nothing, posted := true, acq := false }
    let s := fun (k : Word64) (n : Nat) (p : SbPhase) =>
      (tState (l k)).setCore 0 { tCore with storeBuf := List.replicate n e, sbPhase := p }
    Runs (s 0x200008 0 .idle) (b 0x200008) tAlways ∧
    (Reaches (s 0x200008 0 .idle) (b 0x200008) .g 0x200000 8 0x200000 rightsW ∧ Plain 0x200000 ∧
      HasRoom (s 0x200008 31 .idle) (b 0x200008) ∧ ¬HasRoom (s 0x200008 32 .idle) (b 0x200008) ∧
      HeadHeld (s 0x200008 32 (.page 2)) (b 0x200008) 2 0x200000 ∧
      ¬∃ cls va, HeadHeld (s 0x200008 32 .idle) (b 0x200008) cls va) ∧
    (Reaches (s 0x00FC000000000008 0 .idle) (b 0x00FC000000000008) .g 0x00FC000000000000 8 0x00FC000000000000 rightsW ∧
      targetOf 0x00FC000000000000 = .reg 0 0) ∧
    (Reaches (s near 1 .idle) (b near) .g 0x00FE000000010000 8 0x00FE000000010000 rightsW ∧ ¬Drained (s near 1 .idle) (b near) ∧
      Plain 0x00FE000000010000) ∧
    (Reaches (s 0x00FE000000000008 0 .idle) (b 0x00FE000000000008) .g 0x00FE000000000000 8 0x00FE000000000000 rightsW ∧
      Drained (s 0x00FE000000000008 0 .idle) (b 0x00FE000000000008) ∧
      (s 0x00FE000000000008 0 .idle).inCode 0 0 = true ∧ targetOf 0x00FE000000000000 = .clm 0 0) ∧
    2 ^ 32 ≤ ((l near).reg 0).toNat := by
  refine ⟨?_, ⟨?_, .inl ?_, ?_, ?_, ⟨?_, ⟨_, _, rfl, ?_⟩⟩, ?_⟩, ?_, ⟨?_, ?_, .inr (.inl ⟨0, 0x10000, ?_⟩)⟩, ?_, ?_⟩ <;>
    (try simp only [Runs, Reaches, Allowed, HasRoom, Drained]) <;>
    first
      | decide +kernel
      | (rintro ⟨c, v, h, -⟩
         exact absurd (show SbPhase.idle = .page c from h) nofun)

/-- What a near word gives at once, once its bank is granted. -/
theorem sees_near {s : State} {b : Barrel} {y : Space} {ea n va v : Nat} (h : Reaches s b y ea n va rightsR)
    (f : Unbuffered s b va n) (near : Near b va) (p : s.anyPoison va n = false) (g : (s.granted b va n).isSome = true)
    (e : v = memNat s.mem va n) : ∃ t, Sees s b y ea n va v t :=
  have ⟨t, ht⟩ := Option.isSome_iff_exists.mp g
  ⟨t, h, .inl ⟨f, near, ht, p, e⟩⟩

/-- ReturnResult: LINK in the own CLM, poisoned or not, its bytes in the store buffer in part or whole; in another core's CLM and
in the paged space, where a cache holds the line, poisoned or not, and where none does, with and without a popped reply. -/
theorem witness_returns :
    let l := fun (k : Word64) => { tLine (tReg0 0) with link := k }
    let own := 0x00FE000000010008
    let b := fun (k : Nat) => tBarrel (l (BitVec.ofNat 64 k))
    let s := fun (k : Nat) => tState (l (BitVec.ofNat 64 k))
    let e : SbEntry := { who := (b own).who, va := own, size := 4, op := .store [0, 0, 0, 0], reply := .nothing, posted := true, acq := false }
    let part := (s own).buffer (b own) e
    let all := (s own).buffer (b own) { e with size := 8, op := .store (toBytes 8 4) }
    let hit : SecCopy := { st := .s, data := 5 }
    let t := (s 0x200008).setCluster 0 { ClusterState.reset with l1d := [(0x2000, { sectors := ⟨hit, hit, hit, hit⟩, used := 0 })] }
    let far := 0x00FE000100010008
    Runs (s own) (b own) tAlways ∧ Reaches (s own) (b own) .g own 8 own rightsR ∧ Unbuffered (s own) (b own) own 8 ∧
    Near (b own) own ∧ (s own).granted (b own) own 8 = some (s own) ∧ (s own).anyPoison own 8 = false ∧
    ({ s own with poison := [own / 64 * 64] } : State).anyPoison own 8 = true ∧
    forwardFrom 0x100000 own 8 (part.core 0).storeBuf = .part ∧
    forwardFrom 0x100000 own 8 (all.core 0).storeBuf = .bytes (toBytes 8 4) ∧
    (Reaches (s far) (b far) .g far 8 far rightsR ∧ Far (s far) (b far) far 8) ∧
    (Reaches (s 0x200008) (b 0x200008) .g 0x200008 8 0x200008 rightsR ∧ targetOf 0x200008 = .paged ∧
      (s 0x200008).cachedRead 0 0x200008 = none ∧ (t.cachedRead 0 0x200008).isSome = true ∧ t.linePoison 0 0x200008 = false) ∧
    (b far).held.popped ≠ some (far, 4) ∧ ({ (b far).held with popped := some (far, 4) } : Held).popped = some (far, 4) := by
  refine ⟨?_, ?_, ?_, .inl ⟨0x10008, ?_⟩, ?_, ?_, ?_, ?_, ?_, ⟨?_, .inl ⟨4096, 0x10008, ?_⟩⟩, ?_⟩ <;>
    (try simp only [Runs, Reaches, Allowed, Unbuffered]) <;> decide +kernel

/-! ## Witnesses: accesses -/

/-- LoadResult: a near word of the CLM, one at the last doubleword of the own CLM under SPACE l, one at the last words of the
TSP's data under SPACE t, one forwarded from the store buffer; the sentinel, the bound and the last index below it of `ldb`. -/
theorem witness_loads :
    let s := tState tMem
    let b := tBarrel tMem
    let e : SbEntry := { who := b.who, va := 0x00FE000000010000, size := 8, op := .store (toBytes 8 7), reply := .nothing,
                         posted := true, acq := false }
    Runs s b tAlways ∧ (∃ t, Sees s b .g 0x00FE000000010000 8 0x00FE000000010000 0 t) ∧
    (∃ t, Sees s b .l 0x17FF8 8 0x00FE000000017FF8 0 t) ∧ (∃ t, Sees s b .t 0x77FF0 16 0x00FD000000077FF0 0 t) ∧
    Sees (s.buffer b e) b .g 0x00FE000000010000 8 0x00FE000000010000 7 (s.buffer b e) ∧ Runs (s.buffer b e) b tAlways ∧
    (0xFFFFFFFF : Nat) ≠ 4 ∧ (4 : Nat) < 5 ∧ (5 : Nat) ≤ 5 := by
  refine ⟨?_, sees_near ?_ ?_ (.inl ⟨0x10000, ?_⟩) ?_ ?_ ?_, sees_near ?_ ?_ (.inl ⟨0x17FF8, ?_⟩) ?_ ?_ ?_,
    sees_near ?_ ?_ (.inr ⟨0x77FF0, ?_⟩) ?_ ?_ ?_, ⟨?_, .inr ⟨.inr (.inl ⟨0, 0x10000, ?_⟩), rfl, toBytes 8 7, ?_⟩⟩, ?_⟩ <;>
    (try simp only [Runs, Reaches, Allowed, State.buffer, Unbuffered]) <;> decide +kernel

/-- LoadParks: bytes that the store buffer holds in part; another core's CLM, another cluster's TSP, a word of the own TSP
whose bank another port has, a register block; a poisoned near word. -/
theorem witness_load_parks :
    let s := tState tMem
    let b := tBarrel tMem
    let va := 0x00FE000000010000
    let own := 0x00FD000000000040
    let e : SbEntry := { who := b.who, va := va, size := 4, op := .store [1, 2, 3, 4], reply := .nothing, posted := true, acq := false }
    let k : ClusterState := { ClusterState.reset with arb := { ClusterState.reset.arb with cycle := 0, granted := (tspBanks 0x40 8).map fun b => (b, 1) } }
    let p : State := { s with poison := [va] }
    Runs s b tAlways ∧ Runs (s.buffer b e) b tAlways ∧ Reaches (s.buffer b e) b .g va 8 va rightsR ∧ Plain va ∧
    forwardFrom 0x100000 va 8 ((s.buffer b e).core 0).storeBuf = .part ∧
    (Reaches s b .g 0x00FE000100010000 8 0x00FE000100010000 rightsR ∧ Far s b 0x00FE000100010000 8) ∧
    (Reaches s b .g 0x00FD000100000000 16 0x00FD000100000000 rightsR ∧ Far s b 0x00FD000100000000 16) ∧
    (Reaches (s.setCluster 0 k) b .g own 8 own rightsR ∧ Far (s.setCluster 0 k) b own 8 ∧ Unbuffered s b own 8) ∧
    (Reaches s b .g 0x00FC000000000000 8 0x00FC000000000000 rightsR ∧ Far s b 0x00FC000000000000 8) ∧
    (Runs p b tAlways ∧ Reaches p b .g va 8 va rightsR ∧ Near b va ∧ p.granted b va 8 = some p ∧ p.anyPoison va 8 = true) := by
  refine ⟨?_, ?_, ?_, .inr (.inl ⟨0, 0x10000, ?_⟩), ?_, ⟨?_, .inl ⟨4096, 0x10000, ?_⟩⟩,
    ⟨?_, .inr (.inl ⟨512, 0, ?_, ?_, .inl ?_⟩)⟩, ⟨?_, .inr (.inl ⟨0, 0x40, ?_, ?_, .inr ?_⟩), ?_⟩, ⟨?_, .inr (.inr ⟨0, 0, ?_⟩)⟩,
    ⟨?_, ?_, .inl ⟨0x10000, ?_⟩, ?_⟩⟩ <;>
    (try simp only [Runs, Reaches, Allowed, State.buffer, Unbuffered]) <;> decide +kernel

/-- SubscribedAndPagedLoads: a paged address that no cache holds, one that a store pending at its home covers, one that the
data L1 holds in S, poisoned or not; a near word for `ldq`. -/
theorem witness_paged_loads :
    let s := tState tMem
    let b := tBarrel tMem
    let hit : SecCopy := { st := .s, data := 5 }
    let t := s.setCluster 0 { ClusterState.reset with l1d := [(0x2000, { sectors := ⟨hit, hit, hit, hit⟩, used := 0 })] }
    let near := 0x00FE000000010000
    let r : Req := { who := b.who, va := 0x200000, size := 8, op := .store (toBytes 8 7), reply := .nothing,
                     phase := .acks 0x2000000 0 0, posted := true, acq := false, heldUntil := 0, via := none }
    let p : State := { s with reqs := [r] }
    Runs s b tAlways ∧ Reaches s b .g 0x200000 8 0x200000 rightsR ∧ targetOf 0x200000 = .paged ∧ Unbuffered s b 0x200000 8 ∧
    s.cachedRead 0 0x200000 = none ∧ s.pendingStore 0 0x200000 8 = none ∧
    Runs p b tAlways ∧ p.cachedRead 0 0x200000 = none ∧ p.pendingStore 0 0x200000 8 = some (toBytes 8 7) ∧
    Runs t b tAlways ∧ Reaches t b .g 0x200000 8 0x200000 rightsR ∧ (t.cachedRead 0 0x200000).isSome = true ∧
    t.linePoison 0 0x200000 = false ∧ Reaches s b .g near 4 near rightsRS ∧ Unbuffered s b near 4 ∧
    s.granted b near 4 = some s ∧ s.anyPoison near 4 = false ∧ Near b near := by
  refine ⟨?_, ?_, ?_, ?_, ?_, ?_, ?_, ?_, ?_, ?_, ?_, ?_, ?_, ?_, ?_, ?_, ?_, .inl ⟨0x10000, ?_⟩⟩ <;>
    (try simp only [Runs, Reaches, Allowed, Unbuffered]) <;> decide +kernel

/-- StoreResult: a plain target with a buffer that has room and one that is full, a register, a code word under SPACE l, and
what a release waits for. -/
theorem witness_stores :
    let s := tState tMem
    let b := tBarrel tMem
    let e : SbEntry := { who := b.who, va := 0x200000, size := 8, op := .load, reply := .nothing, posted := true, acq := false }
    let full := s.setCore 0 { tCore with storeBuf := List.replicate 32 { e with who := { b.who with ctx := 0 } } }
    Runs s b tAlways ∧ HasRoom s b ∧ Released s b .sys ∧ Reaches s b .g 0x200000 8 0x200000 rightsW ∧ Plain 0x200000 ∧
    (Runs full b tAlways ∧ ¬HasRoom full b ∧ Released full b .sys ∧ Reaches full b .g 0x200000 8 0x200000 rightsW) ∧
    Reaches s b .g 0x00FC000000000000 8 0x00FC000000000000 rightsW ∧ targetOf 0x00FC000000000000 = .reg 0 0 ∧
    Reaches s b .l 0x7FFC 4 0x00FE000000007FFC rightsW ∧ targetOf 0x00FE000000007FFC = .clm 0 0x7FFC ∧
    s.inCode 0 0x7FFC = true ∧ s.inCode 0 0x8000 = false ∧ Reaches s b .l 0x8000 4 0x00FE000000008000 rightsW ∧
    targetOf 0x00FE000000008000 = .clm 0 0x8000 := by
  refine ⟨?_, ?_, ?_, ?_, .inl ?_, ?_⟩ <;>
    (try simp only [Runs, HasRoom, Released, Settled, Drained, Reaches, Allowed]) <;> decide +kernel

/-- FullEmptyResult and FullEmptySent: an EMPTY and a FULL word of the own CLM, and a free place of the wait table; the own CLM
with an undrained buffer that meets the word and one that does not, a TSP, and the paged space. -/
theorem witness_full_empty :
    let s := tState tMem
    let b := tBarrel tMem
    let va := 0x00FE000000010000
    let e : SbEntry := { who := b.who, va := va, size := 4, op := .store [0, 0, 0, 0], reply := .nothing, posted := true, acq := false }
    let meets := fun (t : State) (a : Nat) => (t.core 0).storeBuf.any fun e => e.meets b.held.va a 4
    Runs s b tAlways ∧ Drained s b ∧ Reaches s b .g va 4 va rightsR ∧ OwnWord s b va ∧ s.anyPoison va 4 = false ∧
    s.isFull va = false ∧ (s.setFull va true).isFull va = true ∧ tMem.deferredPc = 0 ∧
    freeIndex (s.cluster (clusterAt va)).waits 256 0 = some 0 ∧
    Runs (s.buffer b e) b tAlways ∧ ¬Drained (s.buffer b e) b ∧ meets (s.buffer b e) va = true ∧
    meets (s.buffer b e) (va + 4) = false ∧ Reaches (s.buffer b e) b .g (va + 4) 4 (va + 4) rightsR ∧
    targetOf (va + 4) = .clm 0 0x10004 ∧ Reaches s b .t 0x40 4 0x00FD000000000040 rightsW ∧
    targetOf 0x00FD000000000040 = .tsp 0 0x40 ∧ meets s 0x00FD000000000040 = false ∧
    Released s b (targetScope 0 (.tsp 0 0x40)) ∧ Reaches s b .g 0x200000 4 0x200000 rightsR ∧ targetOf 0x200000 = .paged := by
  refine ⟨?_, ?_, ?_, ⟨0x10000, ?_⟩, ?_⟩ <;>
    (try simp only [Runs, Drained, Reaches, Allowed, Released, Settled, State.buffer]) <;> decide +kernel

/-- CacheControlResult: a paged line, and a CLM. -/
theorem witness_cache_control :
    let s := tState tMem
    let b := tBarrel tMem
    Runs s b tAlways ∧ Reaches s b .g 0x200000 1 0x200000 rightsR ∧ targetOf 0x200000 = .paged ∧ HasRoom s b ∧
    Reaches s b .g 0x00FE000000010000 1 0x00FE000000010000 rightsW ∧ targetOf 0x00FE000000010000 = .clm 0 0x10000 := by
  (try simp only [Runs, Reaches, Allowed, HasRoom]) <;> decide +kernel

/-- AccessFaults: each check at its first failing value: the end of each SPACE, a misaligned address, no right, no PLB
entry, a refill that was refused, a hole, the descriptor table of a TSP, and a wide access to a register. -/
theorem witness_access_faults :
    let s := tState tMem
    let b := tBarrel tMem
    let none_ := s.setCore 0 { tCore with plb := [] }
    let readOnly := s.setCore 0 { tCore with plb := [(0, tRights ^^^ 0x20000000000000000#128)] }
    let refused := s.setCore 0 { tCore with plb := [], denied := [{ ctx := 0x100000, gen := 0, domain := 0, va := 0x200000 }] }
    Runs s b tAlways ∧ (tMem.reg 7 + tMem.reg 7 * 0).toNat = 2 ^ 56 ∧
    spaceAddr 0 .g (2 ^ 56 - 1) = some (2 ^ 56 - 1) ∧ spaceAddr 0 .l 0x17FFF = some 0x00FE000000017FFF ∧
    spaceAddr 0 .t 0x7FFFF = some 0x00FD00000007FFFF ∧ 0x00FE000000010001 % 2 ≠ 0 ∧
    readOnly.checkRights 0 0x100000 0 0x200000 rightsW = .violation ∧
    none_.checkRights 0 0x100000 0 0x200000 rightsR = .miss ∧ Runs none_ b tAlways ∧ Runs readOnly b tAlways ∧
    Runs refused b tAlways ∧ refused.checkRights 0 0x100000 0 0x200000 rightsR = .denied ∧
    Allowed s b 0x00FDF00000000000 rightsR ∧ targetOf 0x00FDF00000000000 = .hole ∧
    Allowed s b 0x00FD000000078000 rightsR ∧ targetOf 0x00FD000000078000 = .tsp 0 0x78000 ∧
    Allowed s b 0x00FC000000000000 rightsR ∧ targetOf 0x00FC000000000000 = .reg 0 0 := by
  (try simp only [Runs, Allowed]) <;> decide +kernel

/-- AtomicResult and QueueAndRemoteAtomics: the own CLM, a TSP data word, the paged space and a CLM as a queue; a store buffer
with room and a full one. -/
theorem witness_atomics :
    let s := tState tMem
    let b := tBarrel tMem
    let va := 0x00FE000000010000
    let e : SbEntry := { who := { b.who with ctx := 0 }, va := 0x200000, size := 8, op := .load, reply := .nothing, posted := true, acq := false }
    let full := s.setCore 0 { tCore with storeBuf := List.replicate 32 e }
    Runs s b tAlways ∧ s.MemoryOk ∧ Drained s b ∧ Reaches s b .g va 16 va rightsRWA ∧ OwnWord s b va ∧ s.anyPoison va 16 = false ∧
    tMem.deferredPc = 0 ∧ Reaches s b .g 0x00FD000000040000 16 0x00FD000000040000 rightsRWA ∧
    OwnTsp b 0x00FD000000040000 0x40000 ∧ HasRoom s b ∧ targetOf va = .clm 0 0x10000 ∧
    Reaches s b .g 0x200000 8 0x200000 rightsRWA ∧ targetOf 0x200000 = .paged ∧ Released s b .sys ∧
    Runs full b tAlways ∧ ¬HasRoom full b ∧ Released full b (targetScope 0 (.tsp 0 0x40000)) := by
  refine ⟨?_, ?_, ?_, ?_, ⟨0x10000, ?_⟩, ?_⟩ <;>
    (try simp only [Runs, State.MemoryOk, Drained, Reaches, Allowed, OwnTsp, HasRoom, Released, Settled]) <;> decide +kernel

/-- FenceResult: nothing to wait for; a slice group to probe, at device and at cluster scope, and its probes echoed; a failed
posted store; a buffer that is not drained. -/
theorem witness_fences :
    let l := tLine (tReg0 0)
    let touched := l.setTouched 1
    let failed := { l with deferredPc := 0x44 }
    let back := { tBarrel touched with held := { tHeld touched with fenced := some .dev } }
    let e : SbEntry := { who := (tBarrel l).who, va := 0x200000, size := 8, op := .load, reply := .nothing, posted := true, acq := false }
    Runs (tState l) (tBarrel l) tAlways ∧ Drained (tState l) (tBarrel l) ∧ Probed (tBarrel l) .sys ∧ l.deferredPc = 0 ∧
    Runs (tState touched) (tBarrel touched) tAlways ∧ Drained (tState touched) (tBarrel touched) ∧
    ¬Probed (tBarrel touched) .dev ∧ Probed (tBarrel touched) .core ∧ Probed (tBarrel touched) .clu ∧
    Runs { tState touched with barrel := some back } back tAlways ∧ Probed back .dev ∧
    Runs (tState failed) (tBarrel failed) tAlways ∧ Drained (tState failed) (tBarrel failed) ∧
    Probed (tBarrel failed) .sys ∧ failed.deferredPc ≠ 0 ∧
    Runs ((tState l).buffer (tBarrel l) e) (tBarrel l) tAlways ∧ ¬Drained ((tState l).buffer (tBarrel l) e) (tBarrel l) := by
  have none_ : ∀ b : Barrel, b.held.fenced = none → fenceProbes b .dev ≠ [] → ¬Probed b .dev := by
    rintro b h hp (h' | ⟨f, hf, -⟩)
    · exact hp h'
    · rw [h] at hf; nomatch hf
  refine ⟨?_, ?_, .inl ?_, ?_, ?_, ?_, none_ _ rfl ?_, .inl ?_, .inl ?_, ?_, .inr ⟨.dev, rfl, ?_⟩, ?_, ?_, .inl ?_, ?_⟩ <;>
    (try simp only [Runs, Drained, State.buffer]) <;> decide +kernel

/-- BarrierResult and SyncSent: a word of count 2 with no arrival and with one, words that break the format, a poisoned word; a
free wait place and a full table; another cluster's word, the paged space and a CLM. -/
theorem witness_barriers :
    let va := 0x00FD000000000040
    let s := fun (w : Nat) => { tState tMem with mem := memPuts [] va (toBytes 16 w) }
    let b := tBarrel tMem
    let w := fun w => memNat (s w).mem va 16
    let e : WaitEntry := { who := b.who, addr := 0, cond := .full, since := 0, limit := 0 }
    let full := List.ofFn fun i : Fin 256 => (i.val, e)
    let l := { tMem with regs := ⟨0x00FE000000010000, 0x00FD000100000040, 0x200000, 0, 0, 0, 0, 0⟩ }
    Runs (s 2) b tAlways ∧ (s 2).MemoryOk ∧ Drained (s 2) b ∧ tMem.deferredPc = 0 ∧
    Reaches (s 2) b .g (tMem.reg 1).toNat 16 va rightsRW ∧ OwnTsp b va 0x40 ∧ ((s 2).granted b va 16).isSome = true ∧
    (s 2).anyPoison va 16 = false ∧ ({ s 2 with poison := [va] } : State).anyPoison va 16 = true ∧
    w (barrierWord 2 0 4 0 0) = barrierWord 2 0 4 0 0 ∧ 0 + 1 < 2 ∧ w (barrierWord 2 1 4 0xFFFFFFF 9) = barrierWord 2 1 4 0xFFFFFFF 9 ∧
    w (barrierWord 0 0 0 0 0) % 2 ^ 16 = 0 ∧ 5 ≤ w (barrierWord 2 0 5 0 0) / 2 ^ 32 % 2 ^ 4 ∧
    w (barrierWord 2 2 0 0 0) % 2 ^ 16 ≤ w (barrierWord 2 2 0 0 0) / 2 ^ 16 % 2 ^ 16 ∧
    freeIndex ((s 2).cluster (clusterOfCore b.core)).waits 256 0 = some 0 ∧ freeIndex full 256 0 = none ∧
    (Runs (tState l) (tBarrel l) tAlways ∧ Reaches (tState l) (tBarrel l) .g (l.reg 0).toNat 16 0x00FE000000010000 rightsRW ∧
      Reaches (tState l) (tBarrel l) .g (l.reg 1).toNat 16 0x00FD000100000040 rightsRW ∧
      targetOf 0x00FD000100000040 = .tsp 512 0x40 ∧ Reaches (tState l) (tBarrel l) .g (l.reg 2).toNat 16 0x200000 rightsRW ∧
      Released (tState l) (tBarrel l) .sys) := by
  (try simp only [Runs, State.MemoryOk, Drained, Reaches, Allowed, OwnTsp, Released, Settled]) <;> decide +kernel

/-- SyncWordResult: a GENERATION that differs and one that does not; a guard to release, none, a range that overlaps one
and one that does not. -/
theorem witness_sync_words :
    let va := 0x00FD000000000040
    let s := { tState tMem with mem := memPuts [] va (toBytes 16 (3 * 2 ^ 64)) }
    let k := { ClusterState.reset with guards := [(0, { start := 0x1000, len := 0x100, sync := 0x40 })] }
    let t := s.setCluster 0 k
    let b := tBarrel tMem
    Runs s b tAlways ∧ s.MemoryOk ∧ Reaches s b .g (tMem.reg 1).toNat 16 va rightsR ∧ OwnTsp b va 0x40 ∧
    (s.granted b va 16).isSome = true ∧ s.anyPoison va 16 = false ∧ t.MemoryOk ∧ (t.granted b va 16).isSome = true ∧
    t.anyPoison va 16 = false ∧ ({ t with poison := [va] } : State).anyPoison va 16 = true ∧
    memNat s.mem va 16 / 2 ^ 64 % 2 ^ 32 = 3 ∧ freeIndex (s.cluster (clusterAt va)).waits 256 0 = some 0 ∧
    Runs t b tAlways ∧ Reaches t b .g (tMem.reg 1).toNat 16 va rightsW ∧
    k.guards.find? (fun e => e.2.sync == va - tspBase 0) = some (0, { start := 0x1000, len := 0x100, sync := 0x40 }) ∧
    (s.cluster 0).guards.find? (fun e => e.2.sync == va - tspBase 0) = none ∧
    spaceAddr 0 .t 0x10FC = some 0x00FD0000000010FC ∧ rangeOk va 0x00FD0000000010FC 4 = true ∧
    targetOf 0x00FD0000000010FC = .tsp 0 0x10FC ∧
    k.guards.any (fun e => decide (0 < overlapBytes 0x10FC 4 e.2.start e.2.len)) = true ∧
    rangeOk va 0x00FD000000001100 4 = true ∧ targetOf 0x00FD000000001100 = .tsp 0 0x1100 ∧
    k.guards.any (fun e => decide (0 < overlapBytes 0x1100 4 e.2.start e.2.len)) = false ∧ freeIndex k.guards 16 0 = some 1 := by
  (try simp only [Runs, State.MemoryOk, Reaches, Allowed, OwnTsp]) <;> decide +kernel

/-! ## Witnesses: jobs, tiles, tasks and system instructions -/

/-- Partition 0 holds the whole of brick 0. -/
def tBrick : Brick := { Brick.reset 0 with rects := [(0, 0x8F001F00)] }

def tPart (s : State) : State := s.setBrick 0 tBrick

/-- CopySubmission: the last length and the first beyond it, one row and overlapping rows, an index list, and handles. -/
theorem witness_copies :
    let l := tLine ⟨0x200000, 0x300000, 0xFFFFFFFF, 0x100000000, 0x400000, 4 + 12 * 2 ^ 32, 0x400002, 1 + 13 * 2 ^ 32⟩
    let s := tState l
    let b := tBarrel l
    Runs s b tAlways ∧ Released s b .dev ∧ (l.reg 2).toNat < 2 ^ 32 ∧ 2 ^ 32 ≤ (l.reg 3).toNat ∧
    (let x := 7 + 1 * 2 ^ 12 + 8 * 2 ^ 44
     x % 2 ^ 12 + 1 ≤ x / 2 ^ 44 % 2 ^ 20 ∧ x / 2 ^ 12 % 2 ^ 12 + 1 ≠ 1) ∧
    (let x := 8 + 1 * 2 ^ 12 + 8 * 2 ^ 44
     x / 2 ^ 44 % 2 ^ 20 < x % 2 ^ 12 + 1 ∧ x / 2 ^ 12 % 2 ^ 12 + 1 ≠ 1) ∧
    (l.reg (pairOf 4)).toNat / 2 ^ 32 % 2 ^ 4 = 12 ∧ (l.reg (pairOf 4)).toNat < 2 ^ 36 ∧ (l.reg 4).toNat % 4 = 0 ∧
    12 < (l.reg (pairOf 6)).toNat / 2 ^ 32 % 2 ^ 4 ∧ (l.reg 6).toNat % 4 ≠ 0 := by
  (try simp only [Runs, Released, Settled, Drained]) <;> decide +kernel

/-- JobQueries: a job that is DONE, one that is ACTIVE, a `tload.sub`, an unknown one, one of another cluster, and identifiers
that are refused. -/
theorem witness_jobs :
    let l := tLine ⟨jobId 0 1 0, jobId 0 1 1, jobId 0 2 1, 0x8000000, jobId 512 1 0, jobId 0 1 2, jobId 1 1 0, 0⟩
    let b := tBarrel l
    let x : JobSlot := { seq := 1, state := .done .ok, order := 0, who := b.who, kind := .copy 0 0 0, progress := 0, held := none, ending := none, waiters := [] }
    let s := tPart ((tState l).setCluster 0
      { ClusterState.reset with jobs := [(0, x), (1, { x with state := .active }), (2, { x with kind := .tloadSub 0, state := .pageWait })] })
    (MayName s b (l.reg 5).toNat ∧ (s.jobOf (l.reg 5).toNat).any (fun x => decide (x.state = .pageWait)) = true) ∧
    (MayName s b (l.reg 6).toNat ∧ jobCluster (l.reg 6).toNat ≠ clusterOfCore b.core ∧
      s.jobStatus (l.reg 6).toNat = some .expired) ∧
    Runs s b tAlways ∧ MayName s b (l.reg 0).toNat ∧ MayName s b (l.reg 1).toNat ∧ MayName s b (l.reg 2).toNat ∧
    jobCluster (l.reg 0).toNat = clusterOfCore b.core ∧ s.jobStatus (l.reg 0).toNat = some .ok ∧
    s.jobStatus (l.reg 1).toNat = none ∧ s.jobStatus (l.reg 2).toNat = some .expired ∧ 2 ^ 27 ≤ (l.reg 3).toNat ∧
    s.inPartition l.partition (jobCluster (l.reg 4).toNat) = false ∧
    (s.jobOf (l.reg 0).toNat).any (fun x => decide (x.who.domain.toNat ≠ 1)) = true := by
  refine ⟨⟨⟨?_, ?_, ?_⟩, ?_⟩, ⟨⟨?_, ?_, ?_⟩, ?_⟩, ?_, ⟨?_, ?_, ?_⟩, ⟨?_, ?_, ?_⟩, ⟨?_, ?_, ?_⟩, ?_⟩ <;>
    first
      | (simp only [Runs]; decide +kernel)
      | decide +kernel
      | (intro x h
         first
           | (have e := Option.some.inj h; subst e; decide +kernel)
           | (exact absurd h (by decide +kernel)))

/-- TileSubmission and MatrixSubmission: handles of one cluster, a wide one, two clusters; a template that a load sees; the
cluster operand of `tdesc` at its last value and at −1. -/
theorem witness_tiles :
    let l := tLine ⟨mkHandle 0 1 0, mkHandle 0 1 1, 0x100000000, mkHandle 1 1 0, 0x00FE000000010000, 511, -1, 3⟩
    let s := tPart (tState l)
    let b := tBarrel l
    Runs s b tAlways ∧ Released s b .dev ∧ HandlesIn l 0 [(0, 0), (1, 1), (2, 1)] ∧ HandlesIn l 0 [(1, 1)] ∧ 2 ^ 32 ≤ (l.reg 2).toNat ∧
    handleCluster (l.reg 0).toNat ≠ handleCluster (l.reg 3).toNat ∧ (l.reg 7).toNat ≤ 3 ∧
    (∃ t, Sees s b .g (l.reg 4).toNat 32 0x00FE000000010000 0 t) ∧ (l.reg 5).toNat ≤ 2047 ∧
    s.inPartition l.partition (l.reg 5).toNat = true ∧ l.reg 6 = BitVec.allOnes 64 ∧
    s.inPartition l.partition (clusterOfCore b.core) = true ∧ InBank s b 3 := by
  refine ⟨?_, ?_, ?_, ?_, ?_, ?_, ?_, sees_near ?_ ?_ (.inl ⟨0x10000, ?_⟩) ?_ ?_ ?_, ?_⟩ <;>
    (try simp only [Runs, Released, Settled, Drained, HandlesIn, Reaches, Allowed, InBank, Unbuffered]) <;> decide +kernel

/-- SleepAndPriority, SpawnResult and LaunchResult: `sleep` of 0, of the longest time and beyond it; `spawn` from good and bad
operands; `launch` into a queue with room and into a disabled one. -/
theorem witness_tasks :
    let l := tLine ⟨0, 0x7FFFFFFFF, 0x800000000, 0x8, 0x1000000000, 0x00FE000000010000, 3, 4⟩
    let s := { tState l with mem := memPuts [] 0x500000 [2], bricks := ⟨{ Brick.reset 0 with freemapBase := 0x500000 }, Brick.reset 1, Brick.reset 2, Brick.reset 3⟩ }
    let b := tBarrel l
    let q := { s with regs := { s.regs with lqBase := [(3, 0x1000000700000)] } }
    Runs s b tAlways ∧ l.reg 0 = 0 ∧ (l.reg 1).toNat < 2 ^ 35 ∧ 2 ^ 35 ≤ (l.reg 2).toNat ∧ Settled s b .sys ∧ (l.reg 3).toNat % 4 = 0 ∧
    (l.reg 3).toNat < 2 ^ 36 ∧ 2 ^ 36 ≤ (l.reg 4).toNat ∧ l.affinity &&& l.affinity ≠ 0 ∧ (1 : Nat) &&& 2 = 0 ∧ l.joinCount ≠ 0xFFFFFFFF ∧
    (l.reg 6).toNat ≤ 3 ∧ 3 < (l.reg 7).toNat ∧
    (∃ t, Sees q b .g (l.reg 5).toNat 64 0x00FE000000010000 0 t) ∧ Settled q b .sys ∧
    (q.launchWaits (4 * l.partition + 3)).isNone = true ∧ lqSlots (q.lqBaseOf 3) = 2 ∧ q.lqTailOf 3 = q.lqHeadOf 3 ∧
    (0 : Nat) / 2 ^ 128 % 2 ^ 16 = l.domain ∧
    (q.insertLaunch (4 * l.partition + 3) 0).map (·.1) = some 0 ∧ (q.insertLaunch (4 * l.partition + 2) 0).isNone = true := by
  refine ⟨?_, ?_, ?_, ?_, ?_, ?_, ?_, ?_, ?_, ?_, ?_, ?_, ?_, sees_near ?_ ?_ (.inl ⟨0x10000, ?_⟩) ?_ ?_ ?_, ?_⟩ <;>
    (try simp only [Runs, Settled, Drained, Reaches, Allowed, Unbuffered]) <;> decide +kernel

/-- EndOfContextResult: no child and children left; a successor in the pool, at its last line, and one outside it. -/
theorem witness_ends :
    let l := tLine ⟨0, 0x101F80, 0x102000, 0x100001, 0, 0, 0, 0⟩
    let busy := { l with joinCount := 1 }
    let s := tState l
    let b := tBarrel l
    Runs s b tAlways ∧ Released s b .sys ∧ l.joinCount = 0 ∧ Runs (tState busy) (tBarrel busy) tAlways ∧ busy.joinCount ≠ 0 ∧
    l.reg 1 ≠ 0 ∧ (l.reg 1).toNat % 128 = 0 ∧ s.inPool (l.reg 1).toNat = true ∧ s.inPool (l.reg 2).toNat = false ∧
    (l.reg 3).toNat % 128 ≠ 0 ∧ l.retain = false := by
  (try simp only [Runs, Released, Settled, Drained]) <;> decide +kernel

/-- SpecialRegisterResult and TrapResult: the control right and its want, and each range at both of its ends. -/
theorem witness_special_registers :
    let l := tLine (tReg0 0)
    let s := tState l
    let b := tBarrel l
    let t := s.setCore 0 { tCore with plb := [(0, tRights ^^^ 0x20000000000000000#128)] }
    Runs s b tAlways ∧ Controls s b ∧ Runs t b tAlways ∧ t.checkRights 0 0x100000 0 0x00FC000000000000 rightsW = .violation ∧
    (1024 ≤ 1024 ∧ 1024 < 2 ^ 32) ∧ (1024 ≤ 2 ^ 32 - 1 ∧ 2 ^ 32 - 1 < 2 ^ 32) ∧ ¬ (1024 ≤ 1023 ∧ 1023 < 2 ^ 32) ∧
    32 ≤ 32 ∧ ¬ 33 ≤ 32 ∧ 2 ^ 16 - 1 < 2 ^ 16 ∧ pinnedHeld (s.core 0) ≤ 1 ∧ 16 < 17 ∧ 4 < 5 := by
  (try simp only [Runs, Controls, Allowed]) <;> decide +kernel

/-- SystemInstructions: a context of the pool, the issuing one, a misaligned and a foreign address; a slot table that is
allowed and one that is not; an overlay that is there and one that is not; a slot entry and none. -/
theorem witness_system :
    let l := tLine ⟨0x100080, 0x100000, 0x100001, 0x102000, 0, 1, 0x10000, 0x4040404040404041⟩
    let s := tState l
    let b := tBarrel l
    Runs s b tAlways ∧ NamesContext s b (l.reg 0).toNat ∧ Settled s b .sys ∧ (l.reg 0).toNat ≠ b.held.va ∧ NamesContext s b (l.reg 1).toNat ∧
    (l.reg 1).toNat = b.held.va ∧ (l.reg 2).toNat % 128 ≠ 0 ∧ (l.reg 3).toNat % 128 = 0 ∧ s.inPool (l.reg 3).toNat = false ∧
    Controls s b ∧ slotTabOk 0 16 = true ∧ slotTabOk (l.reg 7).toNat 16 = false ∧ (l.reg 4).toNat < 2 ^ 16 ∧
    execSlot (s.core b.core) l.domain (l.reg 4).toNat = some tSlot ∧ execSlot (s.core b.core) l.domain (l.reg 5).toNat = none ∧
    2 ^ 16 ≤ (l.reg 6).toNat ∧ Table.get? (s.core b.core).slots 0 = some tSlot ∧ Table.get? (s.core b.core).slots 3 = none := by
  (try simp only [Runs, NamesContext, Settled, Drained, Controls, Allowed]) <;> decide +kernel

/-- InvalidationResult: a range of the smallest and of the largest size, a size outside, a base off its size; the last
domain word; a page and a frame at their ends. -/
theorem witness_invalidations :
    let l := tLine ⟨0x1FFFF, 0x20000, 0x00FFFFFFFFFFFFFF, 0x0100000000000000, 0, 0, 0, 0⟩
    let s := tState l
    let b := tBarrel l
    let ok := fun (w : Nat) => decide (w / 2 ^ 56 = 0 ∧ w / 2 ^ 6 % 2 ^ 10 = 0 ∧ 16 ≤ w % 2 ^ 6 ∧ w % 2 ^ 6 ≤ 56 ∧
      (w / 2 ^ 16 % 2 ^ 40 * 2 ^ 16) % 2 ^ (w % 2 ^ 6) = 0)
    Runs s b tAlways ∧ Controls s b ∧ Settled s b .sys ∧ ok 0x30010 = true ∧ ok 56 = true ∧ ok 57 = false ∧ ok 15 = false ∧
    ok 0x10011 = false ∧ (l.reg 0).toNat < 2 ^ 17 ∧ 2 ^ 17 ≤ (l.reg 1).toNat ∧ (l.reg 2).toNat < 2 ^ 56 ∧
    2 ^ 56 ≤ (l.reg 3).toNat ∧ (0xFFFFFFFF : BitVec 32).toNat < 2 ^ 48 ∧ 2 ^ 48 ≤ (l.reg 2).toNat := by
  (try simp only [Runs, Controls, Allowed, Settled, Drained]) <;> decide +kernel

/-! ## Witnesses: steps of contexts

`tDev l` holds the context of `tLine` in entry 0 of core 0, outside the barrel; `tMap s` maps the 64 KiB page of the pool to
physical address 0x2000000, by the first entry of its bucket in a page table at 0x4000000. -/

def tDev (l : Line) : State :=
  { tState l with barrel := none, cores := [(0, { tCore with entries := [(0, .held (tHeld l))] })] }

def tPte : Nat := 1 + 0x100000 + 0x2000000 * 2 ^ 64 + 2 ^ 145

def tMap (s : State) : State :=
  let t := { s with regs := { s.regs with ptBase := 0x4000000, ptLog2b := 1 } }
  { t with mem := memPuts t.mem (t.bucketOf 0x100000 0) (toBytes 32 tPte) }

/-- A READY line with a GENERATION. -/
def tReady : Line := (tLine (tReg0 0)).setState .ready

/-- The line of context 1 stands in the context L2 of cluster 0. -/
def tOut (l : Line) (wait : Bool) : State :=
  (tDev (tLine (tReg0 0))).setCluster 0
    { ClusterState.reset with ctxL2 := [(0x100080, { line := l, order := 0, wbWait := wait, retryAt := 0 })] }

def tWho : Who := { ctx := 0x100000, gen := 0, domain := 0, part := 0, core := 0, pc := 4, word := 0 }

/-- MessageSteps: a reply that answers a wait, with each body, and one of another GENERATION; a join with children, the last
one, and one too many; a NACK into an empty DEFERRED_PC. -/
theorem witness_messages :
    let l := ((tLine (tReg0 0)).setWait 1 4).setState .wait
    let m : Msg := { ctx := 0x100000, gen := 0, kind := 1, who := tWho, body := .done [(4, 7)] none 0, handle := none }
    let s : State := { tDev l with msgs := [m], joins := [(0x100000, 2)], nacks := [(0x100000, 0, 0x44)] }
    let old := { m with gen := 1 }
    let waits := { ((tLine (tReg0 0)).setWait 6 0).setState .wait with joinCount := 1 }
    HeldAt s 0x100000 0 0 (tHeld l) ∧ s.msgs[0]? = some m ∧ m.handle = none ∧ Answers m l ∧ m.acquires = false ∧
    ¬ Answers old l ∧ Answers { m with body := .jump 8 0 } l ∧
    Answers { m with body := .fault .bounds .load 0 0x40 0 } l ∧ s.joins[0]? = some (0x100000, 2) ∧ l.inState .free = false ∧
    l.inState .poisoned = false ∧ l.joinCount = 0 ∧ HeldAt (tDev waits) 0x100000 0 0 (tHeld waits) ∧ waits.joinCount = 1 ∧
    waits.waitKind = 6 ∧ s.nacks[0]? = some (0x100000, 0, 0x44) ∧ l.gen = 0 ∧ l.deferredPc = 0 := by
  refine ⟨⟨?_, ?_⟩, ?_, ?_, ⟨?_, ?_, ?_⟩, ?_, ?_, ⟨?_, ?_, ?_⟩, ⟨?_, ?_, ?_⟩, ?_, ?_, ?_, ?_, ⟨?_, ?_⟩, ?_⟩ <;>
    first
      | decide +kernel
      | (intro h; exact absurd h.1 (by decide +kernel))

/-- WakeSteps, ReadyEntered and TimedWakes: a wait with KIND PAGE and another, in an entry, in a context L2 and in memory; a
context that a held head keeps in its entry; a sleep whose CYCLE is a multiple of 256 and one after it; a timer due. -/
theorem witness_wakes :
    let l := ((tLine (tReg0 0)).setWait 8 0).setState .wait
    let s : State := { tDev l with wakes := [0x100000], cycle := 512, timers := [(tWho, 9, 512), (tWho, 8, 512)] }
    let other := tLine (tReg0 0)
    let out := tReady.setWait 8 0 |>.setState .wait
    let w2 : State := { tOut out false with wakes := [0x100080] }
    let m := tMap (tDev (tLine (tReg0 0)))
    let wm : State := { m with mem := memPuts m.mem 0x2000080 out.bytes, quarantine := [0x100080], wakes := [0x100080] }
    let e : SbEntry := { who := tWho, va := 0x200000, size := 8, op := .load, reply := .nothing, posted := true, acq := false }
    let kept : State := { (tDev other).setCore 0 { tCore with entries := [(0, .held { tHeld other with draining := true })],
                                                              storeBuf := [e], sbPhase := .page 2 } with wakes := [0x100000] }
    (w2.place 0x100080 = .l2 0 { line := out, order := 0, wbWait := false, retryAt := 0 } ∧ w2.mustHold 0x100080 = false ∧
      out.inState .wait = true ∧ out.waitKind = 8) ∧
    (wm.place 0x100080 = .memory 0x2000080 { out with pred := 1 } ∧ wm.mustHold 0x100080 = false) ∧
    (kept.place 0x100000 = .entry 0 0 { tHeld other with draining := true } ∧ pageHeld (kept.core 0) 0x100000 = true) ∧
    (s.brick 0).ready.length < 65536 ∧
    let due := fun (kind : Nat) (x : Who × Nat × Nat) => x.1.ctx == 0x100000 && x.2.1 == kind
    s.wakes[0]? = some 0x100000 ∧ HeldAt s 0x100000 0 0 (tHeld l) ∧ pageHeld (s.core 0) 0x100000 = false ∧
    l.inState .wait = true ∧ l.waitKind = 8 ∧ HeldAt (tDev other) 0x100000 0 0 (tHeld other) ∧ other.waitKind ≠ 8 ∧
    s.timers.find? (fun x => due 9 x && decide ((x.2.2 + 255) / 256 * 256 ≤ s.cycle)) = some (tWho, 9, 512) ∧
    ({ s with timers := [(tWho, 9, 513)] } : State).timers.find? (fun x => due 9 x && decide ((x.2.2 + 255) / 256 * 256 ≤ s.cycle)) = none ∧
    s.timers.find? (fun x => due 8 x && decide (x.2.2 ≤ s.cycle)) = some (tWho, 8, 512) ∧
    s.findEntry 0x100000 = some (0, 0, tHeld l) := by
  refine ⟨?_, ?_, ?_, ?_, ?_, ⟨?_, ?_⟩, ?_, ?_, ?_, ⟨?_, ?_⟩, ?_⟩ <;> decide +kernel

/-- KillAndResumeSteps: a held context, one in a context L2, a FREE line in memory, a kill whose drain has ended; a line to
resume with an AFFINITY, without one, and one that is not stopped. -/
theorem witness_kills :
    let k : HomeCmd := { who := tWho, target := 0x100000, d := 4, found := none }
    let l := tLine (tReg0 0)
    let s : State := { tDev l with kills := [k] }
    let k2 := { k with target := 0x100080 }
    let k3 := { k with target := 0x100100 }
    let x : L2Ctx := { line := tReady, order := 0, wbWait := false, retryAt := 0 }
    let u : State := { tOut tReady false with kills := [k2, k3, { k3 with found := some 3 }], resumes := [k2] }
    let halted := (tReady.setState .halted)
    s.dieLive (s.ctxHome k.target) = true ∧ s.kills[0]? = some k ∧ s.place k.target = .entry 0 0 (tHeld l) ∧
    (tHeld l).draining = false ∧ pageHeld (s.core 0) k.target = false ∧
    ((s.dropWaits k.target).putHeld 0 0 { tHeld l with draining := true, ending := .freed, gang := false, records := [] }).freeing
      k.target = true ∧
    (let p := s.setCore 0 { tCore with entries := [(0, .held (tHeld l))], sbPhase := .page 2,
                                        storeBuf := [{ who := tWho, va := 0x200000, size := 8, op := .load, reply := .nothing,
                                                       posted := true, acq := false }] }
     p.place k.target = .entry 0 0 (tHeld l) ∧ pageHeld (p.core 0) k.target = true ∧ (((p.discardStores 0 k.target).dropWaits
       k.target).putHeld 0 0 { tHeld l with draining := true, ending := .freed, gang := false, records := [] }).freeing k.target = true) ∧
    u.dieLive (u.ctxHome k2.target) = true ∧ u.place k2.target = .l2 0 x ∧ u.ctxFrozen k2.target = false ∧
    u.unacked k2.target = false ∧ (((u.dropWaits k2.target).dropMember k2.target).freeCtx k2.target x.line).freeing k2.target = false ∧
    u.kills[1]? = some k3 ∧ (tMap u).kills[1]? = some k3 ∧ (tMap u).dieLive ((tMap u).ctxHome k3.target) = true ∧
    ((tMap u).place k3.target).line?.any (fun l => l.inState .free) = true ∧ (tMap u).freeing k3.target = false ∧
    u.freeing k3.target = false ∧ u.dieLive (u.ctxHome k3.target) = true ∧ u.kills[2]? = some { k3 with found := some 3 } ∧ u.resumes[0]? = some k2 ∧
    u.mustHold k2.target = false ∧ x.line.inState .halted = false ∧ x.line.inState .faulted = false ∧
    (tOut halted false).place k2.target = .l2 0 { x with line := halted } ∧ halted.inState .halted = true ∧
    halted.affinity ≠ 0 ∧ ({ halted with control := 0 } : Line).affinity = 0 ∧
    (tOut { halted with control := 0 } false).mustHold k2.target = false := by decide +kernel

/-- ClaimSteps: a claim of a READY line, of another GENERATION, of a line that is not READY, of one in an entry, of one that
moves, and one whose home is not LIVE; each case of a lost claim; a fill; an entry to be offered again. -/
theorem witness_claims :
    let c : Claim := { va := 0x100080, gen := 0, domain := 0, core := 0, entry := 1, die := 0, gang := false, child := none }
    let s : State := { tOut tReady false with claims := [c], claimsLost := [(c, 3), (c, 4), (c, 5), ({ c with child := some .core }, 4)] }
    let x : Transfer := { va := 0x100100, line := tReady, core := 0, entry := 1, gang := false }
    let h := { c with va := 0x100000 }
    let e : ReadyEntry :=
      { va := 0x100080, level := 0, gain := 0, steal := .dev, since := 0, offered := false, notBefore := 1, tried := [], refused := false }
    let u : State := ({ s with claims := [h, { c with va := 0x100100 }], transfers := [x], cycle := 1 } : State).setBrick 0
      { tBrick with ready := [e] }
    let mo : Mortar := { s.mortar with bricks := ⟨.quiescing, .live, .live, .live⟩ }
    let off : State := { s with mortar := mo }
    s.claims[0]? = some c ∧ (s.claims.take 0).any (fun x => x.va == c.va) = false ∧ (s.claimWaits c).isNone = true ∧
    (off.claimWaits c).isNone = true ∧ (u.claimWaits h).isNone = true ∧
    s.claimsLost[3]? = some ({ c with child := some .core }, 4) ∧ (s.core 0).deque.length < 16 ∧
    ({ s with clusters := [] } : State).place c.va = .unmapped ∧ s.dieLive (s.ctxHome c.va) = true ∧
    s.place c.va = .l2 0 { line := tReady, order := 0, wbWait := false, retryAt := 0 } ∧ tReady.gen = c.gen ∧
    tReady.inState .ready = true ∧ tReady.gen ≠ ({ c with gen := 1 } : Claim).gen ∧ (tReady.setState .halted).inState .ready = false ∧
    off.dieLive (off.ctxHome c.va) = false ∧ s.claimsLost[2]? = some (c, 5) ∧ c.gang = false ∧
    u.claims[0]? = some h ∧ u.place h.va = .entry 0 0 (tHeld (tLine (tReg0 0))) ∧ u.place 0x100100 = .transfer x ∧
    u.transfers[0]? = some x ∧ (u.brick 0).ready[0]? = some e ∧ e.notBefore ≠ 0 ∧ e.notBefore ≤ u.cycle := by decide +kernel

/-- ClaimSteps: a READY line in memory. CONTEXT_SECRET is open, so that no tag can be computed here; the line is one in
quarantine, whose tag is not checked. -/
theorem witness_claim_memory :
    let m : State := tMap (tDev (tLine (tReg0 0)))
    let s : State := { m with mem := memPuts m.mem 0x2000080 tReady.bytes, quarantine := [0x100080] }
    (s.claimWaits { va := 0x100080, gen := 0, domain := 0, core := 4096 * s.homeDie 0x2000080, entry := 1, die := 0, gang := false, child := none }).isNone = true ∧
    s.place 0x100080 = .memory 0x2000080 { tReady with pred := 1 } ∧ tReady.gen = 0 ∧ tReady.inState .ready = true ∧
    s.dieLive (s.ctxHome 0x100080) = true := by decide +kernel

/-- EvictionSteps: a draining context whose write-back is not yet in the buffer, one whose write-back stands at its head
and ends freed or kept, and a write-back to be tried again with its page mapped and not mapped. -/
theorem witness_evictions :
    let l := (tLine (tReg0 0)).setState .halted
    let h := { tHeld l with draining := true }
    let s : State := (tDev l).setCore 0 { tCore with entries := [(0, .held h)] }
    let w : SbEntry := { who := tWho, va := 0x100000, size := 0, op := .notice (Quad.all none), reply := .nothing, posted := true,
                         acq := false }
    let t : State := (tDev l).setCore 0 { tCore with entries := [(0, .held h)], storeBuf := [w] }
    let u : State := tOut tReady true
    let x : L2Ctx := { line := tReady, order := 0, wbWait := true, retryAt := 0 }
    Table.get? (s.core 0).entries 0 = some (.held h) ∧ h.draining = true ∧ hasWriteBack (s.core 0) h.va = false ∧
    (s.core 0).storeBuf.length < 32 ∧ Table.get? (t.core 0).entries 0 = some (.held h) ∧ (t.core 0).storeBuf = [w] ∧
    w.isWriteBack = true ∧ w.who.ctx = h.va ∧ t.unacked h.va = false ∧ h.ending ≠ .freed ∧ h.line.deferredPc = 0 ∧
    h.line.inState .resident = false ∧ h.line.inState .ready = false ∧ (t.ctxL2Put 0 h.va (h.line.setTouched 0)).2 = true ∧
    u.place 0x100080 = .l2 0 x ∧ x.wbWait = true ∧ x.retryAt ≤ u.cycle ∧ ((tMap u).poolPhys 0x100080 true).isSome = true ∧ (tMap u).place 0x100080 = .l2 0 x ∧
    (u.poolPhys 0x100080 true).isNone = true := by decide +kernel

/-- FaultSteps: a fault queue with room, a full one and none; an error log with room and none; a handler that must be held,
one that is HALTED, and a queue that is done; a queue under a lease is left to `RecordAppend`. -/
theorem witness_faults :
    let r := faultRecord (tLine (tReg0 0)) 0x100000 4 .trap .sync .none 5 0 0
    let fq := fun (head tail : Nat) => 0x600000 + 2 ^ 48 + 4 * 2 ^ 64 + head * 2 ^ 128 + tail * 2 ^ 160 + 0x100080 * 2 ^ 192
    let o : State := tOut (tReady.setState .halted) false
    let s := fun (e : Nat) => ({ o with
      faultQ := [r]
      mem := memPuts o.mem 0x700000 (toBytes 32 e)
      regs := { o.regs with fqDirBase := 0x700000, fqWritten := true } } : State)
    let w : HandlerWake := { die := 0, fault := true, queue := 0, handler := 0x100080, retryAt := 0, sent := false, logged := none }
    let room := s (fq 0 1)
    let b := { Brick.reset 0 with elogBase := 0x1000000800000 }
    (room.recordLeased 0 = false ∧ room.logLeased 0 = false ∧ Memory.wf room.mem = true ∧
      room.dieLive 0 = true ∧ ({ room with mortar := { room.mortar with bricks := ⟨.reset, .live, .live, .live⟩ } } : State).dieLive 0 = false) ∧
    (room.handlerWakes.any (fun x => x.handler == 0x100080) = false ∧ room.inPool 0x100080 = true ∧
      [w].any (fun x => x.handler == 0x100080) = true ∧ room.inPool 0x102000 = false) ∧
    (room.faultQ[0]? = some r ∧ room.dieLive (r.domain.toNat % 4) = true ∧ room.regs.fqWritten = true) ∧
    (fqValid (room.cohWide 0x700000 32) = true ∧ room.cohWide 0x700000 32 = fq 0 1) ∧
    fqValid ((s 0).cohWide 0x700000 32) = false ∧
    (room.queueDone w = false ∧ (s (fq 1 1)).queueDone w = true ∧ w.retryAt ≤ room.cycle) ∧
    (room.mustHold w.handler = false ∧ (room.place w.handler).line?.any (fun l => l.inState .halted && decide (l.affinity ≠ 0)) = true) ∧
    ({ room with clusters := [] } : State).mustHold w.handler = true ∧
    (ringSlots b.elogBase.toNat = 2 ∧ ringSlots (Brick.reset 0).elogBase.toNat ≤ 0) := by decide +kernel

/-- SoftErrors: a clean and a dirty copy in the L2 of brick 0, and a line that no cache holds; a context line in memory. -/
theorem witness_soft_errors :
    let l2 := fun (st : SecState) => [(0x1000, ({ pa := 0x2000000, wr := true, master := 0, sectors := Quad.all { st := st, data := 0 }, used := 0 } : L2Line))]
    let s := fun (st : SecState) => ({ tDev (tLine (tReg0 0)) with l2 := ⟨l2 st, [], [], []⟩ } : State)
    let m : State := tMap (tDev (tLine (tReg0 0)))
    let c : State := { m with mem := memPuts m.mem 0x2000080 tReady.bytes }
    (s .e).cachedAt 0 0x2000000 = some (0x100000, false) ∧ (s .m).cachedAt 0 0x2000000 = some (0x100000, true) ∧
    (s .e).cachedAt 0 0x3000000 = none ∧ (s .e).badCopies.contains (0, 0x2000000) = false ∧
    ({ c with quarantine := [0x100080] } : State).place 0x100080 = .memory 0x2000080 { tReady with pred := 1 } ∧
    c.quarantine.contains 0x100080 = false ∧ tReady.inState .free = false := by decide +kernel

/-- ChildBorn: the reply of a `spawn`, with a free context and without one; a deque with room and a full one. -/
theorem witness_child :
    let l := ((tLine (tReg0 0)).setWait 1 4).setState .wait
    let m : Msg := { ctx := 0x100000, gen := 0, kind := 1, who := tWho, body := .child tReady .core 4 1 8 false, handle := none }
    let s : State := { tDev l with msgs := [m], mem := memPuts [] 0x500000 [2] }
    let t : State := s.setBrick 0 { Brick.reset 0 with freemapBase := 0x500000 }
    HeldAt t 0x100000 0 0 (tHeld l) ∧ t.msgs[0]? = some m ∧ Answers m l ∧
    ((({ t with msgs := [] } : State).startRetry m).reserveCtx 0).map (·.1) = some 4 ∧
    ((({ t with msgs := [], mem := [] } : State).startRetry m).reserveCtx 0).isNone = true ∧ (t.core 0).deque.length < 16 ∧
    16 ≤ (List.replicate 16 ({ va := 0x100080, steal := .core } : DequeEntry)).length := by
  refine ⟨⟨?_, ?_⟩, ?_, ⟨?_, ?_, ?_⟩, ?_⟩ <;> decide +kernel

/-! ## Witnesses: steps of banks, buffers, translation, scheduling, homes, copies and units -/

/-- BankSteps: a load and a store of a CLM's data, an empty queue, a full one and one between, a posted store into a code
partition, and a load from another partition; banks that grant a request and banks that another port has. -/
theorem witness_banks :
    let q : BankReq := { who := tWho, addr := 0x00FE000000010000, size := 8, op := .load, reply := .reg 4 8 true, posted := false, acq := false }
    let pop := fun (a : Nat) => ({ q with addr := a, size := 16, op := .atomic .qpop 0, reply := .queue 4 1 } : BankReq)
    let push := fun (a : Nat) => ({ q with addr := a, size := 16, op := .atomic .qpush 9, reply := .queue 4 1 } : BankReq)
    let e := 0x00FD000000000000
    let far := { q with addr := 0x00FE000100010000 }
    let code := { q with addr := 0x00FE000000000000, op := .store [1], posted := true, reply := .nothing }
    let header := fun (head tail : Nat) => head + 2 ^ 32 * tail + 2 ^ 64 * 1
    let s : State := { tPart (tDev (tLine (tReg0 0))) with
      bankQ := [q, { q with op := .store [1, 2], reply := .nothing }, pop e, push e, pop (e + 0x40), push (e + 0x80), far, code]
      mem := memPuts (memPuts (memPuts [] e (toBytes 16 (header 3 3))) (e + 0x40) (toBytes 16 (header 1 2))) (e + 0x80) (toBytes 16 (header 0x7FFFFFFF 1)) }
    let used := fun (a : Nat) => (memNat s.mem a 16 / 2 ^ 32 % 2 ^ 31 + 2 ^ 31 - memNat s.mem a 16 % 2 ^ 31) % 2 ^ 31
    let busy := (s.setCluster 0 { ClusterState.reset with arb := { ClusterState.reset.arb with granted := (tspBanks 0 16).map fun b => (b, 1) } })
    (s.bankTurn 0 q).isSome = true ∧ (s.bankTurn 2 (pop e)).isSome = true ∧ (busy.bankTurn 2 (pop e)).isNone = true ∧
    s.anyPoison e 16 = false ∧ s.anyPoison (e + 0x40 + 24) 8 = false ∧
    s.MemoryOk ∧ s.bankQ[0]? = some q ∧ targetOf q.addr = .clm 0 0x10000 ∧ s.inCode 0 0x10000 = false ∧
    Reachable s q.who (clusterAt q.addr) ∧ s.anyPoison q.addr 8 = false ∧
    (targetOf e = .tsp 0 0 ∧ targetOf (e + 0x80) = .tsp 0 0x80 ∧ memNat s.mem e 16 / 2 ^ 64 % 2 ^ 4 = 1) ∧
    (used e = 0 ∧ used (e + 0x40) = 1 ∧ used (e + 0x80) = 2) ∧
    Reachable s q.who (clusterAt e) ∧ (memNat s.mem e 16 / 2 ^ 68 = 0 ∧ memNat s.mem e 16 / 2 ^ 63 % 2 = 0) ∧
    targetOf code.addr = .clm 0 0 ∧ s.inCode 0 0 = true ∧ targetOf far.addr = .clm 4096 0x10000 ∧
    s.inPartition 0 (clusterAt far.addr) = false ∧ s.dieLive (dieOfCluster (clusterAt far.addr)) = true := by
  refine ⟨?_, ?_, ?_, ?_, ?_, ?_, ?_, ?_, ?_, ⟨?_, ?_⟩, ?_, ⟨?_, ?_, ?_⟩, ⟨?_, ?_, ?_⟩, ⟨?_, ?_⟩, ⟨?_, ?_⟩, ?_⟩ <;>
    (try simp only [State.MemoryOk]) <;> decide +kernel

/-- BufferSteps: waits of each kind that are over; a thread that found no entry; heads of a store buffer that go to a bank
and to translation; a fence with a probe to echo, one that is held up, and a last echo. -/
theorem witness_buffers :
    let e : WaitEntry := { who := tWho, addr := 0x00FD000000000040, cond := .full, since := 0, limit := 5 }
    let w : SbEntry := { who := tWho, va := 0x00FE000000010000, size := 1, op := .store [1], reply := .nothing, posted := true, acq := false }
    let page := { w with va := 0x200000 }
    let f : FenceProbe := { who := tWho, scope := .die, probes := [(0, 0)], echoed := [] }
    let m : Req := { who := tWho, va := 0x200000, size := 1, op := .store [1], reply := .nothing, phase := .home 0 true 0, posted := true, acq := false, heldUntil := 0, via := none }
    let k := { ClusterState.reset with waits := [(0, e), (1, { e with cond := .sync 0 }), (2, { e with cond := .bar 0 4 })] }
    let s : State := { ((tDev (tLine (tReg0 0))).setCluster 0 k).setCore 0 { tCore with storeBuf := [w] } with
      cycle := 256, noents := [(tWho, 3, 0)]
      fences := [f, { f with probes := [], echoed := [(0, 0)] }, { f with probes := [(1, 0)], echoed := [(0, 0)] }] }
    let t : State := { s.setCore 0 { tCore with storeBuf := [page] } with reqs := [m] }
    let owns : State := { t with reqs := [], regs := DevRegs.reset, l2 := ⟨[(0x2000, { pa := 0x2000000, wr := true, master := 0, sectors := Quad.all { st := .e, data := 0 }, used := 0 })], [], [], []⟩ }
    ((owns.core 0).storeBuf = [page] ∧ (owns.touch page.who page.va).writableHere 0 page.va = true ∧ owns.inPool page.va = false) ∧
    f.probes.contains (100, 0) = false ∧ ({ f with probes := [(100, 0)] } : FenceProbe).probes.contains (100, 0) = true ∧
    ((tDev (tLine (tReg0 0))).findEntry tWho.ctx).isSome = true ∧ Table.get? (s.cluster 0).waits 0 = some e ∧ e.since + e.limit ≤ s.cycle ∧
    Table.get? (s.cluster 0).waits 1 = some { e with cond := .sync 0 } ∧
    Table.get? (s.cluster 0).waits 2 = some { e with cond := .bar 0 4 } ∧
    s.noents.find? (fun x => x.1.ctx == 0x100000) = some (tWho, 3, 0) ∧
    ((s.core 0).storeBuf = [w] ∧ (s.core 0).sbPhase = .idle ∧ w.isWriteBack = false ∧ targetOf w.va = .clm 0 0x10000) ∧
    ((t.core 0).storeBuf = [page] ∧ targetOf page.va = .paged ∧ (t.touch page.who page.va).writableHere 0 page.va = false) ∧
    s.fences[0]? = some f ∧ f.probes.find? (fun p => !s.probeBusy f.who p) = some (0, 0) ∧
    s.fences[1]? = some { f with probes := [], echoed := [(0, 0)] } ∧ s.fences[2]?.isSome = true ∧
    t.fences[0]? = some f ∧ f.probes.find? (fun p => !t.probeBusy f.who p) = none := by decide +kernel

/-- PlbSteps, TranslationSteps and PageFaultMessages: a refill that a rights list serves and one that finds none, its context
still at the core; invalidations that a core and a brick have still to make; a lookup that a TLB answers and one that no entry
serves; a page-fault queue with room and a full one, and a slot of it under a lease. -/
theorem witness_translation :
    let o := tDev (tLine (tReg0 0))
    let f : PlbFill := { core := 0, who := tWho, va := 0x200000 }
    let v : InvReq := { who := tWho, domain := some 0, base := 0, log2 := 16, left := [0] }
    let r : Req := { who := tWho, va := 0x100000, size := 8, op := .load, reply := .reg 4 8 true, phase := .xlat, posted := false, acq := false, heldUntil := 0, via := none }
    let m : PfMsg := { who := tWho, cause := 1, access := 0, die := 0, va := 0 }
    let s : State := { o.setBrick 0 { tBrick with tlb := [(0, { entry := BitVec.ofNat 256 tPte, die := 0 })], pfHeld := [m] } with
      plbFills := [f], invs := [v, { v with domain := none }], reqs := [r, { r with va := 0x900000 }]
      regs := { o.regs with pfqBase := [(0, 0x1000000000000)] } }
    let listed : State := { s with
      mem := memPuts (memPuts [] 0x300000 (toBytes 32 (2 ^ 8 + 0x310000 * 2 ^ 64 + 2 ^ 160))) 0x310000 (toBytes 16 tRights.toNat)
      regs := { s.regs with drtBase := 0x300000, drtWritten := true } }
    let full : State := { s with regs := { s.regs with pfqTail := [(0, 2)], pfqHead := [(0, 0)] } }
    s.plbFills[0]? = some f ∧ s.refillEntry 0 0 f.va = none ∧ listed.refillEntry 0 0 f.va = some tRights.toNat ∧
    s.invs[0]? = some v ∧ v.left.contains 0 = true ∧ s.invs[1]? = some { v with domain := none } ∧
    s.reqs[0]? = some r ∧ r.phase = .xlat ∧ (s.lookup 0 r.va false).1.toOption = some tPte ∧
    (s.lookup 0 0x900000 false).1.toOption = none ∧ (s.brick 0).pfHeld[0]? = some m ∧ ringSlots (s.pfqBaseOf 0) = 2 ∧
    (s.pfqTailOf 0 + 2 ^ 32 - s.pfqHeadOf 0) % 2 ^ 32 = 0 ∧ (full.pfqTailOf 0 + 2 ^ 32 - full.pfqHeadOf 0) % 2 ^ 32 = 2 ∧
    (s.findEntry f.who.ctx).any (fun x => x.1 == 0 && x.2.2.line.gen == 0) = true ∧
    s.leased 0 32 = false ∧ ({ s with dir := [(0, { vaLine := 0, sectors := Quad.all { bricks := Quad.all .i, masters := Quad.all 0, formats := Quad.all [], host := .i }, leaseExp := 1, version := 0,
                                                      compatLog2 := 0, written := false })] } : State).leased 0 32 = true := by
  decide +kernel

/-- RouteResult: a page at home on the own brick, on another brick without a circuit, over one and while a commit holds the pair;
host and peer memory, the latter with a circuit, without one and while one tunes. -/
theorem witness_routes :
    let s : State := { tDev (tLine (tReg0 0)) with regs := DevRegs.reset }
    let own := (List.range 64).map (· * 256) |>.find? fun a => s.homeDie a == 0
    let away := 0x2000000
    let up := fun (x : Nat) (h : List (Nat × Nat)) =>
      ({ s with mortar := { s.mortar with active := [(0, BitVec.ofNat 64 (2 ^ 63 + x))], holding := h } } : State)
    s.inPool 0x900000 = false ∧ own.isSome = true ∧ s.rangeOf away = .hashed ∧ s.homeDie away = 1 ∧
    s.pairOpen 0 1 away = false ∧ s.pairOpen 0 0 away = true ∧ s.dieLive 1 = true ∧
    (up (2 * 2 ^ 61 + 2 ^ 10) []).pairOpen 0 1 away = true ∧ (up (2 * 2 ^ 61 + 2 ^ 10) [(0, 1)]).pairOpen 0 1 away = false ∧
    (up (2 ^ 61 + 2 ^ 10) []).pairOpen 0 1 away = false ∧ s.circuitTo 0 0 = false ∧ s.circuitTuning 0 0 = false ∧
    (up (2 * 2 ^ 61 + 2 ^ 15) []).circuitTo 0 0 = true ∧ (up (2 ^ 61 + 2 ^ 15) []).circuitTuning 0 0 = true := by decide +kernel

/-- MigrationSteps and MigrationLines: a round due, one with lines to move, and no round due; a frame not yet frozen, a frozen one
that is busy and one that is not; a line that can be moved, one that has to wait and a poisoned one; a job that was cancelled;
the last cycle before a freeze is abandoned, the cycle that abandons it, and the fourth abandonment. -/
theorem witness_migrations :
    let g : Migration := { job := (0, 0), who := tWho, page := 0x900000, size := 65536, oldFrame := 0x2000000, newFrame := 0x3000000, marked := [0x20000], pending := [], rounds := 0, frozenAt := none, abandoned := 0 }
    let r : Req := { who := tWho, va := 0x100000, size := 8, op := .load, reply := .reg 4 8 true, phase := .acks 0x2000000 0 0, posted := false, acq := false, heldUntil := 0, via := none }
    let z := { g with frozenAt := some 0 }
    let s : State := { tDev (tLine (tReg0 0)) with migrations := [g, z, { z with abandoned := 3 }, { g with rounds := 1 }], cycle := 12000, mortar := { Mortar.reset with active := defaultTable 2 } }
    let busy : State := { s with reqs := [r] }
    let bad : State := { s with poison := [0x2000000] }
    let x : JobSlot := { seq := 1, state := .active, order := 0, who := tWho, kind := .migrate 0x900000 0x3000000, progress := 0, held := none, ending := some .cancelled, waiters := [] }
    s.migrations[0]? = some g ∧ s.migrationEnding g = none ∧ g.pending = [] ∧ g.roundDue = true ∧
    (s.setCluster 0 { ClusterState.reset with jobs := [(0, x)] }).migrationEnding g = some .cancelled ∧
    ({ g with rounds := 1 } : Migration).roundDue = false ∧ ({ g with rounds := 1 } : Migration).frozenAt = none ∧
    (match s.migrateLine g 0x20000 with | .done _ => true | .wait _ | .page _ _ _ _ | .stop _ _ => false) = true ∧
    (match bad.migrateLine g 0x20000 with | .stop _ st => st == .poisoned | .wait _ | .page _ _ _ _ | .done _ => false) = true ∧
    s.MemoryOk ∧ s.rangeOf 0x3000000 = .hashed ∧
    s.migrations[1]? = some z ∧ ((s.freezeAll z).askFrame z).frameBusy z = false ∧ ((busy.freezeAll z).askFrame z).frameBusy z = true ∧
    (((s.freezeAll z).askFrame z).ownFrame z).isNone = true ∧
    0 + 12000 ≤ s.cycle ∧ ({ s with cycle := 11999 } : State).cycle < 0 + 12000 ∧ z.abandoned ≠ 3 ∧
    ({ z with abandoned := 3 } : Migration).abandoned = 3 := by
  (try simp only [State.MemoryOk]) <;> decide +kernel

/-- RegisterWriteSteps: a value that its register takes and one that it refuses, at the ends of its range, for the general
registers and for each row of its own. -/
theorem witness_register_writes :
    let o := tDev (tLine (tReg0 0))
    let s : State := tPart { o with regs := { o.regs with lqBase := [(1, 0x4000000000000)] } }
    let w := fun (b : Block) (offset width value : Nat) =>
      ({ src := .host, die := 0, block := b, offset := offset, width := width, value := BitVec.ofNat 64 value } : RegAccess)
    let free := fun (x : RegAccess) => registerFault x.die.val x.block x.offset x.width = none
    let takes := fun (b : Block) (o v : Nat) => (s.writeRegister 0 b o v).isSome
    (free (w .hostPort 0 8 1000) ∧ ownRow .hostPort 0 = none ∧ takes .hostPort 0 1000 = true ∧ takes .hostPort 0 3000 = true ∧
      takes .hostPort 0 999 = false ∧ takes .hostPort 0 3001 = false ∧ registerAt 0 .hostPort 0 = some (0, 8)) ∧
    (takes .translation 0x100 0 = true ∧ takes .translation 0x100 1 = true ∧ takes .translation 0x100 0x4000000000200 = true ∧
      takes .translation 0x100 0x4000000000100 = false ∧ takes .translation 0x100 0x3000000000000 = false ∧
      takes .translation 0x100 0x11000000000000 = false ∧ takes .translation 0x100 (2 ^ 53) = false) ∧
    (takes .coherence 8 1024 = true ∧ takes .coherence 8 512 = false ∧ takes .coherence 0x10 (2 ^ 20) = true ∧
      takes .coherence 0x10 (2 ^ 21) = false ∧ takes .coherence 0x18 255 = true ∧ takes .coherence 0x18 256 = false) ∧
    (takes .mortar 0 (2 ^ 63) = true ∧ takes .mortar 0 (2 ^ 61) = false ∧ takes .mortar 0 (2 ^ 16) = false ∧
      takes .mortar 0 (2 ^ 15 + 2 ^ 10) = false ∧ takes .mortar 0x200 0 = false ∧ takes .mortar 0x4F8 0 = false ∧
      takes .mortar 0x508 (2 ^ 20) = true ∧ takes .mortar 0x508 (15 * 2 ^ 16) = false ∧ takes .attestation 0x20 1 = false) ∧
    (free (w .fault 0x100 8 0x4000000000200) ∧ ringOk 0x4000000000200 32 = true ∧ ringOk 0x4000000000100 32 = false) ∧
    (free (w .scheduling 0x28 8 1) ∧ lqSlots (s.lqBaseOf 1) ≠ 0 ∧ lqSlots (s.lqBaseOf 0) = 0 ∧ free (w .scheduling 8 8 1)) ∧
    (free (w .translation 0x108 8 0) ∧ free (w .fault 0x110 8 0)) ∧
    (free (w .partition 8 8 0) ∧ s.rectOk 0 1 0 = true ∧ s.rectOk 0 1 0x80000000 = false) ∧
    (free (w .attestation 0x20 8 1) ∧ s.att.busy = false) := by decide +kernel

/-- Partition 0 holds cluster 0 alone; context 1 is free in the map at 0x500000. -/
def tSmall : Brick := { Brick.reset 0 with rects := [(0, 0x80000000)], freemapBase := 0x500000 }

/-- A launch record of two contexts, for brick 0, with a gang of g. -/
def tRecord (g : Nat) : Nat := 8 + 2 * 2 ^ 32 + g * 2 ^ 96 + 2 ^ 120

/-- The record stands at HEAD of queue 0, and the rights descriptor of domain 0 is valid. -/
def tLaunch (r : Nat) (free : Byte) : State :=
  let o := (tDev (tLine (tReg0 0))).setBrick 0 tSmall
  let m := memPuts (memPuts [] 0x300000 (toBytes 32 (2 ^ 8))) 0x310000 (toBytes 64 r)
  { o with mem := memPuts m 0x500000 [free], regs := { o.regs with lqBase := [(0, 0x4000000310000)], lqTail := [(0, 1)], drtBase := 0x300000, drtWritten := true } }

/-- LaunchSteps: a record that R307 accepts and one that it refuses; a Caldera with lines to reserve, with none, and with
too few for a gang; a chunk with its lines, one with too few, and one whose queue is empty; a device that runs an image. -/
theorem witness_launches :
    let s := tLaunch (tRecord 0) 2
    let c : ChunkReq := { die := 0, queue := 0, lines := [1] }
    let t : State := { s with chunks := [c] }
    (s.lqEmpty 0 = false ∧ (s.headWaits 0 false).isNone = true ∧ (s.headWaits 0 true).isNone = true ∧
      s.boot.running = false ∧ ({ s with boot := { s.boot with running := true } } : State).boot.running = true) ∧
    (t.partClusters 0 0 = [0] ∧ (s.ctxL2Put 0 (s.ctxVa 4) (launchLine (tRecord 0) 0 0 0)).2 = true) ∧
    s.headRecord 0 = some (tRecord 0) ∧ s.recordOk 0 (tRecord 0) = true ∧ s.recordOk 0 (tRecord 5000) = false ∧
    (s.dieLive 0 = true ∧ s.chunks.any (fun c => c.die == 0) = false ∧ (s.brick 0).ready.length < s.regs.expandLow.toNat) ∧
    s.openRecord 0 = some (0, tRecord 0) ∧ (s.reserveLines 0 64).1 = [4] ∧
    ((tLaunch (tRecord 2) 2).reserveLines 0 2).1.length ≠ 2 ∧ ((tLaunch (tRecord 2) 6).reserveLines 0 2).1.length = 2 ∧
    t.chunks = [c] ∧ s.mayExpand 0 0 (tRecord 0) = true ∧
    (0 < min (min c.lines.length 64) (recCount (tRecord 0) - recCursor (tRecord 0)) ∧ c.lines.length < recGang (tRecord 2)) ∧
    ({ s with regs := { s.regs with lqTail := [] } } : State).headRecord 0 = none := by decide +kernel

/-- ReadyAging, OfferSteps and StealSteps: an entry that rises and one that cannot; an entry in an unmapped page, one that is no longer READY, one
that a core takes, one that takes a victim's place, one that every core refuses, and one that no core of the brick accepts;
a Caldera that is idle and one that is not; a victim with an entry to hand over and one without; a sibling's deque. -/
theorem witness_ready_queues :
    let e : ReadyEntry := { va := 0x100080, level := 30, gain := 0, steal := .dev, since := 0, offered := false, notBefore := 0, tried := [], refused := false }
    let q := fun (l : Line) (es : List ReadyEntry) => ({ (tOut l false).setBrick 0 { tSmall with ready := es } with cycle := 65536 } : State)
    let s := q tReady [e]
    let full := { tCore with entries := (List.range 16).map fun n => (n, .held { tHeld (tLine (tReg0 0)) with va := 0x100000 + 128 * (n + 2), gang := n != 3 }) }
    let low := { tReady with control := 0x1F000000 }
    let busy := fun (l : Line) (c : CoreState) => { q l [e] with cores := (List.range 8).map fun n => (n, c) }
    let most := { full with entries := full.entries.map fun (n, x) => (n, match x with | .held h => .held { h with gang := true } | x => x) }
    let cores := fun (u : State) (l : Line) => (u.partCores l.partition 0).filter fun c => u.mayAccept c l
    let r : StealReq := { thief := 1, left := [0], parts := [0] }
    let sib : State := (q tReady []).setCore 1 { CoreState.reset with deque := [{ va := 0x100080, steal := .clu }] }
    let own : State := (q tReady [e]).setCore 0 { tCore with entries := [(0, .held (tHeld (tLine (tReg0 0))))], deque := [{ va := 0x100080, steal := .core }] }
    (own.dequeBottom 0).isSome = true ∧ freeEntry (own.core 0) = some 1 ∧
    (nextBrick 0 1 = none ∧ nextBrick 0 3 = some 1) ∧
    ((s.brick 0).ready[0]? = some e ∧ e.level < 31 ∧ e.since + 65536 ≤ s.cycle) ∧ ¬ ({ e with level := 31 } : ReadyEntry).level < 31 ∧
    (s.dieLive 0 = true ∧ heads (s.brick 0).ready = [(0, e)] ∧ s.place 0x100900 = .unmapped) ∧
    ((s.place e.va).line? = some tReady ∧ tReady.inState .ready = true ∧ s.dieLive (s.ctxHome e.va) = true) ∧
    (q (tReady.setState .halted) [e]).place e.va ≠ .unmapped ∧
    (s.nextCore 0 (s.place e.va) tReady ((cores s tReady).filter fun c => !e.tried.contains c) = some 0 ∧
      freeEntry (s.core 0) = some 1 ∧ s.dequeBottom 0 = none) ∧
    (let u := busy tReady full
     cores u tReady ≠ [] ∧ freeEntry (u.core 0) = none ∧ (chooseVictim (u.core 0) 31).isSome = true) ∧
    (let u := busy tReady most
     freeEntry (u.core 0) = none ∧ (chooseVictim (u.core 0) 31).isNone = true) ∧
    (cores s { low with control := 0x2000000 } = [] ∧ e.refused = false) ∧
    (s.calderaIdle 0 = false ∧ (q tReady []).calderaIdle 0 = true ∧ s.steals = [] ∧ (s.brick 0).stealAt ≤ s.cycle) ∧
    (((s.setBrick 1 { Brick.reset 1 with rects := [(0, 0x80000000)] }).handOver r 0).length = 1 ∧ (q tReady []).handOver r 0 = []) ∧
    (freeEntry (sib.core 0) = some 1 ∧ sib.offerFor 0 = false ∧ sib.dequeBottom 0 = none ∧
      sib.siblingEntry 0 = some (1, 0, { va := 0x100080, steal := .clu })) := by decide +kernel

/-- GangSteps and IssueSteps: a gang whose entries are all reserved, one that can reserve another, and one that cannot; a core
beyond its limit; turns PINNED with an eligible context and without one, IDLE, and POOL. -/
theorem witness_gangs_and_issue :
    let g : Gang := { ticket := 1, priority := 0, members := [(0x100080, some (0, 1))] }
    let m := { g with members := [(0x100080, none)] }
    let brick := fun (g : Gang) => { tSmall with gangs := [g] }
    let o := tOut tReady false
    let s := (o.setCore 0 { (o.core 0) with entries := [(0, .held (tHeld (tLine (tReg0 0)))), (1, .gang 1 0x100080)] }).setBrick 0 (brick g)
    let u := o.setBrick 0 (brick m)
    let v := (u.setCluster 0 ClusterState.reset)
    let c := { tCore with entries := [(0, .held (tHeld (tLine (tReg0 0))))] }
    let turnOf := fun (c : CoreState) => bits c.slotTab.toNat 7 0
    let pin := fun (n : Nat) => { c with slotTab := BitVec.ofNat 128 (c.slotTab.toNat - 0x40 + n) }
    (s.dieLive 0 = true ∧ (s.brick 0).gangs = [g] ∧ g.missing = none ∧ s.gangReady g = true) ∧
    ((u.brick 0).gangs = [m] ∧ m.missing = some 0 ∧ u.gangPlace m (u.gangCores 0 m) = some (0, 1, none)) ∧
    (v.gangPlace m (v.gangCores 0 m) = none) ∧
    ((s.setCore 0 { c with ctxl1Limit := 0 }).limitStep 0).isSome = true ∧ (u.newTable 0).limitStep 0 = none ∧
    (s.boot.running = false ∧ ({ s.boot with running := true } : BootState).running = true ∧
      ∀ e ∈ c.entries, e.1 < c.ctxl1Limit) ∧
    (s.mayIssue (tHeld (tLine (tReg0 0))) = true) ∧ ((s.headFor 0).isNone = true ∧ g.members[0]? = some (0x100080, some (0, 1))) ∧
    (c.slotTabNext = none ∧ o.dequeBottom 0 = none ∧ o.limitStep 0 = none) ∧
    (turnOf (pin 0x80) = 0x80 ∧ ((Table.get? (pin 0x80).entries 0).bind L1Entry.issuable).isSome = true) ∧
    (turnOf (pin 0x8F) = 0x80 + 15 ∧ ((Table.get? (pin 0x8F).entries 15).bind L1Entry.issuable).isNone = true) ∧
    turnOf (pin 0) / 64 = 0 ∧ turnOf c / 64 = 1 ∧ (o.brick 0).withheld.contains .poolCycles = false ∧
    (poolOrder c 0 (turnOf c / 16 % 4)).map (fun x => x.1) = [0] ∧ (tHeld (tLine (tReg0 0))).skip = false := by decide +kernel

/-- A turn is to go on with the state itself. -/
def goesOn (t : Turn) (s : State) : Bool :=
  match t with
  | .go u => decide (u = s)
  | .wait _ | .refuse _ _ | .frozen => false

theorem goesOn_eq {t : Turn} {s : State} (h : goesOn t s = true) : t = .go s := by
  cases t <;> simp_all [goesOn]

/-- The directory entry of the line at 0x2000000, with the sectors' bricks, formats and host in one state. -/
def tDir (b : Quad BrickState) (f : List (Fmt × Bool)) (h : HostState) : Table DirEntry :=
  [(0x20000, { vaLine := 0x1000, sectors := Quad.all { bricks := b, masters := Quad.all 0, formats := ⟨[], f, [], []⟩, host := h }, leaseExp := 0,
               version := 0, compatLog2 := 0, written := false })]

/-- A request of brick 0 for address 0x100000, at its home. -/
def tReq (op : AccessOp) : Req :=
  { who := tWho, va := 0x100000, size := 4, op := op, reply := .reg 4 4 true, phase := .home 0x2000000 true 2, posted := false,
    acq := false, heldUntil := 0, via := none }

/-- The request stands at its home beside a directory entry; no context pool. -/
def tHome (op : AccessOp) (d : Table DirEntry) : State :=
  { tDev (tLine (tReg0 0)) with reqs := [tReq op], dir := d, regs := DevRegs.reset }

/-- HomeReads: a read, a subscription and a change of precision, each with no other holder and with a brick in E; a range
that takes the format and one that does not; a poisoned sector. -/
theorem witness_home_reads :
    let none_ := tDir (Quad.all .i) [] .i
    let other := tDir ⟨.i, .e, .i, .i⟩ [] .i
    let mine := tDir ⟨.sub, .i, .i, .i⟩ [] .i
    let sub := AccessOp.subscribe (.b8 2 false true) false
    (AtHome (tHome .load none_) 0 (tReq .load) 0x2000000 true 2 ∧ AtHome (tHome sub none_) 0 (tReq sub) 0x2000000 true 2 ∧
      AtHome (tHome .load mine) 0 (tReq .load) 0x2000000 true 2) ∧
    (Unowned (tHome .load none_) 0x2000000 (some 0) ∧ (tHome .load none_).anyPoison 0x2000000 4 = false ∧
      ({ tHome .load none_ with poison := [0x2000000] } : State).anyPoison 0x2000000 4 = true ∧
      (((tHome .load none_).dropReq (tReq .load)).cachedRead 0 0x100000).isNone = true) ∧
    (AtHome (tHome .load other) 0 (tReq .load) 0x2000000 true 2 ∧
      ((tHome .load other).askShare 0x2000000 0x100000 (some 0)).hasSnoop 0x2000000 = true) ∧
    (((tHome .load mine).dirSector 0x2000000).bricks.get 0 = .sub ∧ ((tHome .load none_).dirSector 0x2000000).bricks.get 0 ≠ .sub) ∧
    subscribable 2 (.b8 2 false true) = true ∧ subscribable 0 (.b8 2 false true) = false ∧ subscribable 2 .bf16 = false := by
  refine ⟨⟨⟨?_, ?_, goesOn_eq ?_, ?_⟩, ⟨?_, ?_, goesOn_eq ?_, ?_⟩, ⟨?_, ?_, goesOn_eq ?_, ?_⟩⟩, ⟨⟨?_, ?_⟩, ?_⟩,
    ⟨⟨?_, ?_, goesOn_eq ?_, ?_⟩, ?_⟩, ?_⟩ <;> decide +kernel

/-- HomeWrites: a store that a lease holds, one whose hold is over, and one whose turn has come with a sector that its brick owns,
one with subscribers, owned elsewhere or not, and one that nobody holds; an atomic alone, one that joins a group and one that
opens it; requests that wait for acknowledgements; a group to be closed. -/
theorem witness_home_writes :
    let st := AccessOp.store [1, 2, 3, 4]
    let at_ := AccessOp.atomic .swap 7
    let ad := AccessOp.atomic .add 1
    let none_ := tDir (Quad.all .i) [] .i
    let other := tDir ⟨.i, .e, .i, .i⟩ [] .i
    let subs := tDir ⟨.i, .sub, .i, .i⟩ [(.b8 2 false true, false)] .i
    let both := tDir ⟨.e, .sub, .i, .i⟩ [(.b8 2 false true, false)] .i
    let leased := none_.map fun x => (x.1, { x.2 with leaseExp := 9 })
    let s := tHome st
    let owns : State := { s none_ with l2 := ⟨[(0x1000, { pa := 0x2000000, wr := true, master := 2, sectors := Quad.all { st := .e, data := 0 }, used := 0 })], [], [], []⟩ }
    let held := { tReq st with heldUntil := 1 }
    let acks := fun (op : AccessOp) => { tReq op with phase := .acks 0x2000000 0 0 }
    let c : CombineEntry := { pa := 0x2000000, size := 4, openedAt := 0, members := [tReq ad], slice := none, load := none, closing := true }
    let j : State := { tHome ad none_ with combine := [{ c with members := [{ tReq ad with va := 0x100000, acq := true }], closing := false }] }
    (AtHome (s leased) 0 (tReq st) 0x2000000 true 2 ∧ ¬ (s leased).leaseOf 0x2000000 ≤ (s leased).cycle) ∧
    (AtHome (s none_) 0 (tReq st) 0x2000000 true 2 ∧ (s none_).leaseOf 0x2000000 ≤ (s none_).cycle ∧
      AtHome { s none_ with reqs := [held] } 0 held 0x2000000 true 2 ∧ held.heldUntil ≠ 0) ∧
    (AtHome owns 0 (tReq st) 0x2000000 true 2 ∧ owns.brickOwns 0 0x100000 = true ∧ (s none_).brickOwns 0 0x100000 = false) ∧
    (AtHome (s subs) 0 (tReq st) 0x2000000 true 2 ∧ (s subs).subscribed 0x2000000 = true ∧ Unowned (s subs) 0x2000000 none ∧
      ((s both).askOwners 0x2000000 0x100000).hasSnoop 0x2000000 = true) ∧
    ((s other).subscribed 0x2000000 = false ∧ ((s other).askExclusive 0x2000000 0x100000 (some 0)).hasSnoop 0x2000000 = true ∧
      (s none_).otherBricks 0x2000000 (some 0) (· != .i) = [] ∧ ((s none_).dirSector 0x2000000).host = .i ∧
      (s none_).hasSnoop 0x2000000 = false) ∧
    (AtHome (tHome at_ none_) 0 (tReq at_) 0x2000000 true 2 ∧ Unowned (tHome at_ none_) 0x2000000 none ∧
      AtomicFn.combines .swap = false ∧ AtomicFn.combines .add = true ∧ AtHome (tHome ad none_) 0 (tReq ad) 0x2000000 true 2 ∧
      (tHome ad none_).combine.any (fun c => (tHome ad none_).joinsGroup c none (tReq ad) .add 0x2000000) = false) ∧
    (j.combine.any (fun c => j.joinsGroup c none (tReq ad) .add 0x2000000) = true ∧ j.firstAtHome 0 (tReq ad) 0x2000000 = true ∧
      j.frozenAt 0x2000000 = false ∧ j.alias 0x2000000 0x100000 = false ∧ j.behindHeld 0 0x2000000 false = false ∧
      j.dieLive (j.homeDie 0x2000000) = true ∧ (tHome ad none_).combineRoom ((tHome ad none_).homeDie 0x2000000, homeSlice 0x2000000) = true) ∧
    (let k : CombineEntry := { c with slice := some (0, 0x100000) }
     let u : State := { owns with combine := [k], reqs := [] }
     u.combine[0]? = some k ∧ u.brickOwns 0 0x100000 = true ∧ u.linePoison 0 0x100000 = false ∧ k.members.getLast? = some (tReq ad) ∧
      ({ s none_ with combine := [k] } : State).brickOwns 0 0x100000 = false) ∧
    (({ s none_ with reqs := [acks st, acks at_] } : State).hasSnoop 0x2000000 = false ∧
      ({ s none_ with snoops := [{ target := .brick 1, va := 0x100000, pa := 0x2000000, kind := .inval, acked := false }] } : State).hasSnoop 0x2000000 = true) ∧
    (let u : State := { s none_ with combine := [c], reqs := [] }
     u.combine[0]? = some c ∧ u.leaseOf c.pa ≤ u.cycle ∧ u.entryRoom c.pa = none ∧ u.onDevice c.pa = true ∧ Unowned u c.pa none ∧
      u.anyPoison c.pa c.size = false ∧ (s none_).tileSubs = []) ∧ (s leased).cycle < (s leased).leaseOf c.pa := by
  refine ⟨⟨⟨?_, ?_, goesOn_eq ?_, ?_⟩, ?_⟩, ⟨⟨?_, ?_, goesOn_eq ?_, ?_⟩, ?_, ⟨?_, ?_, goesOn_eq ?_, ?_⟩, ?_⟩,
    ⟨⟨?_, ?_, goesOn_eq ?_, ?_⟩, ?_⟩, ⟨⟨?_, ?_, goesOn_eq ?_, ?_⟩, ?_, ⟨?_, ?_⟩, ?_⟩, ?_,
    ⟨⟨?_, ?_, goesOn_eq ?_, ?_⟩, ⟨?_, ?_⟩, ?_, ?_, ⟨?_, ?_, goesOn_eq ?_, ?_⟩, ?_⟩, ?_, ?_, ?_, ⟨?_, ?_, ?_, ?_, ⟨?_, ?_⟩, ?_⟩, ?_⟩ <;>
    decide +kernel

/-- CombinedLoads: a load that its home has just served, and one of the same word that takes the entry's value, at its last member
and its last cycle, and past them. -/
theorem witness_combined_loads :
    let none_ := tDir (Quad.all .i) [] .i
    let e : CombineEntry := { pa := 0x2000000, size := 8, openedAt := 0, members := [], slice := none, load := some (7, 15), closing := false }
    let s : State := { tHome .load none_ with combine := [e], cycle := 15 }
    (AtHome s 0 (tReq .load) 0x2000000 true 2 ∧ Unowned s 0x2000000 (some 0) ∧ s.cachedRead 0 0x100000 = none ∧
      s.combine.findSome? (fun c => c.loads s (tReq .load) 0x2000000) = some (7, 15)) ∧
    ({ e with load := some (7, 16) } : CombineEntry).loads s (tReq .load) 0x2000000 = none ∧
    e.loads { s with cycle := 16 } (tReq .load) 0x2000000 = none ∧ tReq .load ∉ (s.dropReq (tReq .load)).reqs ∧
    s.combineRoom (s.homeDie 0x2000000, homeSlice 0x2000000) = true ∧
    (∀ b : Fin 4, ((s.dirSector 0x2000000).bricks.get b.val).owns = false) ∧ s.anyPoison 0x2000000 8 = false := by
  refine ⟨⟨⟨?_, ?_, goesOn_eq ?_, ?_⟩, ⟨?_, ?_⟩, ?_⟩, ?_⟩ <;> decide +kernel

/-- What a step of an access came to: 0 done, 1 wait, 2 stopped, 3 at a page fault. -/
def stepOf (x : CopyStep) : Nat :=
  match x with
  | .done _ => 0
  | .wait _ => 1
  | .stop _ _ => 2
  | .page _ _ _ _ => 3

/-- Domain 0 has every right on every address, by a rights list in memory. -/
def tGrant (s : State) : State :=
  { s with
    mem := memPuts (memPuts s.mem 0x300000 (toBytes 32 (2 ^ 8 + 0x310000 * 2 ^ 64 + 2 ^ 160))) 0x310000 (toBytes 16 tRights.toNat)
    regs := { s.regs with drtBase := 0x300000, drtWritten := true } }

/-- The 64 KiB page at 0x100000 stands in the TLB of brick 0. -/
def tPaged (s : State) : State :=
  s.setBrick 0 { s.brick 0 with tlb := [(0, { entry := BitVec.ofNat 256 tPte, die := 0 })] }

/-- CopySteps: a notice with dirty data and one without; a write-back and an invalidation at their home; each kind of snoop, to
be received and to be applied, with the brick in E or not; an entry that a lease kept, one whose lease runs and one that is
not idle; a back-invalidate; a read of the coherence agent. -/
theorem witness_copies_of_lines :
    let clean := tReq (.notice (Quad.all none))
    let dirty := tReq (.notice ⟨some 1, none, none, none⟩)
    let none_ := tDir (Quad.all .i) [] .i
    let mine := tDir ⟨.e, .i, .i, .i⟩ [] .i
    let x : Snoop := { target := .brick 0, va := 0x100000, pa := 0x2000000, kind := .inval, acked := false }
    let s : State := { tHome .load mine with
      reqs := [clean, dirty]
      snoops := [x, { x with acked := true }, { x with kind := .share }, { x with kind := .update .bf16 2 0, acked := true }, { x with target := .host }]
      outbox := [.cxlCacheRead 0x400000000000 true] }
    let lease := fun (d : Table DirEntry) => d.map fun y => (y.1, { y.2 with leaseExp := 9 })
    let idle := fun (t : State) (e : Nat) => ((Table.get? t.dir e).map fun e => [0, 1, 2, 3].all fun k => (e.sectors.get k).idle) = some true
    let t : State := { tHome .load (lease none_) with cycle := 9 }
    (s.leaseOf 0x2000000 ≤ s.cycle ∧ (tHome .cwb (lease none_)).cycle < (tHome .cwb (lease none_)).leaseOf 0x2000000 ∧
      (tHome .cwb none_).brickDirtyLine 0 0x100000 = false) ∧
    s.reqs[0]? = some clean ∧ noticeDirty (Quad.all none) = false ∧ s.reqs[1]? = some dirty ∧ noticeDirty ⟨some 1, none, none, none⟩ = true ∧
    AtHome (tHome .cwb none_) 0 (tReq .cwb) 0x2000000 true 2 ∧ AtHome (tHome .cinv mine) 0 (tReq .cinv) 0x2000000 true 2 ∧
    ((tHome .cinv mine).recallLine 0x2000000 0x100000).snoopPending (tReq .cinv) 0x2000000 = true ∧
    (s.snoops[0]? = some x ∧ s.snoops[1]? = some { x with acked := true } ∧ s.snoops[2]? = some { x with kind := .share } ∧
      s.snoops[4]? = some { x with target := .host }) ∧
    ((s.dirSector 0x2000000).bricks.get 0 = .e ∧ ((tHome .load none_).dirSector 0x2000000).bricks.get 0 ≠ .e) ∧
    (t.onDevice (0x20000 * 256) = true ∧ idle t 0x20000 ∧ 9 ≤ t.cycle ∧ (tHome .load (lease none_)).cycle < 9 ∧
      ¬ idle (tHome .load mine) 0x20000) ∧
    s.outbox[0]? = some (.cxlCacheRead 0x400000000000 true) := by
  refine ⟨?_, ?_, ?_, ?_, ?_, ⟨?_, ?_, goesOn_eq ?_, ?_⟩, ⟨?_, ?_, goesOn_eq ?_, ?_⟩, ?_⟩ <;> decide +kernel

/-- WriteBackEffects: a brick with a dirty sector of a line, and one with none. -/
theorem witness_write_backs :
    let x : SecCopy := { st := .m, data := 9 }
    let s : State := { tHome .load (tDir ⟨.m, .i, .i, .i⟩ [] .i) with
      l2 := ⟨[(0x1000, { pa := 0x2000000, wr := true, master := 0, sectors := Quad.all x, used := 0 })], [], [], []⟩ }
    s.MemoryOk ∧ s.brickDirty 0 (lineOfAddr 0x100000) (sectorIndex 0x100000) = some 9 ∧
    s.brickDirty 1 (lineOfAddr 0x100000) (sectorIndex 0x100000) = none ∧ s.heldInBrick 1 0x100000 = false := by
  (try simp only [State.MemoryOk]) <;> decide +kernel

/-- HostSteps: a sector that no home serves, a poisoned one, and one whose turn has come, for a read and for a write; a snoop of a
host-coherent sector that the device holds in M and of one that it does not hold; a PCIe access of a context and of a unit, in
time and too late. -/
theorem witness_host :
    let o (op : OuterOp) : OuterReq := { port := none, addr := 0x2000000, op := op, held := none, performed := false }
    let d := tDir (Quad.all .i) [] .i
    let bs : List (Option Byte) := some 1 :: List.replicate 63 none
    let s : State := { tDev (tLine (tReg0 0)) with dir := d, boot := { BootState.reset with hbmTrained := true } }
    let r : State := { s with outers := [o .hostRead] }
    let w : State := { s with outers := [o (.hostWrite bs)] }
    let q : OutReq := { who := tWho, va := 0x200000, pa := 0x800000000000, size := 4, op := .load, reply := .reg 4 4 true, master := 0, posted := false, acq := false, unit := none, mask := 0, sentAt := 0 }
    let probe := { q with size := 0, reply := .nothing }
    let u : State := { s with outReqs := [q, { q with unit := some (.job 0 0 0) }], cycle := 2 ^ 26
                              dcaOwn := [(lineOfAddr 0x400000000000, Quad.all .m)] }
    let own := fun (pa : Nat) => ((Table.get? u.dcaOwn (lineOfAddr pa)).getD (Quad.all .i)).get (sectorIndex pa)
    s.outers = [] ∧ (0x2000000 : Nat) < 0x020000000000 ∧ (0x02FFFFFF0000 : Nat) / 64 * 64 = 0x02FFFFFF0000 ∧
    r.hostHome 0x00C000000000 = false ∧ ({ r with poison := [0x2000000] } : State).isPoisoned 0x2000000 = true ∧
    (r.hostHome 0x2000000 = true ∧ r.isPoisoned 0x2000000 = false ∧ r.hostWaits (o .hostRead) true = none ∧
      r.poolVaOf 0x2000000 = none ∧ r.otherBricks 0x2000000 none BrickState.owns = [] ∧ (r.dirRoom 0x2000000).isNone = true ∧
      (r.dirOf 0x2000000).isSome = true) ∧
    ((List.range 64).map (fun i => if i < 0 then none else ([1] : List Byte)[i - 0]?) = bs ∧ w.hostHome 0x2000000 = true ∧
      w.hostWaits (o (.hostWrite bs)) false = none ∧ w.poolVaOf 0x2000000 = none ∧ s.leaseOf 0x2000000 ≤ s.cycle ∧
      w.otherBricks 0x2000000 none BrickState.owns = [] ∧ (∀ b : Fin 4, (w.dirSector 0x2000000).bricks.get b.val = .i) ∧
      (let sh : State := { w with dir := tDir (Quad.all .s) [] .i }
       (∀ b : Fin 4, (sh.dirSector 0x2000000).bricks.get b.val = .s) ∧ sh.otherBricks 0x2000000 none BrickState.owns = [] ∧
         sh.hostWaits (o (.hostWrite bs)) false = none) ∧ w.hostHome 0x00C000000000 = false) ∧
    (u.rangeOf 0x400000000000 = .hostCoherent ∧ own 0x400000000000 = .m ∧ own 0x400000001000 = .i) ∧
    (registerFault 0 (blockAt 0 0).1 (blockAt 0 0).2 8 = none ∧ registerFault 0 (blockAt 0 4).1 (blockAt 0 4).2 8 ≠ none) ∧
    (({ u with outReqs := [probe] } : State).pcieOut 0 = some probe ∧ probe.isProbe = true ∧ q.isProbe = false) ∧
    (u.pcieOut 0 = some q ∧ q.reply ≠ .reissue ∧ u.pcieOut 1 = some { q with unit := some (.job 0 0 0) } ∧
      s.cycle < q.sentAt + 2 ^ 26 ∧ q.sentAt + 2 ^ 26 ≤ u.cycle) := by
  refine ⟨?_, ?_, ?_, ?_, ?_, ?_, ?_, ?_, ?_, ?_⟩ <;> decide +kernel

/-- A circuit of brick 0 to the optical port 0, whose window of 2^32 bytes starts at address 0. -/
def tPeer : State :=
  let o := tGrant (tPaged (tPart (tDev (tLine (tReg0 0)))))
  { o with mortar := { o.mortar with
      active := defaultTable 2 ++ [(40, BitVec.ofNat 64 (2 ^ 63 + 2 * 2 ^ 61 + 2 ^ 15))], talakVbase := [(0, 0x00FE000000000000)]
      talakCfg := [(0, BitVec.ofNat 64 (2 ^ 31 + 32 * 2 ^ 16))] } }

/-- PeerSteps: a port without a circuit, an offset inside the window, the last one and the first outside; a GET and a PUT of
bytes of a CLM, with the PUT acknowledged; accesses sent to an optical port. -/
theorem witness_peers :
    let s := tPeer
    let cfg := regOf s.mortar.talakCfg 0
    let a := 0x00FE000000010000
    let o (op : OuterOp) : OuterReq := { port := some 0, addr := a, op := op, held := none, performed := false }
    let at_ (op : OuterOp) : State := { s with outers := [o op] }
    let c (op : OuterOp) : CopyAt := (at_ op).peerAt 0 0 false
    let put := OuterOp.put [some 1]
    let q : OutReq := { who := tWho, va := 0x200000, pa := 0xC00000000000, size := 4, op := .load, reply := .reg 4 4 true, master := 0, posted := false, acq := false, unit := none, mask := 0, sentAt := 0 }
    let u : State := { s with outReqs := [q, { q with posted := true }] }
    (s.portDie 0 = some 0 ∧ s.portDie 1 = none) ∧
    (bit cfg 31 = true ∧ 2 ^ bits cfg 21 16 = 2 ^ 32 ∧ bits (regOf s.mortar.talakVbase 0) 55 0 + 0x10000 = a) ∧
    (s.outers = [] ∧ targetOf a = .clm 0 0x10000) ∧
    stepOf ((at_ (.get 1)).copyReadAll (c (.get 1)) rightsR 0 (sectorRuns a 1)) = 0 ∧
    ((at_ put).leasedLine (c put) a = none ∧ stepOf ((at_ put).peerPut (c put) (o put) [some 1]) = 0 ∧
      (at_ put).peerAcked (c put) (o put) = true ∧
      ({ at_ put with outReqs := [{ q with unit := some (.peer 0), posted := true }] } : State).peerAcked (c put) (o put) = false) ∧
    (u.talakOut 0 = some q ∧ q.reply ≠ .reissue ∧ u.talakOut 1 = some { q with posted := true }) := by decide +kernel

/-- PeerSteps: a line of the paged space that can be leased, at a port without compatibility. -/
theorem witness_leases :
    let s : State := { tPeer with dir := tDir (Quad.all .i) [] .i, regs := { tPeer.regs with ctxPoolCount := 0 } }
    let o : OuterReq := { port := some 0, addr := 0x100000, op := .lease, held := none, performed := false }
    let at_ : State := { s with outers := [o] }
    let c := at_.peerAt 0 0 false
    stepOf (at_.leaseReady c o) = 0 ∧ (at_.translate 0 0x100000 false).toOption = some tPte ∧
    (at_.dirOf (pteAddr tPte 0x100000)).isSome = true ∧ at_.compatPort (at_.homeDie (pteAddr tPte 0x100000)) 0 = false := by
  decide +kernel

/-- The descriptor of a live tile of generation 1 at a base of the TSP, with extra bits. -/
def tTile (base rows cols pitch fmt extra : Nat) : Nat :=
  base + cols * 2 ^ 72 + rows * 2 ^ 80 + pitch * 2 ^ 96 + fmt * 2 ^ 112 + 2 ^ 124 + 2 ^ 125 + extra

/-- Cluster 0 with some descriptors from index 0 up; domain 0 has every right. -/
def tTiles (ds : List Nat) : State :=
  let o := tGrant (tPart (tDev (tLine (tReg0 0))))
  let o := { o with mortar := { o.mortar with active := defaultTable 2 } }
  (List.range ds.length).foldl (fun s i => s.putDesc 0 i (ds[i]?.getD 0)) o

/-- CopyJobSteps: submissions that are taken, that find a full queue, of a 17th migration, and of each tile job, with a dead handle,
a tile of the wrong kind and one of the right kind. -/
theorem witness_job_submission :
    let s := tTiles [tTile 0 2 2 64 9 0, tTile 0x100 2 2 64 0x25 (2 ^ 122 + 0x100000 * 2 ^ 200)]
    let h := mkHandle 0 1 0
    let g := mkHandle 0 1 1
    let x : JobSlot := { seq := 1, state := .queued, order := 0, who := tWho, kind := .copy 0 0 0, progress := 0, held := none, ending := none, waiters := [] }
    let m := { x with kind := .migrate 0x100000 0x3000000 }
    let full := (List.range 64).map fun i => (i, x)
    let moves := (List.range 16).map fun i => (i, m)
    let ready := fun (jobs : Table JobSlot) => s.setCluster 0 { ClusterState.reset with jobs := jobs }
    (JobKind.copy 0 0 0).handle = none ∧ (s.submitJob 0 tWho (.copy 0 0 1)).isSome = true ∧ s.migrationJobs < 16 ∧
    ((ready full).submitJob 0 tWho (.copy 0 0 1)).isNone = true ∧ 16 ≤ (ready moves).migrationJobs ∧
    Reachable s tWho 0 ∧ (JobKind.tloadSub g).handle = some g ∧ s.lookupHandle 0 (h + 1024) = none ∧
    ((s.lookupHandle 0 h).map dSub = some false ∧ (s.lookupHandle 0 g).map dSub = some true) := by
  refine ⟨?_, ?_, ?_, ?_, ?_, ⟨?_, ?_⟩, ?_⟩ <;> decide +kernel

/-- CopyJobSteps: four running jobs, none queued, and a queued job of each kind, one with nothing to copy among them. -/
theorem witness_job_start :
    let s := tTiles []
    let x : JobSlot := { seq := 1, state := .queued, order := 0, who := tWho, kind := .copy 0x00FE000000010000 0x00FE000000011000 8, progress := 0, held := none, ending := none, waiters := [] }
    let with_ := fun (jobs : Table JobSlot) => s.setCluster 0 { ClusterState.reset with jobs := jobs }
    let running := fun (u : State) => ((u.cluster 0).jobs.filter fun x => x.2.isRunning).length
    let next := fun (u : State) => leastBy (fun a b => decide (a.2.order < b.2.order)) ((u.cluster 0).jobs.filter fun x => x.2.state == .queued)
    let a := { x with state := .active }
    4 ≤ running (with_ [(0, a), (1, a), (2, a), (3, a)]) ∧ running (with_ [(0, a), (1, a), (2, a), (3, x)]) < 4 ∧
    next (with_ [(0, { x with order := 1 }), (1, x)]) = some (1, x) ∧ (s.brick 0).withheld.contains .jobStarts = false ∧
    x.kind.line 0 0 0 ≠ none ∧ (JobKind.copy 0 0 0).line 0 0 0 = none := by decide +kernel

/-- CopyJobSteps: the line of an active job that is read and written, one that waits for a frozen frame, one that is stopped by the
rights, one at a page fault, and the end of a job; the sources of copies. -/
theorem witness_job_lines :
    let s := tPaged (tTiles [])
    let x : JobSlot := { seq := 1, state := .active, order := 0, who := tWho, kind := .copy 0x00FE000000010000 0x00FE000000011000 8, progress := 0, held := none, ending := none, waiters := [] }
    let t := s.setCluster 0 { ClusterState.reset with jobs := [(0, x), (1, { x with state := .queued })] }
    let c : CopyAt := { unit := .job 0 0 1, who := tWho, cluster := 0, held := false }
    let l := 0x00FE000000010000 / 256
    let g : Migration := { job := (0, 0), who := tWho, page := 0x100000, size := 65536, oldFrame := 0x2000000, newFrame := 0x3000000, marked := [], pending := [], rounds := 0, frozenAt := some 0, abandoned := 0 }
    let frozen : State := { t with migrations := [g] }
    Table.get? (t.cluster 0).jobs 0 = some x ∧ (t.inflow.find? fun f => f.unit == c.unit && f.bad.isSome) = none ∧
    t.copyPending c x.kind x.progress = false ∧ x.kind.line 0 (t.jobDesc x.kind) 0 = some l ∧
    x.kind.line 0 (t.jobDesc x.kind) 1 = none ∧ stepOf (t.copyLine c x.kind l) = 0 ∧
    stepOf (frozen.copyLine c (.copy 0x100000 0x00FE000000011000 8) 0x1000) = 1 ∧
    stepOf (({ t with regs := DevRegs.reset } : State).copyLine c x.kind l) = 2 ∧
    stepOf (t.copyLine c (.copy 0x00FE000000010000 0x900000 8) l) = 3 := by decide +kernel

/-- CopyInternalSteps: a load that reads its directory entry and its descriptor, one that finds its slot LOADING with its image readable, one that has a run to take and one that has
none, one that waits and one that fails; a refresh to start and eight that run; a refresh that is done, one that starts again,
one that is stopped and one that waits for its circuit. -/
theorem witness_internal_copies :
    let l : OverlayLoad := { core := 0, domain := 0, overlay := 0, who := tWho, slot := some 0, image := 0x00FE000000010000, dirEntry := none, desc := none, pageWait := false, waiters := [] }
    let n := { l with slot := none, dirEntry := some (0x00FE000000012000 + 2 ^ 64), desc := some (0x00FE000000010000 + 64 * 2 ^ 64 + 2 ^ 127) }
    let l := { n with slot := some 0 }
    let new := { n with dirEntry := none, desc := none }
    let x : Slot := { tSlot with state := .loading, length := 64, constWords := 0 }
    let o := tGrant (tPart (tDev (tLine (tReg0 0))))
    let lists := memPuts (memPuts o.mem 0x320000 (toBytes 16 (0x00FE000000012000 + 2 ^ 64))) 0x00FE000000012000
      (toBytes 16 (0x00FE000000010000 + 64 * 2 ^ 64 + 2 ^ 127))
    let s : State := { (o.setCore 0 { tCore with slots := [(0, x)] }).setCluster 0 { ClusterState.reset with loads := [l, n] } with
      mem := lists, regs := { o.regs with ovtDirBase := 0x320000, ovtWritten := true } }
    let core := fun (slots : Table Slot) => s.setCore 0 { tCore with slots := slots }
    let kind := fun (x : LoadStep) => match x with | .fail => 0 | .page _ _ _ => 1 | .wait _ => 2 | .ready _ _ _ _ => 3 | .known _ _ => 4
    s.loadingSlot l = some x ∧ kind (s.loadNext l) = 3 ∧ kind (s.loadNext n) = 3 ∧
    kind (s.loadNext new) = 4 ∧ kind (s.loadNext { n with desc := none }) = 4 ∧ s.loadingSlot n = none ∧
    chooseRun (s.core 0) 1 = some 1 ∧ chooseRun ((core [(0, x), (1, { x with first := 1 })]).core 0) 1 = none ∧
    kind (({ s with regs := o.regs } : State).loadNext new) = 0 ∧ granulesOf 64 0 = 1 ∧
    (let r : Refresh := { index := 0, running := false, again := false, pageWait := false, who := tWho, jobs := [] }
     let run := { r with running := true }
     let t := (tPaged (tTiles [tTile 0 1 1 64 0x25 (2 ^ 122 + 0x100000 * 2 ^ 200)])).setCluster 0 { ClusterState.reset with refreshes := [r, run, { run with again := true }] }
     let u : State := { t with regs := DevRegs.reset }
     let f : State := { t with regs := { t.regs with ctxPoolCount := 0 } }
     let w : State := { t with regs := { t.regs with ctxPoolCount := 0 }, poison := [0x2000000] }
     ((t.cluster 0).refreshes.filter fun r => r.running).length < 8 ∧ (t.cluster 0).refreshes.findIdx? (fun r => !r.running) = some 0 ∧
     ((List.replicate 8 run).filter fun r => r.running).length = 8 ∧
     (t.cluster 0).refreshes[1]? = some run ∧ stepOf (f.refreshStep 0 run) = 0 ∧ stepOf (u.refreshStep 0 run) = 2 ∧
     stepOf (w.refreshStep 0 run) = 2) := by decide +kernel

/-- TileUnitSteps: an arrival that a check refuses, one set aside, one queued, one that frees its tile, and a template; an
operation with its tiles readable and one with poison; a template that is not valid, and one that finds a free index and
none; a tile to be zeroed that is still used and one that is not; a notice for a live handle and for a dead one. -/
theorem witness_tile_unit :
    let a := tTile 0 2 2 64 9 0
    let stale := tTile 0x100 2 2 64 0x25 (2 ^ 122 + 2 ^ 121 + 0x100000 * 2 ^ 200)
    let s := tTiles [a, tTile 0x200 2 2 64 9 0, stale]
    let op : TileOp := { who := tWho, cluster := 0, kind := .add, handles := [(0, mkHandle 0 1 0), (1, mkHandle 0 1 0), (2, mkHandle 0 1 1)], rm := .rne, sat := false, key := 0, dest := none }
    let info := { op with kind := .get 0, handles := [(1, mkHandle 0 1 0)], dest := some 4 }
    let template := a - 2 ^ 124 - 2 ^ 125
    let desc := { op with kind := .desc (BitVec.ofNat 256 template) 1, handles := [], dest := some 4 }
    let bad := { s with poison := [tspBase 0] }
    let z : Zeroing := { index := 5, addr := tspBase 0, pitch := 64, rows := 2, rowBytes := 8, waiter := some tWho }
    let used := { op with handles := [(1, s.handleOf 0 5)] }
    Reachable s tWho 0 ∧ s.tileBad op = none ∧
    ((s.tileBad { op with handles := [(0, mkHandle 0 2 0)] }).isSome = true ∧ s.staleSource op = false ∧
      s.staleSource { op with handles := [(0, mkHandle 0 1 0), (1, mkHandle 0 1 2)] } = true ∧
      s.tileBad { op with handles := [(0, mkHandle 0 1 0), (1, mkHandle 0 1 2), (2, mkHandle 0 1 1)] } = none) ∧
    (s.tileBad { op with kind := .free, handles := [(1, mkHandle 0 1 0)] } = none ∧ op.kind ≠ .free) ∧
    ((op.run s.mem s.poison (s.descsOf op.handles)).bad = none ∧ (op.run bad.mem bad.poison (s.descsOf op.handles)).bad.isSome = true ∧
      (info.run s.mem s.poison (s.descsOf info.handles)).reg.isSome = true ∧ desc.dest = some 4) ∧
    (templateOk (BitVec.ofNat 256 template).toNat = true ∧ templateOk (BitVec.ofNat 256 (template + 1)).toNat = false) ∧
    (z.waiter = some tWho ∧ dSub (s.desc 0 5) = false ∧ (s.cluster 0).uses (s.handleOf 0 5) = false ∧
      ({ ClusterState.reset with tileQ := [used] } : ClusterState).uses (s.handleOf 0 5) = true) ∧
    (s.liveHandle (mkHandle 0 1 0) = true ∧ s.liveHandle (mkHandle 0 2 0) = false) := by
  refine ⟨⟨?_, ?_⟩, ?_⟩ <;> decide +kernel

theorem memNat_above (m : List Host.Cell) (n : Nat) : ∀ a, (∀ c ∈ m, c.1 < a) → memNat m a n = 0 := by
  have byte (a : Nat) : (∀ c ∈ m, c.1 < a) → memByte m a = 0 := by
    induction m with
    | nil => simp [memByte]
    | cons c m ih => intro h; simp [memByte]; have := h c (by simp); split <;> first | omega | (split <;> first | omega | (exact ih fun c hc => h c (by simp [hc])))
  induction n with
  | zero => simp [memNat, memBytes, ofBytes]
  | succ n ih =>
    intro a h
    have := ih (a + 1) fun c hc => Nat.lt_succ_of_lt (h c hc)
    have b := byte a h
    simp only [memNat, memBytes, ofBytes] at this ⊢
    simp [b, this]

theorem templateBad_none (s : State) (w : Who) (t : Nat) (h : ∀ i, s.desc 0 i = 0) (d : s.deniedRow w 0 t rightsW = none)
    (sub : dSub t = false) : s.templateBad w 0 t = none := by
  have v : dValid 0 = false := by decide
  have e : (((List.range 1024).map fun i => s.desc 0 i).filter fun d => dValid d && dDomain d != w.domain.toNat) = [] := by
    refine List.filter_eq_nil_iff.mpr fun d m => ?_
    obtain ⟨i, -, rfl⟩ := List.mem_map.mp m
    simp [h, v]
  have f : ((List.range (dRows t)).find? fun _ => false) = none := by simp
  simp only [State.templateBad, e, List.any_nil, f, d, sub]
  rfl

/-- TileUnitSteps: a template whose rows the context may write, beside no other domain's tiles. -/
theorem witness_template : (tTiles []).templateBad tWho 0 (2 ^ 72 + 2 ^ 80 + 64 * 2 ^ 96 + 9 * 2 ^ 112) = none := by
  refine templateBad_none _ _ _ (fun i => memNat_above _ _ _ fun c hc => ?_) (by decide +kernel) (by decide +kernel)
  exact Nat.lt_of_lt_of_le ((by decide +kernel : ∀ c ∈ (tTiles []).mem, c.1 < descAddr 0 0) c hc) (by simp [descAddr])

/-- TileUnitSteps: `tdesc` finds a free index, and none while every tile is being zeroed. -/
theorem witness_free_tiles : (tTiles []).freeTile 0 = some 0 ∧
    ((tTiles []).setCluster 0 { ClusterState.reset with zeroing := (List.range 1024).map fun i =>
      ({ index := i, addr := tspBase 0, pitch := 64, rows := 1, rowBytes := 4, waiter := none } : Zeroing) }).freeTile 0 = none := by
  refine ⟨by decide +kernel, ?_⟩
  generalize tTiles [] = s
  have e (k : ClusterState) : (s.setCluster 0 k).cluster 0 = k := State.cluster_setCluster s 0 k
  simp only [State.freeTile, e, List.find?_eq_none]
  intro i h
  simp at h ⊢
  omega

/-- GeyserSteps: a request that a check refuses at each place, one that is admitted and one that is held; `mxflush`,
`mxnorm` and `mxexp`; a stack whose deadline has come and one whose deadline has not; a thread to try again; a READY stack
to select; a stack that fires a member. -/
theorem witness_geyser :
    let acc := tTile 0 2 2 64 0x0E (2 ^ 123)
    let a := tTile 0x200 2 2 64 0x0B 0
    let b := tTile 0x300 2 2 64 0x0B 0
    let s := tTiles [acc, a, b, tTile 0x400 3 3 64 9 0]
    let h := fun (i : Nat) => mkHandle 0 1 i
    let q : MxReq := { who := tWho, cluster := 0, kind := .mxm false false false 0 0 false, handles := [(0, h 0), (1, h 1), (2, h 2)], priority := 0, holdClass := 0, dest := none, arrived := 0 }
    let form := { q with handles := [(0, h 3), (1, h 1), (2, h 2)] }
    let dead := { q with handles := [(0, h 0), (1, h 1), (2, mkHandle 0 2 2)] }
    let norm := { q with kind := .norm 0, handles := [(1, h 0)], dest := some 4 }
    let exp := { q with kind := .exp true, handles := [(1, h 0)], dest := some 4 }
    let key : StackKey := { handle := h 2, version := 0, bFmt := 0x0B, aFmt := 0x0B, trans := false, neg := false }
    let x : Stack := { state := .opened, key := key, members := [(q, 2)], deadline := 5, admitted := 0, latched := false }
    let full := (List.range 16).map fun i => (i, { x with key := { key with handle := h 2 + 100 + i } })
    let t : State := { s with mxArrivals := [q, { q with arrived := 1 }], cycle := 256, mxRetries := [(tWho, 0), (tWho, 1)] }
    let k := { ClusterState.reset with mxStacks := [(0, { x with state := .ready })] }
    let fire := { x with state := .firing, latched := true }
    (t.mxArrivals[0]? = some q ∧ nextArrival t.mxArrivals 0 = some q ∧ nextArrival t.mxArrivals 0 ≠ some { q with arrived := 1 }) ∧
    Reachable t tWho 0 ∧ (t.badHandle tWho q.handles = none ∧ (t.badHandle tWho dead.handles).isSome = true) ∧
    ((t.mxFormBad form false false).isSome = true ∧ t.mxFormBad q false false = none ∧ t.mxRightsBad q = none ∧
      (({ t with regs := DevRegs.reset } : State).mxRightsBad q).isSome = true) ∧
    ((t.mxAdmit q).2 = true ∧ ((t.setCluster 0 { ClusterState.reset with mxStacks := full }).mxAdmit q).2 = false) ∧
    (t.normBad norm rightsRW (targetBad 0) = none ∧ t.normBad exp rightsRW false = none) ∧
    (x.deadline ≤ t.cycle ∧ s.cycle < x.deadline ∧ t.mxRetries[0]? = some (tWho, 0) ∧ 0 + 256 ≤ t.cycle ∧ t.cycle < 1 + 256) ∧
    (let u := t.setCluster 0 k
     k.firing = none ∧ k.engineQ = [] ∧ (u.brick 0).withheld.contains .firings = false ∧ u.selectStack 0 = some (0, { x with state := .ready }) ∧
      unreadable u.mem u.poison (dView 0 (u.desc 0 2)) = none ∧ t.selectStack 0 = none) ∧
    (({ k with mxStacks := [(0, fire)] } : ClusterState).firing = some (0, fire) ∧ t.memberDenied q = none ∧ t.memberPoison q = none) ∧
    unreadable t.mem t.poison (dView 0 (t.mxDesc norm 1)) = none := by
  refine ⟨?_, ⟨?_, ?_⟩, ?_⟩ <;> decide +kernel

/-- GeyserSteps: a cluster that has admitted in this cycle and one that has not; the end of a pass of the pending list, with a request
that is admitted and one that is not; a latch that still holds its tile, one of another version, and one that a write has met; a
thread whose RETRY is still on its way. -/
theorem witness_geyser_passes :
    let acc := tTile 0 2 2 64 0x0E (2 ^ 123)
    let a := tTile 0x200 2 2 64 0x0B 0
    let b := tTile 0x300 2 2 64 0x0B 0
    let s := tTiles [acc, a, b]
    let h := fun (i : Nat) => mkHandle 0 1 i
    let q : MxReq := { who := tWho, cluster := 0, kind := .mxm false false false 0 0 false, handles := [(0, h 0), (1, h 1), (2, h 2)], priority := 0, holdClass := 0, dest := none, arrived := 0 }
    let key : StackKey := { handle := h 2, version := 0, bFmt := 0x0B, aFmt := 0x0B, trans := false, neg := false }
    let x : Stack := { state := .opened, key := key, members := [(q, 2)], deadline := 5, admitted := 0, latched := false }
    let full := (List.range 16).map fun i => (i, { x with key := { key with handle := h 2 + 100 + i } })
    let k : ClusterState := { ClusterState.reset with serving := [q], admittedAt := some 9 }
    let t := s.setCluster 0 k
    let d := s.desc 0 2
    let l : Latch := ⟨h 2, dVersion d, dFormat d, false, latchCodes s.mem (dView 0 d) false, tileSpans 0 d, false⟩
    let m : Msg := { ctx := 0x100000, gen := 0, kind := 1, who := tWho, body := .wake, handle := none }
    (k.admissionBusy 9 = true ∧ ClusterState.reset.admissionBusy 9 = false) ∧
    (t.mxArrivals[2 ^ 20]? = none ∧ (t.cluster 0).serving = [q] ∧ k.admittedAt ≠ some s.cycle ∧ (t.mxAdmit q).2 = true ∧
      ((s.setCluster 0 { k with mxStacks := full }).mxAdmit q).2 = false) ∧
    (l.fits l = true ∧ ({ l with version := 1 } : Latch).fits l = false) ∧
    m.who = tWho ∧ m.kind = 1 ∧ s.msgs = [] := by decide +kernel

/-- MortarSteps: a write that CT_COMMIT refuses, a table that is accepted and one that is not; circuits being tuned, in time and too
late; a brick that may be quiesced and writes that are refused; a brick that drains, one that is idle, one in RESET; a module
of a link in use, in retraining and out. -/
theorem witness_mortar :
    let s := tDev (tLine (tReg0 0))
    let w : RegAccess := { die := 0, block := .mortar, offset := 0x400, width := 8, value := 1, src := .host }
    let q := { w with offset := 0x428 }
    let m := s.mortar
    let up := { s with mortar := { m with shadow := defaultTable 0 } }
    let bad := { s with mortar := { m with shadow := [(3, 0x10000)] } }
    let e := BitVec.ofNat 64 (2 ^ 63 + 2 ^ 61 + 2 ^ 15)
    let tuning := { s with mortar := { m with ctStatus := 1, active := [(0, e)], commitAt := some 0 }, cycle := 34999 }
    let late := { tuning with cycle := 35000 }
    let quiescing : State := { s with mortar := { m with bricks := ⟨.live, .quiescing, .live, .live⟩ } }
    let holds := quiescing.setCluster 512 { ClusterState.reset with tileQ := [{ who := tWho, cluster := 512, kind := .free, handles := [], rm := .rne, sat := false, key := 0, dest := none }] }
    let out := s.setBrick 0 { s.brick 0 with ucieOut := [1], ucieRetraining := [2] }
    (registerFault 0 .mortar 0x400 8 = none ∧ ownRow .mortar 0x400 = some .ctCommit ∧ registerFault 0 .mortar 0x428 8 = none ∧
      ownRow .mortar 0x428 = some .brickState ∧ w.value = 1 ∧ ({ w with value := 2 } : RegAccess).value ≠ 1) ∧
    (bits s.mortar.ctStatus.toNat 1 0 ≠ 1 ∧ up.ctRefusal = none ∧ bad.ctRefusal = some (1, some 3)) ∧
    (bits tuning.mortar.ctStatus.toNat 1 0 = 1 ∧ tuning.mortar.bricks = Quad.all .live ∧ (∀ d, (Quad.all DieState.live).get d ≠ .admitting) ∧ tuning.mortar.commitAt = some 0 ∧
      ctLink e.toNat = 1 ∧ tuning.cycle < 0 + 35000 ∧ 0 + 35000 ≤ late.cycle) ∧
    ((q.offset - 0x420) / 8 = 1 ∧ (∀ k ∈ [0, 1, 2, 3], s.dieLive k = true) ∧ ¬ ∀ k ∈ [0, 1, 2, 3], quiescing.dieLive k = true) ∧
    (quiescing.dieIn .quiescing = some 1 ∧ (quiescing.drainDie 1).dieIdle 1 = true ∧ (holds.drainDie 1).dieIdle 1 = false ∧
      s.dieIn .quiescing = none ∧ ({ s with mortar := { m with bricks := ⟨.live, .reset, .live, .live⟩ } } : State).dieIn .reset = some 1) ∧
    ((out.brick 0).ucieOut.contains 31 = false ∧ (out.brick 0).ucieRetraining.contains 31 = false ∧
      (out.brick 0).ucieRetraining.contains 2 = true ∧ (out.brick 0).ucieOut.contains 2 = false) := by
  refine ⟨?_, ?_, ⟨?_, ?_, fun d => ?_, ?_⟩, ?_⟩ <;> first | decide +kernel | (simp only [Quad.get, Quad.all]; split <;> simp)

/-- BootSteps: an attestation that is asked for, of a running image. -/
theorem witness_boot :
    let f : FirmwareImage := { body := [1], key := [2], signature := [3], version := 1, writes := [] }
    let s : State := { tDev (tLine (tReg0 0)) with
      boot := { BootState.reset with image := some f, flash := some f, recovery := true }
      att := { State.reset.att with busy := true } }
    s.boot.flash = some f ∧ s.boot.recovery = true ∧ State.reset.boot.recovery = false ∧ s.att.busy = true ∧
    s.boot.image = some f ∧ State.reset.att.busy = false := by decide +kernel

/-- The latched context of `tLine` in entry 0 of core 0, at the word of an overlay's image. -/
def tIssue (header word next : Nat) : State :=
  { tDev (tLine (tReg0 0)) with latch := some (0, 0), mem := memPuts [] (clmBase 0) (toBytes 4 header ++ toBytes 4 word ++ toBytes 4 next) }

/-- StepIssues and FetchStops: a word without a literal and one with; an overlay that is not resident; an offset at the end of the
image; a header; a bad header; a literal that the header does not mark, and one that it marks too much; a word that does not
decode. -/
theorem witness_fetch :
    let s := tIssue 1 0x0386DFFD 0
    let two := tIssue 5 0x02848000 0x100
    let h := tHeld (tLine (tReg0 0))
    s.latch = some (0, 0) ∧ Table.get? (s.core 0).entries 0 = some (.held h) ∧ h.line.inState .resident = true ∧ h.draining = false ∧
    execSlot (s.core 0) h.line.domain h.line.pcOverlay = some tSlot ∧ execSlot CoreState.reset 0 0 = none ∧
    (h.overran = false ∧ h.line.pcOffset < tSlot.length ∧ h.line.pcOffset % 64 = 4 ∧ slotBase 0 tSlot = clmBase 0) ∧
    (memNat s.mem (clmBase 0 + 0) 4 = 1 ∧ headerValid 1 = true ∧ bit 1 1 = false ∧ bit 1 2 = false ∧
      memNat s.mem (clmBase 0 + 4) 4 = 0x0386DFFD ∧ takesLiteral 0x0386DFFD = false) ∧
    (memNat two.mem (clmBase 0 + 0) 4 = 5 ∧ headerValid 5 = true ∧ bit 5 1 = false ∧ bit 5 2 = true ∧
      memNat two.mem (clmBase 0 + 4) 4 = 0x02848000 ∧ takesLiteral 0x02848000 = true ∧ memNat two.mem (clmBase 0 + 8) 4 = 0x100) ∧
    (({ tLine (tReg0 0) with pc := 1024 } : Line).pcOffset = tSlot.length ∧ ({ tLine (tReg0 0) with pc := 64 } : Line).pcOffset % 64 = 0 ∧
      headerValid 0 = false ∧ headerValid 3 = false ∧ headerValid 13 = false) := by decide +kernel

theorem witness_fetch_decodes : decodeWords 0x0386DFFD 0 = .ok (.addRI ⟨false, 0⟩ 6 6 0x1FFD) ∧
    (∃ e, decodeWords 0 0 = .error e) := ⟨rfl, ⟨_, rfl⟩⟩

/-- StepOtherwise, EveryStepAnswers and StepKeepsMemory: a step of the device on the agenda; none; a latch that is given up. -/
theorem witness_agenda :
    let s : State := { tDev (tLine (tReg0 0)) with agenda := [.brickQuiesceComplete] }
    s.latch = none ∧ s.agenda = [.brickQuiesceComplete] ∧ (∀ i ∈ s.agenda, isDeviceStep i = true) ∧ s.MemoryOk ∧
    ((tLine (tReg0 0)).setState .halted).inState .resident = false := by
  refine ⟨rfl, rfl, ?_, ?_, ?_⟩
  · intro i h
    rcases List.mem_singleton.mp h with rfl
    rfl
  · (try simp only [State.MemoryOk]); decide +kernel
  · decide +kernel

/-- EncodeThenDecode and DecodeThenEncode: a well-formed instruction of each number of words. -/
theorem witness_well_formed : wellFormed (.addRI ⟨false, 0⟩ 6 6 0x1FFD) = true ∧ isDeviceStep (.addRI ⟨false, 0⟩ 6 6 0x1FFD) = false ∧
    wellFormed (.cmpRL ⟨false, 0⟩ 3 4 false .w64 .ltu 1000) = true := ⟨rfl, rfl, rfl⟩

/-! ## Witnesses: reads made again, poisoned words, waits at homes and banks -/

/-- ReturnResult: what a reply brought for a target that no cache holds, in another core's CLM, in a register block, in a page outside
the pool, in a FREE line of the pool and in the context's own line. -/
theorem witness_rereads :
    let l := fun (k : Nat) => { tLine (tReg0 0) with link := BitVec.ofNat 64 k }
    let b := fun (k : Nat) => { tBarrel (l k) with held := { tHeld (l k) with popped := some (k, 4) } }
    let s := fun (k : Nat) => { tMap (tState (l k)) with barrel := some (b k) }
    let far := 0x00FE000100010008
    let reg := 0x00FC000000000000
    let pool := 0x100088
    Runs (s far) (b far) tAlways ∧ (b far).held.popped = some (far, 4) ∧ (∀ die o, targetOf far ≠ .reg die o) ∧ (s far).anyPoison far 8 = false ∧
    (Reaches (s reg) (b reg) .g reg 8 reg rightsR ∧ targetOf reg = .reg 0 0 ∧ registerFault 0 (blockAt 0 0).1 (blockAt 0 0).2 8 = none) ∧
    ((s 0x200008).cachedRead 0 0x200008 = none ∧ (s 0x200008).inPool 0x200008 = false) ∧
    (Reaches (s pool) (b pool) .g pool 8 pool rightsR ∧ (s pool).cachedRead 0 pool = none ∧ (s pool).inPool pool = true ∧
      ((s pool).place (pool / 128 * 128)).line?.any (fun l => l.inState .free) = true ∧
      (s pool).anyPoison (0x2000000 + 0x88) 8 = false ∧ (s pool).quarantine = [] ∧
      (s 0x100008).inPool 0x100008 = true ∧ 0x100008 / 128 * 128 = (b 0x100008).held.va ∧ pool / 128 * 128 ≠ (b pool).held.va ∧
      (s 0x100008).badCtxs = []) := by
  refine ⟨?_, ?_, ?_, ?_, ⟨?_, ?_⟩, ?_, ⟨?_, ?_⟩⟩ <;>
    first
      | (try simp only [Runs, Reaches, Allowed]) <;> decide +kernel
      | (intro die o h; exact absurd (show Target.clm 4096 0x10008 = .reg die o from h) nofun)

/-- GuardRule and RegisterOnlyFrame: a constant in a poisoned unit; FetchStops: a poisoned word at the PC. -/
theorem witness_poisoned_words :
    let b := tBarrel (tLine (tReg0 0))
    let s : State := { tState (tLine (tReg0 0)) with poison := [constAddr b 3 / 64 * 64] }
    let t : State := { tIssue 1 0x0386DFFD 0 with poison := [clmBase 0] }
    s.barrel = some b ∧ (Instr.addRK tAlways 4 1 .w32 3).constIndex = some 3 ∧ (3 : Nat) < b.constWords ∧
    s.isPoisoned (constAddr b 3) = true ∧ guardHolds b.held.line tAlways = true ∧ (Instr.addRK tAlways 4 1 .w32 3).registerOnly = true ∧
    t.isPoisoned (slotBase 0 tSlot + 4) = true ∧ t.latch = some (0, 0) ∧ (slotBase 0 tSlot + 4) % 2 ^ 56 = clmBase 0 + 4 := by
  decide +kernel

/-- SyncSent: the context's own store to the sync word stands in its core's buffer. -/
theorem witness_own_ahead :
    let va := 0x00FD000000000040
    let s := tState tMem
    let b := tBarrel tMem
    let e : SbEntry := { who := b.who, va := va, size := 16, op := .store (toBytes 16 1), reply := .nothing, posted := true, acq := false }
    Runs (s.buffer b e) b tAlways ∧ Reaches (s.buffer b e) b .g (tMem.reg 1).toNat 16 va rightsR ∧ targetOf va = .tsp 0 0x40 ∧
    (s.buffer b e).ownAhead b va = true ∧ s.ownAhead b va = false ∧ Settled s b .dev := by
  refine ⟨?_, ?_, ?_, ?_, ?_, ?_⟩ <;> (try simp only [Runs, Reaches, Allowed, Settled, Drained, State.buffer]) <;> decide +kernel

/-- MessageSteps: the reply of a `jwait`, which acquires, to a context that waits with KIND JOB. -/
theorem witness_acquired_reply :
    let l := ((tLine (tReg0 0)).setWait 2 4).setState .wait
    let m : Msg := { ctx := 0x100000, gen := 0, kind := 2, who := tWho, body := .done [(4, 7)] none 0, handle := none }
    let s : State := { tDev l with msgs := [m] }
    let a := ({ s with msgs := listErase s.msgs 0 } : State).acquireAt (dieOfCore 0)
    HeldAt s 0x100000 0 0 (tHeld l) ∧ s.msgs[0]? = some m ∧ Answers m l ∧ m.acquires = true ∧ HeldAt a 0x100000 0 0 (tHeld l) := by
  refine ⟨⟨?_, ?_⟩, ?_, ⟨?_, ?_, ?_⟩, ?_, ⟨?_, ?_⟩⟩ <;> decide +kernel

/-- EndOfContextResult: children left, and a successor of a `halt` with RETAIN, none and one in the pool. -/
theorem witness_halt_with_children :
    let l := { tLine ⟨0, 0x101F80, 0, 0, 0, 0, 0, 0⟩ with joinCount := 1 }
    Runs (tState l) (tBarrel l) tAlways ∧ l.joinCount ≠ 0 ∧ l.reg 0 = 0 ∧ (l.reg 1).toNat % 128 = 0 ∧
    (tState l).inPool (l.reg 1).toNat = true := by
  (try simp only [Runs]) <;> decide +kernel

/-- TimedWakes: the timed wake of a held head (18) is due beside that of its context's own wait (8), kept in its entry or not. -/
theorem witness_two_timed_wakes :
    let l := ((tLine (tReg0 0)).setWait 8 (5 * 2 ^ 24)).setState .wait
    let e : SbEntry := { who := tWho, va := 0x200000, size := 8, op := .load, reply := .nothing, posted := true, acq := false }
    let s : State := { tDev l with cycle := 512, timers := [(tWho, 18, 512), (tWho, 8, 512)] }
    let kept := s.setCore 0 { tCore with entries := [(0, .held { tHeld l with draining := true })], storeBuf := [e], sbPhase := .page 5 }
    let due := fun (t : State) (kind : Nat) => t.timers.find? fun x => x.1.ctx == 0x100000 && x.2.1 == kind && decide (x.2.2 ≤ t.cycle)
    due s 18 = some (tWho, 18, 512) ∧ due { s with timers := [(tWho, 8, 512)] } 18 = none ∧
    due { s with timers := [(tWho, 8, 512)] } 8 = some (tWho, 8, 512) ∧ due { s with timers := [] } 8 = none ∧
    (kept.place 0x100000 = .entry 0 0 { tHeld l with draining := true } ∧ pageHeld (kept.core 0) 0x100000 = true) ∧
    (s.place 0x100000).line? = some l ∧ l.waitValue / 2 ^ 24 = 5 ∧ (tLine (tReg0 0)).waitValue / 2 ^ 24 ≠ 5 := by decide +kernel
/-- EvictionSteps: a write-back at the head of the buffer of a context that was RESIDENT, of one that was READY, and of one that wrote
through the host port of its brick. -/
theorem witness_ordinary_evictions :
    let h := { tHeld (tLine (tReg0 0)) with draining := true }
    let r := { h with line := tReady }
    let w : SbEntry := { who := tWho, va := 0x100000, size := 0, op := .notice (Quad.all none), reply := .nothing, posted := true, acq := false }
    let s := fun (h : Held) => (tDev h.line).setCore 0 { tCore with entries := [(0, .held h)], storeBuf := [w] }
    (h.line.inState .resident = true ∧ r.line.inState .ready = true ∧ h.ending ≠ .freed ∧ h.line.deferredPc = 0) ∧
    ((s h).unacked h.va = false ∧ w.isWriteBack = true ∧ w.who.ctx = h.va ∧ h.ports.contains 8 = false) ∧
    ((s h).ctxL2Put 0 h.va ((h.line.setTouched 0).setState .ready)).2 = true ∧ ((s r).ctxL2Put 0 r.va (r.line.setTouched 0)).2 = true ∧
    ({ h with ports := [8] } : Held).ports.contains 8 = true := by decide +kernel

/-- SoftErrors: an error in the line of a context in an entry, in a context L2 and on its way, and its mark. -/
theorem witness_cached_context_errors :
    let s := tOut tReady false
    let x : Transfer := { va := 0x100100, line := tReady, core := 0, entry := 1, gang := false }
    let t : State := { s with transfers := [x], badCtxs := [0x100080] }
    s.badCtxs.contains 0x100000 = false ∧ s.place 0x100000 = .entry 0 0 (tHeld (tLine (tReg0 0))) ∧
    s.place 0x100080 = .l2 0 { line := tReady, order := 0, wbWait := false, retryAt := 0 } ∧ t.place 0x100100 = .transfer x ∧
    t.badCtxs.contains 0x100080 = true ∧ tReady.inState .free = false := by decide +kernel

/-- ReadyQueueSteps, StealSteps, GangSteps and IssueSteps: a gang that waits for an entry of the core, and a head that the core could be
offered above the bottom of its deque. -/
theorem witness_gang_wants :
    let g : Gang := { ticket := 1, priority := 0, members := [(0x100080, none)] }
    let e : ReadyEntry := { va := 0x100080, level := 30, gain := 0, steal := .dev, since := 0, offered := false, notBefore := 0, tried := [], refused := false }
    let o := tOut tReady false
    let u := o.setBrick 0 { tSmall with gangs := [g] }
    let d := (o.setCore 0 { o.core 0 with deque := [{ va := 0x100080, steal := .core }] }).setBrick 0 { tSmall with ready := [e] }
    u.gangWants 0 = true ∧ o.gangWants 0 = false ∧ freeEntry (u.core 0) = some 1 ∧ u.dieLive 0 = true ∧
    (d.headFor 0 = some e ∧ (d.dequeBottom 0).map (·.2) = some 0 ∧ 0 < e.level ∧ freeEntry (d.core 0) = some 1 ∧ d.gangWants 0 = false) := by decide +kernel

/-- BankUnits: at a TSP, an integer and a floating-point atomic, a full/empty operation on a FULL and on an EMPTY word, a barrier word
that another arrival leaves open, one that it completes and one that breaks its format, and operations on a sync word; a free place and
a full table; guards that stand in the way and ones that do not. -/
theorem witness_bank_units :
    let va := 0x00FD000000000040
    let q : BankReq := { who := tWho, addr := va, size := 16, op := .barrier true 1, reply := .reg 4 8 true, posted := false, acq := false }
    let o := tPart (tDev (tLine (tReg0 0)))
    let s := fun (r : BankReq) (w : Nat) => ({ o with bankQ := [r], mem := memPuts [] va (toBytes 16 w) } : State)
    let w := fun (x : Nat) => memNat (s q x).mem va 16
    let add := { q with size := 8, op := .atomic .add 5 }
    let fadd := { q with size := 4, op := .atomic (.fadd .f32) 0x3F800000 }
    let fe := { q with size := 4, op := .ldfe }
    let sarm := { q with op := .sarm false 0x1000 0x100 0, reply := .queue 4 1 }
    let e : WaitEntry := { who := tWho, addr := 0, cond := .full, since := 0, limit := 0 }
    let g : GuardRange := { start := 0x1080, len := 0x100, sync := 0x40 }
    let guarded := (s sarm 0).setCluster 0 { ClusterState.reset with guards := [(0, g)] }
    ((s q 2).bankTurn 0 q).isSome = true ∧ Reachable (s q 2) q.who (clusterAt va) ∧ targetOf va = .tsp 0 0x40 ∧ (s q 2).MemoryOk ∧
    q.reply ≠ .reissue ∧ ((s add 7).bankTurn 0 add).isSome = true ∧ ((s fadd 0x3F800000).bankTurn 0 fadd).isSome = true ∧
    ((s fe 7).bankTurn 0 fe).isSome = true ∧ (s fe 7).isFull va = false ∧ ((s fe 7).setFull va true).isFull va = true ∧
    (s q 2).anyPoison va 16 = false ∧ ({ s q 2 with poison := [va] } : State).anyPoison va 16 = true ∧
    (w (barrierWord 2 0 4 0 0) % 2 ^ 16 = 2 ∧ w (barrierWord 2 0 4 0 0) / 2 ^ 16 % 2 ^ 16 + 1 < 2 ∧
      w (barrierWord 2 1 4 0 0) / 2 ^ 16 % 2 ^ 16 + 1 = 2 ∧ 5 ≤ w (barrierWord 2 0 5 0 0) / 2 ^ 32 % 2 ^ 4) ∧
    (w (3 * 2 ^ 64) / 2 ^ 64 % 2 ^ 32 = 3 ∧ freeIndex ((s q 2).cluster 0).waits 256 0 = some 0 ∧
      freeIndex (List.ofFn fun i : Fin 256 => (i.val, e)) 256 0 = none) ∧
    (guarded.bankTurn 0 sarm).isSome = true ∧ (guarded.cluster 0).guards.any (fun e => decide (0 < overlapBytes 0x1000 0x100 e.2.start e.2.len)) = true ∧
    (guarded.cluster 0).guards.find? (fun e => e.2.sync == va - tspBase 0) = some (0, g) ∧
    (s sarm 0).anyPoison va 16 = false ∧ ((s sarm 0).bankTurn 0 sarm).isSome = true ∧ freeIndex ((s sarm 0).cluster 0).guards 16 0 = some 0 := by
  refine ⟨?_, ⟨?_, ?_⟩, ?_, ?_, ?_⟩ <;> (try simp only [State.MemoryOk]) <;> decide +kernel
/-- CombinedLoads: the entry of a load that its caching slice has executed, which no load at the home joins. CopyEvents: a notice that
waits for its circuit, one whose turn has come, and one behind another; a snoop whose brick has no circuit to the home, and one behind
a write-back of the brick that a lease holds. -/
theorem witness_waiting_copies :
    let none_ := tDir (Quad.all .i) [] .i
    let clean := tReq (.notice (Quad.all none))
    let dirty := tReq (.notice ⟨some 1, none, none, none⟩)
    let x : Snoop := { target := .brick 0, va := 0x100000, pa := 0x2000000, kind := .inval, acked := false }
    let s : State := { tHome .load none_ with reqs := [clean, dirty], snoops := [x], mortar := { Mortar.reset with active := defaultTable 2 } }
    let cut : State := { s with mortar := { s.mortar with active := [] } }
    let leased : State := { s with dir := none_.map fun y => (y.1, { y.2 with leaseExp := 9 }) }
    let e : CombineEntry := { pa := 0x2000000, size := 8, openedAt := 0, members := [], slice := some (0, 0x100000), load := some (7, 1), closing := false }
    e.slice ≠ none ∧ e.load = some (7, 1) ∧ e.loads s (tReq .load) 0x2000000 = none ∧ e.sliceAt 0 0x100000 = true ∧
    (s.lineOpen 0 0x2000000 = true ∧ s.firstAtHome 0 clean 0x2000000 = true ∧ s.firstAtHome 1 dirty 0x2000000 = false) ∧
    (cut.lineOpen 0 0x2000000 = false ∧ clean.via = none) ∧ (s.ownHeld 0 0x2000000 = false ∧ leased.ownHeld 0 0x2000000 = true) ∧
    s.snoops[0]? = some x := by decide +kernel

/-- HostSteps: a sector of a pool line whose context stands in an entry, which has first to leave it, and in a context L2 or none; one that
waits for a snoop; a write that a lease holds. -/
theorem witness_host_pool :
    let o (op : OuterOp) : OuterReq := { port := none, addr := 0x2000000, op := op, held := none, performed := false }
    let up : State := tMap (tOut tReady false)
    let s : State := { up with dir := tDir (Quad.all .i) [] .i, boot := { up.boot with hbmTrained := true }, mortar := { up.mortar with active := defaultTable 2 } }
    let t : State := { s with outers := [o .hostRead] }
    let w : State := { t with snoops := [{ target := .brick 1, va := 0x100000, pa := 0x2000000, kind := .inval, acked := false }] }
    let leased : State := { t with dir := t.dir.map fun y => (y.1, { y.2 with leaseExp := 9 }) }
    (s.outers = [] ∧ t.hostHome 0x2000000 = true ∧ (t.hostWaits (o .hostRead) true).isNone = true ∧ t.poolVaOf 0x2000000 = some 0x100000) ∧
    (t.recallCtx 0x100000).2 = false ∧ ((t.recallCtx 0x100080).2 = true ∧ t.poolVaOf 0x2000100 = some 0x100100 ∧
      (t.recallCtx 0x100100).2 = true ∧ (t.recallCtx 0x100100).1.poolVaOf 0x2000100 = some 0x100100) ∧
    (w.hostWaits (o .hostRead) true).isSome = true ∧ leased.cycle < leased.leaseOf 0x2000000 := by
  refine ⟨?_, ?_, ?_, ?_, ?_⟩ <;> decide +kernel

/-- PeerSteps: an ATOMIC on a word of a CLM that is done at once and one whose port still has a posted access on its way; a misaligned
one and one of a poisoned word; a PUT into a leased line; a port with the compatibility lease. -/
theorem witness_peer_atomics :
    let a := 0x00FE000000010000
    let op := OuterOp.atomic .add 8 1 0
    let o : OuterReq := { port := some 0, addr := a, op := op, held := none, performed := false }
    let s : State := { tPeer with outers := [o] }
    let c := s.peerAt 0 0 false
    let q : OutReq := { who := tWho, va := 0x200000, pa := 0xC00000000000, size := 4, op := .load, reply := .nothing, master := 0, posted := true, acq := false, unit := some (.peer 0), mask := 0, sentAt := 0 }
    let places := sectorPlaces a ((List.range 8).map fun i => (a + i, 1))
    let l : State := { tPeer with dir := (tDir (Quad.all .i) [] .i).map (fun y => (y.1, { y.2 with leaseExp := 9 })), regs := { tPeer.regs with ctxPoolCount := 0 } }
    let p : OuterReq := { port := some 0, addr := 0x100000, op := .put [some 1], held := none, performed := false }
    let at_ : State := { l with outers := [p] }
    let compat := { s with bricks := ⟨s.brick 0, { s.brick 1 with portCompat := 1 }, s.brick 2, s.brick 3⟩ }
    (s.peerAtomicBad c a 8 = none ∧ (a + 4) % 8 ≠ 0 ∧ (s.peerAtomicBad c (a + 4) 8).isSome = true ∧
      ({ s with poison := [a] } : State).peerAtomicBad c a 8 = some .poisoned) ∧
    (s.outsideWord c a = none ∧ s.leasedLine c a = none ∧ stepOf (s.copyWrite c a) = 0 ∧ stepOf (s.copyPut c a places) = 0 ∧
      s.peerAcked c o = true ∧ ({ s with outReqs := [q] } : State).peerAcked c o = false) ∧
    (at_.leasedLine (at_.peerAt 0 0 false) 0x100000 = some 0x20000 ∧
      stepOf (at_.peerPut (at_.peerAt 0 0 false) p [some 1]) = 1) ∧
    compat.compatPort (compat.homeDie 0x2000000) 0 = true ∧ compat.onDevice 0x2000000 = true ∧ (at_.dirOf 0x2000000).isSome = true := by
  refine ⟨?_, ?_, ?_, ?_⟩ <;> decide +kernel

/-- PeerSteps: an ATOMIC on a paged word of the device, and a read of a copy unit that a peer answers. -/
theorem witness_peer_paged :
    let op := OuterOp.atomic .cas 4 1 0
    let o : OuterReq := { port := some 0, addr := 0x100000, op := op, held := none, performed := false }
    let s : State := { tPeer with dir := tDir (Quad.all .i) [] .i, regs := { tPeer.regs with ctxPoolCount := 0 }, outers := [o] }
    let c := s.peerAt 0 0 false
    let places := sectorPlaces 0x100000 ((List.range 4).map fun i => (0x100000 + i, 1))
    let q : OutReq := { who := tWho, va := 0x200000, pa := 0xC00000000000, size := 64, op := .load, reply := .nothing, master := 0, posted := false, acq := false, unit := some (.job 0 0 0), mask := 0, sentAt := 0 }
    (s.peerAtomicBad c 0x100000 4 = none ∧ s.outsideWord c 0x100000 = none ∧ s.leasedLine c 0x100000 = none) ∧
    (stepOf (s.copyWrite c 0x100000) = 0 ∧ stepOf (s.copyPut c 0x100000 places) = 0) ∧
    ((s.translate c.die 0x100000 true).toOption = some tPte ∧ s.onDevice (pteAddr tPte 0x100000) = true ∧ s.inPool 0x100000 = false) ∧
    (({ s with outReqs := [q] } : State).talakOut 0 = some q ∧ q.posted = false ∧ q.unit = some (.job 0 0 0)) := by
  refine ⟨?_, ?_, ?_, ?_⟩ <;> decide +kernel
/-- JobQueries: jobs of another cluster to be cancelled: an ACTIVE copy, a QUEUED one, and a `tload.sub`. -/
theorem witness_remote_cancel :
    let l := tLine ⟨jobId 1 1 0, jobId 1 1 1, jobId 1 1 2, 0, 0, 0, 0, 0⟩
    let b := tBarrel l
    let x : JobSlot := { seq := 1, state := .active, order := 0, who := b.who, kind := .copy 0 0 0, progress := 0, held := none, ending := none, waiters := [] }
    let s := tPart ((tState l).setCluster 1
      { ClusterState.reset with jobs := [(0, x), (1, { x with state := .queued }), (2, { x with kind := .tloadSub 0, state := .pageWait })] })
    (∀ r ∈ ([0, 1, 2] : List Reg), s.inPartition l.partition (jobCluster (l.reg r).toNat) = true ∧ jobCluster (l.reg r).toNat = 1 ∧
      (l.reg r).toNat < 2 ^ 27) ∧ clusterOfCore b.core = 0 ∧
    s.jobOf (l.reg 0).toNat = some x ∧ (s.jobOf (l.reg 1).toNat).map (·.state) = some .queued ∧
    (s.jobOf (l.reg 2).toNat).map (·.kind) = some (.tloadSub 0) ∧ x.who.domain.toNat = l.domain := by
  decide +kernel

/-- CopyJobSteps: of two submissions to a queue, the port after the last one served goes first; none is served twice in a cycle. -/
theorem witness_submission_turn :
    let x (c : Nat) : JobReq := { who := { tWho with core := c }, cluster := 0, kind := .copy 0 0 8, d := 4, pf := 1 }
    let k (p : Nat) : ClusterState := { ClusterState.reset with submitPort := p }
    let s (p : Nat) : State := { (tTiles []).setCluster 0 (k p) with jobReqs := [x 0, x 2] }
    let busy : State := (s 0).setCluster 0 { k 0 with submitAt := some 0 }
    ((s 2).jobReqs[0]? = some (x 0) ∧ ((s 2).cluster 0).submitAt ≠ some (s 2).cycle ∧ nextSubmission (k (x 2).port) (s 2).jobReqs 0 = some (x 0)) ∧
    nextSubmission (k (x 0).port) (s 2).jobReqs 0 = some (x 2) ∧ (busy.cluster 0).submitAt = some busy.cycle := by decide +kernel

/-- CopyJobSteps: a job that ends for a reason that it has met, and a `tstore` of a STALE tile, which waits. CopyInternalSteps: a refresh
whose source no circuit reaches yet. -/
theorem witness_job_waits :
    let stale := tTile 0x100 1 1 64 0x25 (2 ^ 122 + 2 ^ 121 + 0x100000 * 2 ^ 200)
    let s := tPaged (tTiles [stale])
    let x : JobSlot := { seq := 1, state := .active, order := 0, who := tWho, kind := .copy 0 0 8, progress := 0, held := none, ending := some .cancelled, waiters := [] }
    let c : CopyAt := { unit := .job 0 0 1, who := tWho, cluster := 0, held := false }
    let r : Refresh := { index := 0, running := true, again := false, pageWait := false, who := tWho, jobs := [] }
    let cut : State := { s with mortar := { s.mortar with active := [] }, regs := { s.regs with ctxPoolCount := 0 } }
    x.ending ≠ none ∧ s.jobEnding c x = some .cancelled ∧ s.copyPending c x.kind 0 = false ∧
    dStale (s.jobDesc (.tstore (mkHandle 0 1 0) 0x100000 64)) = true ∧ stepOf (cut.refreshStep 0 r) = 1 := by decide +kernel

/-- TileUnitSteps and GeyserSteps: banks that another port has in this cycle, for the tile unit, the zeroing of a tile and the engine. -/
theorem witness_busy_banks :
    let s := tTiles [tTile 0 2 2 64 9 0, tTile 0x200 2 2 64 9 0]
    let t := s.setCluster 0 { s.cluster 0 with arb := { (s.cluster 0).arb with cycle := 0, granted := (List.range 128).map fun b => (b, 1) } }
    let op : TileOp := { who := tWho, cluster := 0, kind := .add, handles := [(0, mkHandle 0 1 0), (1, mkHandle 0 1 0), (2, mkHandle 0 1 1)], rm := .rne, sat := false, key := 0, dest := none }
    let banks := banksOf (op.runs (s.descsOf op.handles))
    banks ≠ [] ∧ (t.grantUnit 0 tilePort banks).2 = false ∧ (t.grantUnit 0 copyPort banks).2 = false ∧
    (t.grantUnit 0 enginePort banks).2 = false ∧ (s.grantUnit 0 tilePort banks).2 = true ∧ (s.grantUnit 0 copyPort banks).2 = true ∧
    (s.grantUnit 0 enginePort banks).2 = true ∧ (t.grantUnit 0 enginePort []).2 = true ∧ t.staleSource op = false ∧
    (t.cluster 0).uses (t.handleOf 0 5) = false := by decide +kernel

/-- GeyserSteps: a member whose rows the rights no longer cover and one whose A is poisoned; a firing of a stack whose B could not be
read; a latch that a write has met; `mxnorm` with a target out of range and an ACC tile that the rights do not cover. -/
theorem witness_failing_members :
    let acc := tTile 0 2 2 64 0x0E (2 ^ 123)
    let s := tTiles [acc, tTile 0x200 2 2 64 0x0B 0, tTile 0x300 2 2 64 0x0B 0]
    let h := fun (i : Nat) => mkHandle 0 1 i
    let q : MxReq := { who := tWho, cluster := 0, kind := .mxm false false false 0 0 false, handles := [(0, h 0), (1, h 1), (2, h 2)], priority := 0, holdClass := 0, dest := none, arrived := 0 }
    let key : StackKey := { handle := h 2, version := 0, bFmt := 0x0B, aFmt := 0x0B, trans := false, neg := false }
    let x : Stack := { state := .firing, key := key, members := [(q, 2)], deadline := 5, admitted := 0, latched := false }
    let k : ClusterState := { ClusterState.reset with mxStacks := [(0, x)] }
    let t := s.setCluster 0 k
    let l : Latch := ⟨h 2, 0, 0x0B, false, [], [], true⟩
    let norm := { q with kind := .norm 32768, handles := [(1, h 0)], dest := some 4 }
    let bare : State := { s with regs := DevRegs.reset }
    ((bare.memberDenied q).isSome = true ∧ s.memberDenied q = none ∧ (({ s with poison := [tspBase 0 + 0x200] } : State).memberPoison q).isSome = true) ∧
    (k.firing = some (0, x) ∧ x.latched = false ∧ (t.grantUnit 0 enginePort (banksOf (t.stackRuns 0 x))).2 = true ∧
      ((t.grantUnit 0 enginePort (banksOf (t.stackRuns 0 x))).1.cluster 0).latch = none) ∧ l.spoiled = true ∧
    ((s.normBad norm rightsRW (targetBad 32768)).isSome = true ∧ s.normBad norm rightsRW (targetBad 32767) = none ∧
      (bare.normBad norm rightsRW (targetBad 0)).isSome = true) ∧
    ({ k with mxStacks := [], engineQ := [norm] } : ClusterState).firing = none := by decide +kernel

/-- MortarSteps: a commit that ends while a brick is ADMITTING. -/
theorem witness_admission :
    let o := tDev (tLine (tReg0 0))
    let s : State := { o with mortar := { o.mortar with ctStatus := 1, commitAt := some 0, bricks := ⟨.live, .admitting, .live, .live⟩ } }
    bits s.mortar.ctStatus.toNat 1 0 = 1 ∧ s.mortar.bricks.get 1 = .admitting ∧ s.mortar.bricks.get 2 ≠ .admitting ∧
    o.mortar.commitAt = none ∧ o.dieIn .reset = none ∧ (o.brick 0).ucieRetraining.contains 2 = false := by decide +kernel

/-- OtherRegisterWrites: a write of a peer of a register without a row of its own, and a store of a context that its register does not
take in that form. -/
theorem witness_other_writes :
    let v : BankReq := { who := tWho, addr := 0x00FC000000000000, size := 4, op := .store (toBytes 4 1), reply := .nothing, posted := true, acq := false }
    let o := tDev (tLine (tReg0 0))
    let w : RegAccess := { src := .ctx tWho, die := 0, block := (blockAt 0 0).1, offset := (blockAt 0 0).2, width := 4, value := 1 }
    let s : State := { o with bankQ := [v] }
    registerFault 0 w.block w.offset 4 = some .misaligned ∧ s.findWrite w = some v ∧
    (registerFault 0 .hostPort 0 8 = none ∧ ownRow .hostPort 0 = none ∧ Block.hostPort ≠ .capability) := by decide +kernel

/-- OtherRegisterWrites: the store of a context to a register of the host port, wherever that block stands in the window; whether the
register takes its value is decided by `writeRegister` alone (witness_register_writes). -/
theorem witness_context_write (o : Nat) (h : blockAt 0 o = (.hostPort, 0)) (a : targetOf (0x00FC000000000000 + o) = .reg 0 o) :
    let r : BankReq := { who := tWho, addr := 0x00FC000000000000 + o, size := 8, op := .store (toBytes 8 1000), reply := .nothing, posted := true, acq := false }
    let w : RegAccess := { src := .ctx tWho, die := 0, block := .hostPort, offset := 0, width := 8, value := 1000 }
    let s : State := { tDev (tLine (tReg0 0)) with bankQ := [r] }
    s.findWrite w = some r ∧ registerFault w.die.val w.block w.offset w.width = none ∧ ownRow w.block w.offset = none := by
  refine ⟨?_, by decide +kernel, by decide +kernel⟩
  have e : (tWho == tWho && (0 == (0 : Die).val && (Block.hostPort, 0) == (Block.hostPort, 0) && (toBytes 8 1000).length == 8 &&
    ofBytes (toBytes 8 1000) == BitVec.toNat (1000 : Word64))) = true := by decide +kernel
  simp only [State.findWrite, List.find?_cons, a, h, e]

/-! ## Single instructions, with results worked out by hand from the rules -/

/-- The line that an instruction leaves in the barrel. -/
def outLine (r : Result) : Option Line :=
  match r with
  | .next s => s.barrel.map fun b => b.held.line
  | .fault _ | .refused _ => none

/-- The register that an instruction leaves. -/
def outReg (r : Result) (d : Reg) : Option Nat := (outLine r).map fun l => (l.reg d).toNat

/-- The fault code that an instruction leaves, by its record. -/
def outFault (r : Result) : Option (FaultCode × Nat) :=
  match r with
  | .next s => s.barrel.bind fun b => (b.held.records.getLast?).map fun x => (x.code, x.va)
  | .fault _ | .refused _ => none

/-- A state whose g1, g2 and g3 are set. -/
def tRun (x y z : Word64) : State := tState (tLine ⟨0, x, y, z, 0, 0, 0, 0⟩)

/-- R187, R188: 0xFFFFFFFF + 1 at 32 bits is 0 with CARRY set; 5 − 9 saturates at 0 when unsigned. -/
theorem test_add_sub :
    outReg (exec (.add tAlways 4 1 2 .co true .w32) (tRun 0xFFFFFFFF 1 0)) 4 = some 0 ∧
    (outLine (exec (.add tAlways 4 1 2 .co true .w32) (tRun 0xFFFFFFFF 1 0))).map Line.carry = some true ∧
    outReg (exec (.sub tAlways 4 1 2 .sat true .w32) (tRun 5 9 0)) 4 = some 0 ∧
    outReg (exec (.sub tAlways 4 1 2 .none false .w32) (tRun 5 9 0)) 4 = some 0xFFFFFFFFFFFFFFFC := by decide +kernel

/-- R187, R189: the high half of (−1) × (−1) is 0, that of the unsigned product 2^64 − 2; −7 div 2 is −3 with remainder −1; a
divisor of 0 gives all ones and the dividend; −2^63 div −1 is −2^63. -/
theorem test_mul_div :
    outReg (exec (.mulh tAlways 4 1 2 false .w64) (tRun (-1) (-1) 0)) 4 = some 0 ∧
    outReg (exec (.mulhu tAlways 4 1 2 false .w64) (tRun (-1) (-1) 0)) 4 = some 0xFFFFFFFFFFFFFFFE ∧
    outReg (exec (.div tAlways 4 1 2 false .w64) (tRun (-7) 2 0)) 4 = some 0xFFFFFFFFFFFFFFFD ∧
    outReg (exec (.rem tAlways 4 1 2 false .w64) (tRun (-7) 2 0)) 4 = some 0xFFFFFFFFFFFFFFFF ∧
    outReg (exec (.div tAlways 4 1 2 false .w64) (tRun 7 0 0)) 4 = some 0xFFFFFFFFFFFFFFFF ∧
    outReg (exec (.remu tAlways 4 1 2 false .w64) (tRun 7 0 0)) 4 = some 7 ∧
    outReg (exec (.div tAlways 4 1 2 false .w64) (tRun 0x8000000000000000 (-1) 0)) 4 = some 0x8000000000000000 := by
  decide +kernel

/-- R187: a shift of 65 at 64 bits shifts by 1; the 8-bit rotation right of 0x81 by 1 is 0xC0; −128 >> 1 at 8 bits is −64. -/
theorem test_shifts :
    outReg (exec (.shl tAlways 4 1 2 false .w64) (tRun 3 65 0)) 4 = some 6 ∧
    outReg (exec (.ror tAlways 4 1 2 true .w8) (tRun 0x81 1 0)) 4 = some 0xC0 ∧
    outReg (exec (.sar tAlways 4 1 2 false .w8) (tRun 0x80 1 0)) 4 = some 0xFFFFFFFFFFFFFFC0 := by decide +kernel

/-- R190, R191: leading zeros of 0; bytes reversed; |−128| at 8 bits with saturation; bits [7:4] of 0xAB extracted signed and
unsigned, and inserted. -/
theorem test_fields :
    outReg (exec (.clz tAlways 4 1 .w32) (tRun 0 0 0)) 4 = some 32 ∧
    outReg (exec (.bswap tAlways 4 1 true .w32) (tRun 0x11223344 0 0)) 4 = some 0x44332211 ∧
    outReg (exec (.abs tAlways 4 1 true false .w8) (tRun 0x80 0 0)) 4 = some 127 ∧
    outReg (exec (.ext tAlways 4 1 2) (tRun 0xAB (4 + 3 * 64) 0)) 4 = some 0xFFFFFFFFFFFFFFFA ∧
    outReg (exec (.ext tAlways 4 1 2) (tRun 0xAB (4 + 3 * 64 + 2 ^ 12) 0)) 4 = some 0xA ∧
    outReg (exec (.ins tAlways 3 1 2) (tRun 0xAB (4 + 3 * 64) 0xFFF)) 3 = some 0xFBF := by decide +kernel

/-- R192, R197, R198: −1 is below 0 signed and above it unsigned; `wrp` under an all-ones mask leaves bit 0 and bits [31:14]. -/
theorem test_predicates :
    (outLine (exec (.cmp tAlways 2 1 3 false .w64 .lt) (tRun (-1) 0 0))).map (fun l => l.predicate 2) = some true ∧
    (outLine (exec (.cmp tAlways 2 1 3 false .w64 .ltu) (tRun (-1) 0 0))).map (fun l => l.predicate 2) = some false ∧
    (outLine (exec (.wrp tAlways 1 2) (tRun (-1) (-1) 0))).map (·.pred) = some 0x3FFE ∧
    (outLine (exec (.cmp tAlways 0 1 3 false .w64 .eq) (tRun 0 1 0))).map (fun l => l.predicate 0) = some true := by decide +kernel

/-- R200, R201: lanes of 8 bits: 0x7F + 1 saturates at 0x7F, the other lanes stay 0; 1 × 3 + 2 × 4 + 5 = 16. -/
theorem test_lanes :
    outReg (exec (.vadd tAlways 4 1 2 true false .l8) (tRun 0x7F 1 0)) 4 = some 0x7F ∧
    outReg (exec (.vdot tAlways 4 1 2 3 false .l8) (tRun 0x0201 0x0403 5)) 4 = some 16 := by decide +kernel

/-- R177. -/
theorem test_rand :
    outReg (exec (.rand tAlways 4 1 2 false) (tRun 0 0 0)) 4 = some 0x0D2A2E548DEE6C2C ∧
    outReg (exec (.randf tAlways 4 1 2 false) (tRun 0 0 0)) 4 = some 0x3D52A2E0 := by decide +kernel

/-- R170, R174: in binary32 1 + 2^−24 rounds to 1 with FX; 1 ÷ 0 is infinity with FZ; 0 × infinity is NaN with FV. -/
theorem test_float :
    outReg (exec (.fadd tAlways 4 1 2 .rne .f32) (tRun 0x3F800000 0x33800000 0)) 4 = some 0x3F800000 ∧
    (outLine (exec (.fadd tAlways 4 1 2 .rne .f32) (tRun 0x3F800000 0x33800000 0))).map (·.pred) = some (1#32 <<< 12) ∧
    outReg (exec (.fdiv tAlways 4 1 2 .rne .f32) (tRun 0x3F800000 0 0)) 4 = some 0x7F800000 ∧
    (outLine (exec (.fdiv tAlways 4 1 2 .rne .f32) (tRun 0x3F800000 0 0))).map (·.pred) = some (1#32 <<< 9) ∧
    outReg (exec (.fmul tAlways 4 1 2 .rne .f32) (tRun 0x7F800000 0 0)) 4 = some 0x7FC00000 ∧
    (outLine (exec (.fmul tAlways 4 1 2 .rne .f32) (tRun 0x7F800000 0 0))).map (·.pred) = some (1#32 <<< 8) := by decide +kernel

/-- R212, R215, R217: the larger of −0 and +0 is +0; class bit 3 for −0; 1,000 into e4m3 with saturation is 448 (0x7E). -/
theorem test_float_misc :
    outReg (exec (.fmax tAlways 4 1 2 .f32) (tRun 0x80000000 0 0)) 4 = some 0 ∧
    outReg (exec (.fclass tAlways 4 1 .f32) (tRun 0x80000000 0 0)) 4 = some 8 ∧
    outReg (exec (.fcvtRL tAlways 4 1 0 (BitVec.ofNat 32 (0x09 + 0x0C * 2 ^ 8 + 2 ^ 19))) (tRun 0x447A0000 0 0)) 4 = some 0x7E := by
  decide +kernel

/-- R207, R136, R206: `dbnz` at 1 falls through; a call pushes the return PC and the predicates at LINK − 8; `ret` brings them
back; a misaligned LINK faults. -/
theorem test_branches :
    (outLine (exec (.dbnz tAlways 1 2) (tRun 1 0 0))).map (·.pc) = some 8 ∧
    (let l := { tLine (tReg0 0) with link := 0x00FE000000010008, pred := 0x82 }
     let s := { tState l with mem := memPuts [] 0x00FE000000000000 [1] }
     (outLine (exec (.call tAlways 2) s)).map (fun l => (l.pc, l.link)) = some (12, 0x00FE000000010000) ∧
     (match exec (.call tAlways 2) s with
      | .next t => memNat t.mem 0x00FE000000010000 8
      | .fault _ | .refused _ => 0) = 8 + 0x83 * 2 ^ 32) ∧
    (let l := { tLine (tReg0 0) with link := 0x00FE000000010000 }
     let s := { tState l with mem := memPuts (memPuts [] 0x00FE000000000000 [1]) 0x00FE000000010000 (toBytes 8 (12 + 0x83 * 2 ^ 32)) }
     (outLine (exec (.ret tAlways false) s)).map (fun l => (l.pc, l.link, l.pred)) = some (12, 0x00FE000000010008, 0x82)) ∧
    outFault (exec (.ret tAlways false) (tState { tLine (tReg0 0) with link := 0x00FE000000010004 })) =
      some (.misaligned, 0x00FE000000010004) := by decide +kernel

/-- R265, R257: a signed byte load of 0x80; a misaligned load; a hole. -/
theorem test_loads :
    (let s := { tState tMem with mem := memPuts [] 0x00FE000000010000 [0x80] }
     outReg (exec (.ldRK tAlways 4 0 .w8 0) s) 4 = some 0xFFFFFFFFFFFFFF80) ∧
    outFault (exec (.ldRI tAlways 4 5 0) (tState tMem)) = some (.misaligned, 0x00FE000000010001) ∧
    outFault (exec (.ldRI tAlways 4 3 0) (tState tMem)) = some (.protection, 0x00FDF00000000000) := by decide +kernel

/-- R272: `aadd` gives the old value and stores the sum, 0xFFFFFFFF + 1 = 0 at 32 bits. -/
theorem test_atomic :
    let s := { tState tMem with mem := memPuts [] 0x00FE000000010000 [0xFF, 0xFF, 0xFF, 0xFF, 0x01] }
    outReg (exec (.aaddRL tAlways 4 0 .none .w32 1) s) 4 = some 0xFFFFFFFF ∧
    (match exec (.aaddRL tAlways 4 0 .none .w32 1) s with
     | .next t => memNat t.mem 0x00FE000000010000 8
     | .fault _ | .refused _ => 0) = 2 ^ 32 := by decide +kernel

/-- R95: `ldfe` of a FULL word leaves it EMPTY; of an EMPTY one the thread waits. -/
theorem test_full_empty :
    let s := { tState tMem with mem := memPuts [] 0x00FE000000010000 [7], full := [0x00FE000000010000] }
    outReg (exec (.ldfeRI tAlways 4 0 0) s) 4 = some 7 ∧
    (match exec (.ldfeRI tAlways 4 0 0) s with
     | .next t => t.full
     | .fault _ | .refused _ => [0]) = [] ∧
    (outLine (exec (.ldfeRI tAlways 4 0 0) (tState tMem))).map (fun l => (l.inState .wait, l.waitKind)) = some (true, 3) := by
  decide +kernel

/-- R276: the last of two arrivals at a sum barrier writes generation 1, VALUE 0 and no arrival. -/
theorem test_barrier :
    let s := { tState tMem with mem := memPuts [] 0x00FD000000000040 (toBytes 16 (barrierWord 2 1 0 0 5)) }
    outReg (exec (.bara tAlways 4 1 2) s) 4 = some 0 ∧
    (match exec (.bara tAlways 4 1 2) s with
     | .next t => memNat t.mem 0x00FD000000000040 16
     | .fault _ | .refused _ => 0) = barrierWord 2 0 0 1 0 := by decide +kernel

/-- R349, R324, R328: `trap 5` faults with code 0x0D and 5 in AUX; `done` without children frees the line; `sleep 0` goes on. -/
theorem test_ends :
    (match exec (.trapRL tAlways 5) (tRun 0 0 0) with
     | .next t => (t.barrel.bind fun b => b.held.records.head?).map fun r => (r.code, r.aux, r.pc)
     | .fault _ | .refused _ => none) = some (.trap, 5, 4) ∧
    (outLine (exec (.done tAlways) (tRun 0 0 0))).map (fun l => l.inState .free) = some true ∧
    (outLine (exec (.sleepRL tAlways 0) (tRun 0 0 0))).map (·.pc) = some 8 ∧
    (outLine (exec (.sleepRL tAlways 1000) (tRun 0 0 0))).map (fun l => l.waitKind) = some 9 := by decide +kernel

/-- R347, R348: CTXVA; CTXL1_LIMIT reads 16 at reset; `wsr` of 17 to it is refused. -/
theorem test_special_registers :
    outReg (exec (.rsr tAlways 4 .ctxva) (tRun 0 0 0)) 4 = some 0x100000 ∧
    outReg (exec (.rsr tAlways 4 .ctxl1Limit) (tRun 0 0 0)) 4 = some 16 ∧
    outFault (exec (.wsrRL tAlways .ctxl1Limit 17) (tRun 0 0 0)) = some (.protection, 0) := by decide +kernel

/-- R142 to R144, R153: the step after `withFetchWord` runs the word: `add g6, g6, #-3` leaves −3 and the PC at 8; an illegal
word faults. -/
theorem test_step_runs :
    (match step (State.reset.withFetchWord 32 0x0386DFFD) with
     | .next t => match Table.get? (t.core 0).entries 0 with
       | some (.held h) => some ((h.line.reg 6).toNat, h.line.pc)
       | _ => none
     | .fault _ | .refused _ => none) = some (2 ^ 64 - 3, 8) ∧
    (match step (State.reset.withFetchWord 32 0) with
     | .next t => match Table.get? (t.core 0).entries 0 with
       | some (.held h) => some (h.line.inState .faulted, bits h.line.status.toNat 17 10)
       | _ => none
     | .fault _ | .refused _ => none) = some (true, 1) := by decide +kernel

end Sys2Proof.Machine
end

/-!
O38 (R16, R33, R34, R39 to R41, R44 to R46, R50, R51, R53 to R55, R109): what each step of translation and protection does:
refills and invalidations of the PLB and the translation caches, lookups and where a translated request goes, page-fault
messages, and page migration.
-/
namespace Sys2Proof.Translation
open Sys2Proof.Machine Sys2Proof.Laws

/-! ## The PLB (R39, R40) -/

/-- The domain of a rights entry is a 16-bit field, so the `plbi` of one entry's region names one domain only. -/
theorem plbMeets_entry (x : PlbEntry) (e : Nat) :
    plbMeets x (some (bits e 127 112)) (bits e 55 0) (bits e 103 98) =
      (bits x.toNat 127 112 == bits e 127 112 &&
        regionsMeet (bits x.toNat 55 0) (bits x.toNat 103 98) (bits e 55 0) (bits e 103 98)) := by
  have hlt : ¬ 65536 ≤ bits e 127 112 := by simp only [bits]; omega
  simp [plbMeets, hlt]

/-- The context that asked for a refill still stands at its core, with the generation that asked. -/
theorem refillHere_iff (s : State) (f : PlbFill) :
    ((s.findEntry f.who.ctx).any fun x => x.1 == f.core && x.2.2.line.gen == f.who.gen) = true ↔
      ∃ e h, s.findEntry f.who.ctx = some (f.core, e, h) ∧ h.line.gen = f.who.gen := by
  rcases s.findEntry f.who.ctx with _ | ⟨k, e, h⟩
  · simp
  · simp only [Option.any_some, Bool.and_eq_true, beq_iff_eq, Option.some.injEq, Prod.mk.injEq]
    constructor
    · rintro ⟨rfl, hg⟩; exact ⟨e, h, ⟨rfl, rfl, rfl⟩, hg⟩
    · rintro ⟨_, _, ⟨rfl, rfl, rfl⟩, hg⟩; exact ⟨rfl, hg⟩

/-- The core of a refill after it, before its thread is woken. -/
def refilled (s : State) (f : PlbFill) : CoreState :=
  match s.refillEntry f.who.domain.toNat f.who.part.toNat f.va with
  | some e => (s.core f.core).plbInstall e
  | none =>
    if (s.findEntry f.who.ctx).any fun x => x.1 == f.core && x.2.2.line.gen == f.who.gen then
      { s.core f.core with denied := (s.core f.core).denied ++ [f.refusal] }
    else s.core f.core

theorem exec_plbRefill {s : State} {n : Nat} {f : PlbFill} (h : s.plbFills[n]? = some f) :
    exec (.plbRefill n) s = .next ((({ s with plbFills := listErase s.plbFills n } : State).setCore f.core
      (refilled s f)).reply f.who 8 .wake) := by
  show execPlbRefill n s = _
  simp only [execPlbRefill, h]
  rfl

theorem exec_plbiCoreInvalidate {s : State} {n core : Nat} {v : InvReq} (h : s.invs[n]? = some v)
    (hd : v.domain.isSome = true) (hc : v.left.contains core = true) :
    exec (.plbiCoreInvalidate n core) s = .next ((s.setCore core { s.core core with
      plb := (s.core core).plb.filter fun x => !plbMeets x.2 v.domain v.base v.log2,
      denied := (s.core core).denied.filter fun d => !d.meets v.domain v.base v.log2 }).invAck n v core) := by
  show execPlbiCoreInvalidate n core s = _
  simp only [execPlbiCoreInvalidate, h, hd, hc, Bool.and_self, if_true]

theorem exec_tlbiBrickInvalidate {s : State} {n : Nat} {d : Die} {v : InvReq} (h : s.invs[n]? = some v)
    (hd : v.domain = none) (hc : v.left.contains d.val = true) :
    exec (.tlbiBrickInvalidate n d) s = .next ((s.tlbiAt d.val v.base v.log2).invAck n v d.val) := by
  show execTlbiBrickInvalidate n d s = _
  simp only [execTlbiBrickInvalidate, h, hd, hc, Option.isNone_none, Bool.and_self, if_true]

/-- The last agent completes an invalidation; before it the agents that are left stay. -/
theorem invAck_eq (s : State) (n : Nat) (v : InvReq) (agent : Nat) :
    s.invAck n v agent = if v.left.filter (· != agent) = [] then
        ({ s with invs := listErase s.invs n } : State).reply v.who 1 (.done [] none 0)
      else { s with invs := listSet s.invs n { v with left := v.left.filter (· != agent) } } := by
  simp only [State.invAck, List.isEmpty_iff]

theorem plbSteps : Claims.PlbSteps := by
  intro s n
  refine ⟨fun f hf => ?_, fun v core hv hd hc => ?_⟩
  · dsimp only
    rw [exec_plbRefill hf]
    refine ⟨fun (he : s.refillEntry _ _ _ = none) hh => ?_, fun (he : s.refillEntry _ _ _ = none) hh => ?_,
      fun e (he : s.refillEntry _ _ _ = some e) => ?_⟩
    · simp only [refilled, he, (refillHere_iff s f).2 hh, if_true]; rfl
    · simp only [refilled, he, mt (refillHere_iff s f).1 hh]; rfl
    · simp only [refilled, he, CoreState.plbInstall, plbMeets_entry]
  · rw [exec_plbiCoreInvalidate hv hd hc, invAck_eq]
    rfl

/-! ## The translation cache and the lookup (R44 to R46, R50) -/

theorem exec_translationLookup_ok {s t : State} {n e : Nat} {r : Req} (h : s.reqs[n]? = some r) (hp : r.phase = .xlat)
    (hl : s.lookup (dieOfCore r.who.core) r.va r.op.writes = (.ok e, t)) :
    exec (.translationLookup n) s = .next (t.route r (pteAddr e r.va) (pteWr e) (pteMaster e)) := by
  show execTranslationLookup n s = _
  simp only [execTranslationLookup, h, hp, hl]

theorem exec_translationLookup_error {s t : State} {n c : Nat} {r : Req} (h : s.reqs[n]? = some r) (hp : r.phase = .xlat)
    (hl : s.lookup (dieOfCore r.who.core) r.va r.op.writes = (.error c, t)) :
    exec (.translationLookup n) s = .next ((t.dropReq r).pageFaulted r c) := by
  show execTranslationLookup n s = _
  simp only [execTranslationLookup, h, hp, hl]

theorem translationSteps : Claims.TranslationSteps := by
  intro s n
  refine ⟨fun v d hv hd hc => ?_, fun r hr hp => ⟨fun e t hl => ?_, fun c t hl => ?_⟩⟩
  · rw [exec_tlbiBrickInvalidate hv hd hc, invAck_eq]
    rfl
  · exact exec_translationLookup_ok hr hp hl
  · exact exec_translationLookup_error hr hp hl

/-! ## Where a translated request goes (R16, R33, R34, R259, R274) -/

/-- A line of a brick, of the hashed region or of host-coherent memory has a home slice to go to. -/
def Homed (s : State) (pa : Nat) : Prop :=
  s.rangeOf pa = .hashed ∨ (∃ d, s.rangeOf pa = .die d) ∨ s.rangeOf pa = .hostCoherent

/-- Plain data accesses: loads, subscriptions and stores. -/
def PlainOp (op : AccessOp) : Prop := op = .load ∨ (∃ f u, op = .subscribe f u) ∨ ∃ bs, op = .store bs

/-- The operations that only a CLM or a TSP performs. -/
def WindowOp (op : AccessOp) : Prop :=
  op = .ldfe ∨ (∃ v, op = .stfe v) ∨ (∃ v, op = .feset v) ∨ (∃ x, op = .atomic .qpush x) ∨
    (∃ x, op = .atomic .qpop x) ∨ (∃ w x, op = .barrier w x) ∨ ∃ g, op = .swait g

/-- A plain access of an address outside the context pool takes its turn at the home of its line. -/
theorem route_plain_homed {s : State} {r : Req} {pa m : Nat} (wr : Bool) (hpool : s.inPool r.va = false) (hh : Homed s pa)
    (hop : PlainOp r.op) : s.route r pa wr m = s.toHomeSlice r pa wr m := by
  rcases hh with h | ⟨d, h⟩ | h <;> rcases hop with ho | ⟨f, u, ho⟩ | ⟨bs, ho⟩ <;> simp [State.route, h, ho, hpool]

/-- An operation of the windows is refused in the paged space. -/
theorem route_window_homed {s : State} {r : Req} {pa : Nat} (m : Nat) (wr : Bool) (hh : Homed s pa) (hop : WindowOp r.op) :
    s.route r pa wr m =
      (s.dropReq r).accessFault r.who r.va r.op r.posted (dieOfCore r.who.core) .protection (some 2) false := by
  rcases hh with h | ⟨d, h⟩ | h <;>
    rcases hop with ho | ⟨v, ho⟩ | ⟨v, ho⟩ | ⟨x, ho⟩ | ⟨x, ho⟩ | ⟨w, x, ho⟩ | ⟨g, ho⟩ <;> simp [State.route, h, ho]

theorem toHomeSlice_waits {s : State} {r : Req} {pa : Nat} (wr : Bool) (m : Nat) (hl : s.dieLive (s.unitDie pa r.who) = true)
    (ho : s.pairOpen (dieOfCore r.who.core) (s.unitDie pa r.who) pa = false) : s.toHomeSlice r pa wr m = s := by
  simp [State.toHomeSlice, hl, ho]

theorem toHomeSlice_goes {s : State} {r : Req} {pa : Nat} (wr : Bool) (m : Nat) (h : s.dieLive (s.unitDie pa r.who) = false ∨
    s.pairOpen (dieOfCore r.who.core) (s.unitDie pa r.who) pa = true) :
    s.toHomeSlice r pa wr m = { s.dropReq r with reqs := (s.dropReq r).reqs ++ [{ r with
      phase := .home pa wr m, via := (s.dropReq r).circuitOf (dieOfCore r.who.core) (s.unitDie pa r.who) pa }] } := by
  rcases h with h | h <;> simp [State.toHomeSlice, h]

/-- A plain access of at most 8 bytes leaves the device. -/
theorem goOutside_plain {s : State} {r : Req} (pa m : Nat) (port : Option Nat) (hop : PlainOp r.op) (hs : r.size ≤ 8) :
    s.goOutside r pa m port = s.sendOut r pa m port := by
  have h8 : ¬ 8 < r.size := by omega
  rcases hop with ho | ⟨f, u, ho⟩ | ⟨bs, ho⟩ <;> simp [State.goOutside, ho, h8]

theorem PlainOp.not_wholeLine {op : AccessOp} (h : PlainOp op) : op.wholeLine = false := by
  rcases h with rfl | ⟨f, u, rfl⟩ | ⟨bs, rfl⟩ <;> rfl

/-- A plain access of a peer's memory by the circuit to its port. -/
theorem route_plain_peer {s : State} {r : Req} {pa : Nat} (wr : Bool) (m : Nat) (hp : s.rangeOf pa = .peer) (hop : PlainOp r.op) :
    s.route r pa wr m =
      if s.circuitTo (dieOfCore r.who.core) (peerPort pa) then s.goOutside r pa m (some (peerPort pa))
      else if s.circuitTuning (dieOfCore r.who.core) (peerPort pa) then s
      else (s.dropReq r).accessFault r.who r.va r.op r.posted (dieOfCore r.who.core) .noCircuit none false := by
  simp only [State.route, hp, hop.not_wholeLine, Bool.or_false]

theorem routeResult : Claims.RouteResult := by
  intro s r pa m wr hpool
  refine ⟨fun hh hop hl ho => ?_, fun hh hop hgo => ?_, fun hh hop => ?_, fun hr hop hs => ?_,
    fun hr hop hs => ⟨fun hc => ?_, fun hc ht => ?_, fun hc ht => ?_⟩⟩
  · rw [route_plain_homed wr hpool hh hop, toHomeSlice_waits wr m hl ho]
  · rw [route_plain_homed wr hpool hh hop, toHomeSlice_goes wr m hgo]
  · exact route_window_homed m wr hh hop
  · rw [← goOutside_plain pa m none hop hs]
    simp only [State.route, hr]
  · rw [route_plain_peer wr m hr hop, if_pos hc, goOutside_plain pa m _ hop hs]
  · simp [route_plain_peer wr m hr hop, hc, ht]
  · simp [route_plain_peer wr m hr hop, hc, ht]

/-! ## Page-fault messages (R50, R51) -/

/-- The slot that the next page-fault message of a partition takes. -/
def pfqSlot (s : State) (p : Nat) : Nat :=
  s.pfqBaseOf p % 2 ^ 48 + 32 * (s.pfqTailOf p % ringSlots (s.pfqBaseOf p))

/-- How many messages stand in the page-fault queue of a partition. -/
def pfqUsed (s : State) (p : Nat) : Nat := (s.pfqTailOf p + 2 ^ 32 - s.pfqHeadOf p) % 2 ^ 32

theorem exec_pfqMessageAccept_waits {s : State} {d : Die} {n : Nat} {m : PfMsg} (h : (s.brick d.val).pfHeld[n]? = some m)
    (hw : ringSlots (s.pfqBaseOf m.who.part.toNat) ≤ pfqUsed s m.who.part.toNat ∨ s.leased (pfqSlot s m.who.part.toNat) 32 = true) :
    exec (.pfqMessageAccept d n) s = .next s := by
  show execPfqMessageAccept d n s = _
  simp only [pfqUsed, pfqSlot] at hw
  simp only [execPfqMessageAccept, h, Bool.or_eq_true, decide_eq_true_eq, if_pos hw]

theorem exec_pfqMessageAccept_writes {s : State} {d : Die} {n : Nat} {m : PfMsg} (h : (s.brick d.val).pfHeld[n]? = some m)
    (hu : pfqUsed s m.who.part.toNat < ringSlots (s.pfqBaseOf m.who.part.toNat))
    (hl : s.leased (pfqSlot s m.who.part.toNat) 32 = false) :
    exec (.pfqMessageAccept d n) s =
      let p := m.who.part.toNat
      let t := (s.setBrick d.val { s.brick d.val with pfHeld := listErase (s.brick d.val).pfHeld n }).cohPut (pfqSlot s p) m.bytes
      let u : State := { t with regs := { t.regs with
        pfqTail := Table.set t.regs.pfqTail p (BitVec.ofNat 32 (s.pfqTailOf p + 1)) } }
      .next (u.wakeHandler 0 false p (((Table.get? u.regs.pfqHandler p).getD 0#64).toNat % 2 ^ 56)
        (m.who.ctx, m.who.pc, m.who.domain, m.who.part)) := by
  show execPfqMessageAccept d n s = _
  have hw : ¬ (ringSlots (s.pfqBaseOf m.who.part.toNat) ≤ pfqUsed s m.who.part.toNat ∨
      s.leased (pfqSlot s m.who.part.toNat) 32 = true) := by simp [hl]; omega
  simp only [pfqUsed, pfqSlot] at hw
  simp only [execPfqMessageAccept, h, Bool.or_eq_true, decide_eq_true_eq, if_neg hw]
  rfl

theorem pageFaultMessages : Claims.PageFaultMessages := fun _ _ _ _ h =>
  ⟨fun hfull => exec_pfqMessageAccept_waits h (.inl hfull),
   fun _ hl => exec_pfqMessageAccept_waits h (.inr hl),
   fun hroom hl => exec_pfqMessageAccept_writes h hroom hl⟩

/-! ## The steps of a migration (R53, R54, R109) -/

/-- Migration n becomes g. -/
def putMigration (s : State) (n : Nat) (g : Migration) : State := { s with migrations := listSet s.migrations n g }

theorem setMigration_eq {s : State} {n : Nat} {g : Migration} (h : s.migrations[n]? = some g) (f : Migration → Migration) :
    s.setMigration n f = putMigration s n (f g) := by
  simp only [State.setMigration, h, putMigration]

theorem endMigration_eq {s : State} {n : Nat} {g : Migration} (h : s.migrations[n]? = some g) (st : JobStatus) :
    s.endMigration n st = (({ s with
      migrations := listErase s.migrations n,
      inflow := s.inflow.filter fun f => f.unit != (s.migrationAt g).unit } : State).releaseFrozen g).endWith g.job.1 g.job.2 st := by
  simp only [State.endMigration, h]

section Ending
variable {s : State} {n : Nat} {g : Migration} (h : s.migrations[n]? = some g)
include h

theorem exec_migrationRound_ending {st : JobStatus} (he : s.migrationEnding g = some st) :
    exec (.migrationRound n) s = .next (s.endMigration n st) := by
  show execMigrationRound n s = _
  simp only [execMigrationRound, h, he]

theorem exec_migrationFreeze_ending {st : JobStatus} (he : s.migrationEnding g = some st) :
    exec (.migrationFreeze n) s = .next (s.endMigration n st) := by
  show execMigrationFreeze n s = _
  simp only [execMigrationFreeze, h, he]

/-- A round of a migration that goes on: none of a frozen frame; else the lines under way, a new round, or nothing. -/
theorem exec_migrationRound_going (he : s.migrationEnding g = none) :
    exec (.migrationRound n) s = .next (
      if g.frozenAt.isSome then s
      else if g.pending ≠ [] then s.migrateLines n g.pending
      else if g.roundDue then
        putMigration s n { g with pending := g.marked, marked := [], rounds := g.rounds + 1 }
      else s) := by
  show execMigrationRound n s = _
  simp only [execMigrationRound, h, he, setMigration_eq h, Bool.not_eq_true', List.isEmpty_eq_false_iff,
    apply_ite Host.Outcome.next]

/-- The freeze begins once no line is under way and no round is due. -/
theorem exec_migrationFreeze_thawed (he : s.migrationEnding g = none) (hf : g.frozenAt = none) :
    exec (.migrationFreeze n) s = .next (
      if g.roundDue = true ∨ g.pending ≠ [] then s
      else (putMigration s n { g with frozenAt := some s.cycle }).freezeAll g) := by
  show execMigrationFreeze n s = _
  simp only [execMigrationFreeze, h, he, hf, setMigration_eq h, Bool.or_eq_true, Bool.not_eq_true',
    List.isEmpty_eq_false_iff, apply_ite Host.Outcome.next]

section Frozen
variable (he : s.migrationEnding g = none) (hf : g.frozenAt.isSome = true)
include he hf

theorem exec_migrationFreeze_busy (hb : ((s.freezeAll g).askFrame g).frameBusy g = true) :
    exec (.migrationFreeze n) s = .next ((s.freezeAll g).askFrame g) := by
  obtain ⟨c, hc⟩ := Option.isSome_iff_exists.1 hf
  show execMigrationFreeze n s = _
  simp only [execMigrationFreeze, h, he, hc, hb, if_true]

theorem exec_migrationFreeze_owning (hb : ((s.freezeAll g).askFrame g).frameBusy g = false) {v : State}
    (ho : ((s.freezeAll g).askFrame g).ownFrame g = some v) : exec (.migrationFreeze n) s = .next v := by
  obtain ⟨c, hc⟩ := Option.isSome_iff_exists.1 hf
  show execMigrationFreeze n s = _
  simp only [execMigrationFreeze, h, he, hc, hb, ho, Bool.false_eq_true, if_false]

theorem exec_migrationFreeze_copying (hb : ((s.freezeAll g).askFrame g).frameBusy g = false)
    (ho : ((s.freezeAll g).askFrame g).ownFrame g = none) :
    exec (.migrationFreeze n) s = .next (((s.freezeAll g).askFrame g).copyFrozen n g) := by
  obtain ⟨c, hc⟩ := Option.isSome_iff_exists.1 hf
  show execMigrationFreeze n s = _
  simp only [execMigrationFreeze, h, he, hc, hb, ho, Bool.false_eq_true, if_false]

end Frozen

theorem exec_migrationFreezeAbandon_thawed (hf : g.frozenAt = none) : exec (.migrationFreezeAbandon n) s = .next s := by
  show execMigrationFreezeAbandon n s = _
  simp only [execMigrationFreezeAbandon, h, hf]

/-- A freeze of 12,000 cycles is abandoned, the fourth time for good. -/
theorem exec_migrationFreezeAbandon_frozen {t : Nat} (hf : g.frozenAt = some t) :
    exec (.migrationFreezeAbandon n) s = .next (
      if s.cycle < t + 12000 then s
      else if g.abandoned = 3 then s.endMigration n .migAbort
      else (putMigration s n { g with frozenAt := none, abandoned := g.abandoned + 1, rounds := 0 }).releaseFrozen g) := by
  show execMigrationFreezeAbandon n s = _
  have ht : g.abandoned + 1 = 4 ↔ g.abandoned = 3 := by omega
  simp only [execMigrationFreezeAbandon, h, hf, freezeLimit, freezeTries, ht, setMigration_eq h,
    apply_ite Host.Outcome.next]

end Ending

theorem migrationSteps : Claims.MigrationSteps := by
  intro s n g h
  refine ⟨fun st he => ⟨exec_migrationRound_ending h he, exec_migrationFreeze_ending h he⟩, fun he => ?_,
    exec_migrationFreezeAbandon_thawed h, fun t hf => ?_⟩
  · refine ⟨fun hf => ?_, fun hf hp => ?_, fun hf hp hr => ?_, fun hf hp hr => ?_, fun hf hd => ?_, fun hf hp hr => ?_,
      fun hf => ⟨exec_migrationFreeze_busy h he hf, fun hb v => exec_migrationFreeze_owning h he hf hb,
        exec_migrationFreeze_copying h he hf⟩⟩
    · rw [exec_migrationRound_going h he, if_pos hf]
    · simp [exec_migrationRound_going h he, hf, hp]
    · simp [exec_migrationRound_going h he, hf, hp, hr, putMigration]
    · simp [exec_migrationRound_going h he, hf, hp, hr]
    · rw [exec_migrationFreeze_thawed h he hf, if_pos hd.symm]
    · simp [exec_migrationFreeze_thawed h he hf, hp, hr, putMigration]
  · rw [exec_migrationFreezeAbandon_frozen h hf]
    refine ⟨fun hc => ?_, fun hc ha => ?_, fun hc ha => ?_⟩
    · rw [if_pos hc]
    · rw [if_neg (by omega), if_pos ha]
    · rw [if_neg (by omega), if_neg ha, putMigration]

/-! ## One line of a migration (R53, R55) -/

section Line
variable {s : State} {n : Nat} {g : Migration} (h : s.migrations[n]? = some g)
include h

theorem migrateLines_done {l : Nat} {u : State} (hl : s.migrateLine g l = .done u) :
    s.migrateLines n [l] = u.setMigration n fun h => { h with pending := h.pending.erase l } := by
  simp only [State.migrateLines, h, hl]

theorem migrateLines_wait {l : Nat} {u : State} (hl : s.migrateLine g l = .wait u) : s.migrateLines n [l] = u := by
  simp only [State.migrateLines, h, hl]

theorem migrateLines_stop {l : Nat} {u : State} {st : JobStatus} (hl : s.migrateLine g l = .stop u st) :
    s.migrateLines n [l] = u.endMigration n st := by
  simp only [State.migrateLines, h, hl]

end Line

/-! ## The coherence operations and memory

What leaves memory as it is, and, of what writes it, that it keeps the canonical form. -/

/-- A fold over steps that leave memory leaves memory. -/
theorem foldl_mem {α : Type} (f : State → α → State) (hf : ∀ s x, (f s x).mem = s.mem) (xs : List α) (s : State) :
    (xs.foldl f s).mem = s.mem :=
  List.foldlRecOn xs f (motive := fun t => t.mem = s.mem) rfl fun t ht x _ => (hf t x).trans ht

/-- A fold over steps that keep the canonical form keeps it. -/
theorem foldl_memoryOk {α : Type} (f : State → α → State) (hf : ∀ s x, s.MemoryOk → (f s x).MemoryOk) (xs : List α)
    {s : State} (hs : s.MemoryOk) : (xs.foldl f s).MemoryOk :=
  List.foldlRecOn xs f (motive := State.MemoryOk) hs fun t ht x _ => hf t x ht

theorem memoryOk_of_mem_eq {s t : State} (h : t.mem = s.mem) (hs : s.MemoryOk) : t.MemoryOk := by
  unfold State.MemoryOk at *; rwa [h]

/-- Bytes put into memory in canonical form leave it so. -/
theorem memoryOk_of_mem_puts {s t : State} {a : Nat} {bs : List Byte} (h : t.mem = memPuts s.mem a bs) (hs : s.MemoryOk) :
    t.MemoryOk := by
  unfold State.MemoryOk at *; rw [h]; exact memPuts_wf bs a hs

@[simp] theorem putDir_mem (s : State) (pa : Nat) (e : DirEntry) : (s.putDir pa e).mem = s.mem := by
  unfold State.putDir; split <;> rfl

@[simp] theorem dropDir_mem (s : State) (pa : Nat) : (s.dropDir pa).mem = s.mem := by
  unfold State.dropDir; split <;> rfl

@[simp] theorem modifySector_mem (s : State) (pa : Nat) (f : DirSector → DirSector) : (s.modifySector pa f).mem = s.mem := by
  unfold State.modifySector; split
  · exact putDir_mem ..
  · rfl

@[simp] theorem setBrickState_mem (s : State) (pa b : Nat) (st : BrickState) (fs : List (Fmt × Bool)) :
    (s.setBrickState pa b st fs).mem = s.mem := modifySector_mem ..

@[simp] theorem trimFormats_mem (s : State) (pa va b : Nat) : (s.trimFormats pa va b).mem = s.mem := modifySector_mem ..

@[simp] theorem tidyDir_mem (s : State) (pa : Nat) : (s.tidyDir pa).mem = s.mem := by
  simp only [State.tidyDir]; split
  · split
    · exact dropDir_mem ..
    · rfl
  · rfl

@[simp] theorem editCopies_mem (s : State) (b va : Nat) (f : SecCopy → SecCopy) : (s.editCopies b va f).mem = s.mem := rfl

@[simp] theorem dropEmpty_mem (s : State) (b v : Nat) : (s.dropEmpty b v).mem = s.mem := by
  simp only [State.dropEmpty]; split <;> rfl

@[simp] theorem mapCopies_mem (s : State) (b va : Nat) (f : SecCopy → SecCopy) : (s.mapCopies b va f).mem = s.mem :=
  dropEmpty_mem ..

@[simp] theorem applySnoop_mem (s : State) (b : Nat) (x : Snoop) : (s.applySnoop b x).mem = s.mem := by
  unfold State.applySnoop; split <;> simp

@[simp] theorem applyAcked_mem (s : State) (which : Snoop → Bool) : (s.applyAcked which).mem = s.mem := by
  refine foldl_mem _ (fun t x => ?_) _ _
  split
  · exact applySnoop_mem ..
  · rfl

@[simp] theorem markMigrations_mem (s : State) (pa : Nat) : (s.markMigrations pa).mem = s.mem := rfl

@[simp] theorem dropLoads_mem (s : State) (pa : Nat) : (s.dropLoads pa).mem = s.mem := rfl

@[simp] theorem writeVersion_mem (s : State) (pa : Nat) (held : Bool) : (s.writeVersion pa held).mem = s.mem := by
  unfold State.writeVersion; split
  · split
    · exact putDir_mem ..
    · exact putDir_mem ..
  · rfl

theorem acceptDirty_memoryOk {s : State} (pa : Nat) (d : BitVec 512) (held : Bool) (hs : s.MemoryOk) :
    (s.acceptDirty pa d held).MemoryOk :=
  memoryOk_of_mem_puts (a := sectorOf pa) (bs := toBytes 64 d.toNat) (by simp [State.acceptDirty, putSector]) hs

theorem acceptFrom_memoryOk {s : State} (b pa : Nat) (d : BitVec 512) (held : Bool) (hs : s.MemoryOk) :
    (s.acceptFrom b pa d held).MemoryOk := by
  refine memoryOk_of_mem_eq ?_ (acceptDirty_memoryOk pa d held hs)
  simp only [State.acceptFrom]; split <;> rfl

theorem writeBackBrick_memoryOk {s : State} (b va pa : Nat) (held : Bool) (hs : s.MemoryOk) :
    (s.writeBackBrick b va pa held).MemoryOk := by
  unfold State.writeBackBrick; split
  · next d _ => exact memoryOk_of_mem_eq (editCopies_mem ..) (acceptFrom_memoryOk b pa d held hs)
  · exact hs

theorem putDesc_memoryOk {s : State} (cl i d : Nat) (hs : s.MemoryOk) : (s.putDesc cl i d).MemoryOk :=
  memoryOk_of_mem_puts (a := descAddr cl i) (bs := toBytes 32 d) (by simp only [State.putDesc]) hs

@[simp] theorem staleKeys_mem (s : State) (cl i : Nat) : (s.staleKeys cl i).mem = s.mem := rfl

theorem staleTile_memoryOk {s : State} (cl i : Nat) (hs : s.MemoryOk) : (s.staleTile cl i).MemoryOk := by
  simp only [State.staleTile]; split
  · exact memoryOk_of_mem_eq (by simp) (putDesc_memoryOk cl i (dNextVersion (dSetStale (s.desc cl i) true)) hs)
  · exact hs

theorem staleTiles_memoryOk {s : State} (b va : Nat) (which : TileSub → Bool) (hs : s.MemoryOk) :
    (s.staleTiles b va which).MemoryOk := by
  unfold State.staleTiles
  extract_lets hit rest
  have hr : rest.MemoryOk := memoryOk_of_mem_eq rfl hs
  clear_value rest
  refine foldl_memoryOk _ (fun t x ht => ?_) hit hr
  exact staleTile_memoryOk x.cluster x.index ht

theorem applyNotice_memoryOk {s : State} (b va pa : Nat) (dirty : Quad (Option (BitVec 512))) (held : Bool) (hs : s.MemoryOk) :
    (applyNotice s b va pa dirty held).MemoryOk := by
  refine foldl_memoryOk _ (fun t k ht => ?_) _ hs
  extract_lets p v accepted kept shared
  have ha : accepted.MemoryOk := by
    unfold accepted; split
    · next d _ => exact acceptFrom_memoryOk b p d held ht
    · exact ht
  have hd : shared.mem = accepted.mem := by
    unfold shared; split
    · exact setBrickState_mem ..
    · rfl
  refine memoryOk_of_mem_eq ?_ ha
  clear_value accepted kept shared
  split
  · rfl
  · cases kept with
    | s => rfl
    | e => rfl
    | m => rfl
    | i => exact (trimFormats_mem ..).trans hd
    | sub => exact (trimFormats_mem ..).trans hd

theorem takeNotices_memoryOk {s : State} (pa : Nat) (which : Req → Bool) (hs : s.MemoryOk) : (s.takeNotices pa which).MemoryOk := by
  refine foldl_memoryOk _ (fun t r ht => ?_) _ hs
  split
  · next d _ => exact memoryOk_of_mem_eq (tidyDir_mem ..) (applyNotice_memoryOk _ _ pa d _ ht)
  · exact ht

theorem recallSector_memoryOk {s : State} (pa : Nat) (hs : s.MemoryOk) : (s.recallSector pa).MemoryOk := by
  unfold State.recallSector
  extract_lets settled
  have ht : settled.MemoryOk := memoryOk_of_mem_eq (applyAcked_mem ..) (takeNotices_memoryOk pa _ hs)
  clear_value settled
  split
  · exact ht
  · extract_lets va recalled
    have hr : recalled.MemoryOk := by
      refine foldl_memoryOk _ (fun t b h => ?_) _ ht
      split
      · exact h
      · refine memoryOk_of_mem_eq (setBrickState_mem ..) (staleTiles_memoryOk b _ _ ?_)
        exact memoryOk_of_mem_eq (mapCopies_mem ..) (writeBackBrick_memoryOk b _ pa false h)
    clear_value recalled
    exact memoryOk_of_mem_eq (tidyDir_mem ..) hr

/-- A coherent write puts its bytes into memory in canonical form. -/
theorem cohPut_mem {s : State} (pa : Nat) (bs : List Byte) (hs : s.MemoryOk) :
    ∃ m, Memory.wf m = true ∧ (s.cohPut pa bs).mem = memPuts m pa bs := by
  let lines := List.range ((pa + bs.length - 1) / 64 + 1 - pa / 64)
  let recalled := lines.foldl (fun s i => s.recallSector ((pa / 64 + i) * 64)) s
  have hr : recalled.MemoryOk := foldl_memoryOk _ (fun _ i h => recallSector_memoryOk _ h) lines hs
  have hv := foldl_mem (fun s i => ((s.markMigrations ((pa / 64 + i) * 64)).dropLoads ((pa / 64 + i) * 64)).writeVersion
    ((pa / 64 + i) * 64) false) (fun _ i => writeVersion_mem ..) lines recalled
  exact ⟨_, memoryOk_of_mem_eq hv hr, rfl⟩

/-- What a coherent write has put reads back. -/
theorem cohPut_reads {s : State} (pa : Nat) (bs : List Byte) (hs : s.MemoryOk) {k : Nat} (hk : k < bs.length) :
    memByte (s.cohPut pa bs).mem (pa + k) = bs.getD k 0 := by
  obtain ⟨m, hm, he⟩ := cohPut_mem pa bs hs
  rw [he, memByte_memPuts bs pa hm, if_pos (by omega), Nat.add_sub_cancel_left]

/-! ## The write of a line of the new frame (R53) -/

theorem andThen_done {x : CopyStep} {f : State → CopyStep} {u : State} (h : x.andThen f = .done u) :
    ∃ t, x = .done t ∧ f t = .done u := by
  cases x with
  | done t => exact ⟨t, rfl, h⟩
  | stop => cases h
  | page => cases h
  | wait => cases h

theorem atHome_done {x : CopyStep} {a : Option CopyAgent} {pa : Nat} {u : State} (h : x.atHome a pa = .done u) :
    ∃ t, x = .done t ∧ u = t.leaveHome a pa := by
  cases x with
  | done t => cases h; exact ⟨t, rfl, rfl⟩
  | stop => cases h
  | page => cases h
  | wait => cases h

/-- Where nothing has to be waited for, the copies before an access leave the state as it is. -/
theorem frameCopies_done {s u : State} {va pa : Nat} {write : Bool} (h : s.frameCopies va pa write = .done u) :
    u = s := by
  simp only [State.frameCopies] at h
  generalize State.hasSnoop _ pa = waiting at h
  split at h
  · cases h
  · split at h
    · cases h
    · split at h
      · cases h
      · cases h; rfl

theorem frameSector_done_mem {s u : State} {c : CopyAt} {va pa : Nat} {write : Bool}
    (h : s.frameSector c va pa write = .done u) : u.mem = s.mem := by
  simp only [State.frameSector] at h
  split at h
  · cases h
  · split at h
    · cases h
    · obtain ⟨t, ht, rfl⟩ := atHome_done h
      split at ht
      · cases ht
      · split at ht
        · cases ht
        · rw [frameCopies_done ht]; rfl

theorem frameLine_done_mem {s u : State} {c : CopyAt} {va pa : Nat} {write : Bool} (h : s.frameLine c va pa write = .done u) :
    u.mem = s.mem := by
  obtain ⟨t3, h3, k3⟩ := andThen_done h
  obtain ⟨t2, h2, k2⟩ := andThen_done h3
  obtain ⟨t1, h1, k1⟩ := andThen_done h2
  have k0 : s.frameSector c (va + 64 * 0) (pa + 64 * 0) write = .done t1 := h1
  rw [frameSector_done_mem k3, frameSector_done_mem k2, frameSector_done_mem k1, frameSector_done_mem k0]

/-- A line written into a frame on the device is in memory. -/
theorem frameWrite_done_reads {s u : State} {c : CopyAt} {va pa : Nat} {bs : List Byte} (hs : s.MemoryOk)
    (hp : s.rangeOf pa = .hashed ∨ ∃ d, s.rangeOf pa = .die d) (h : s.frameWrite c va pa bs = .done u) {k : Nat}
    (hk : k < bs.length) : memByte u.mem (pa + k) = bs.getD k 0 := by
  have hw : (s.frameLine c va pa true).andThen (fun s => .done (s.cohPut pa bs)) = .done u := by
    rcases hp with hp | ⟨d, hp⟩ <;> simpa only [State.frameWrite, hp] using h
  obtain ⟨t, ht, ⟨⟩⟩ := andThen_done hw
  exact cohPut_reads pa bs (memoryOk_of_mem_eq (frameLine_done_mem ht) hs) hk

theorem migrationLines : Claims.MigrationLines := fun _ _ _ _ h =>
  ⟨fun _ => migrateLines_done h, fun _ => migrateLines_wait h, fun _ _ => migrateLines_stop h,
   fun hs hp _ _ _ hw _ hk => frameWrite_done_reads hs hp hw hk, endMigration_eq h⟩

/-- Settles O38: its six parts, each from what its step does. -/
theorem translationAndMigration : Obligations.TranslationAndMigration :=
  ⟨plbSteps, translationSteps, routeResult, pageFaultMessages, migrationSteps, migrationLines⟩

end Sys2Proof.Translation
